-- ==== Sys2Proof/Word.lean ====
section
/-! DEFINITION. The words of the device and the small records that commands are spelled with. -/

namespace Sys2Proof

/-- A 64-bit register or memory word. -/
abbrev Word := BitVec 64

/-- One byte of memory. -/
abbrev Byte := BitVec 8

/-- A vector register: 32 registers of 512 bits per context ("Registers, windows and contexts"). -/
abbrev VReg := BitVec 512

/-- A sparse table: the entries listed, each key once; an unlisted key holds a value that the reader of the
table states. -/
abbrev Tab (κ β : Type) := List (κ × β)

/-- What every core instruction carries: the core and resident context that issue it (R125's numbers: P-cores 0-47,
W-cores 48-111; a lockstep pair is named by its even core), the guard fields PRED and INV (R140), and the payload of
a WIDE prefix when one is present (R144, R147). -/
structure Hdr where
  core : Nat
  ctx  : Nat
  pred : Nat
  inv  : Bool
  wide : Option Nat
  deriving DecidableEq, Repr

/-- The operand fields of form M that name memory (R149, R152). -/
structure MemOp where
  cb      : Nat
  am      : Nat
  payload : Nat
  deriving DecidableEq, Repr

/-- Who makes an access to register space: a resident context of a core, or a Ridge-checked master with its function
number ("The Ridge table and the interconnect"). -/
inductive Requester where
  | core (n c : Nat)
  | master (code func : Nat)
  deriving DecidableEq, Repr

/-- A packet of the fabric (R494, R495): the fields of its two header words (z holds the bits 29:28 that must be zero), its
payload, and the 4-bit tags of its payload words on an admitted link (R493). -/
structure Pkt where
  typ     : Nat
  vc      : Nat
  dst     : Nat
  src     : Nat
  ttl     : Nat
  dl      : Nat
  z       : Nat
  reqid   : Nat
  arg     : Nat
  addr    : Nat
  payload : List Byte
  tags    : List Nat
  deriving DecidableEq, Repr

/-- The ring label of a cartridge (R472): the device it belongs to by SYS.SERIAL, the last RELSEQ written, and COMPLETE. -/
structure CartLabel where
  serial   : Word
  relseq   : Nat
  complete : Bool
  deriving DecidableEq, Repr

/-- An entry on the ring of a cartridge (R473): its SEQ, its byte offset, and its bytes. -/
structure RingEnt where
  seq   : Nat
  off   : Nat
  bytes : List Byte
  deriving DecidableEq, Repr

/-- A journal cartridge, as the device finds it in a slot (R472, R475, R476): its serial number, the hash of the root its
certificate chain ends at, whether its certificates and the signature over the challenge verify, whether its model
qualifies, the bytes written to it, whether its spare blocks are exhausted, its label, the entries on its ring, and the
offset at which the ring goes on. -/
structure Cart where
  serial   : Nat
  root     : List Byte
  signs    : Bool
  model    : Bool
  written  : Nat
  spareOut : Bool
  label    : Option CartLabel
  ents     : List RingEnt
  wpos     : Nat
  deriving DecidableEq, Repr

/-- An event on its way to the event coalescer (R529-R532): subject class and index, event code, AUX and DETAIL. -/
structure DevEvent where
  sc     : Nat
  ix     : Nat
  ev     : Nat
  aux    : Nat
  detail : Nat
  deriving DecidableEq, Repr

/-- The fields of a header lie in their ranges. -/
def Hdr.wf (h : Hdr) : Bool :=
  decide (h.core < 112) && decide (h.ctx < 2) && decide (h.pred < 8) &&
    (match h.wide with
     | none => true
     | some p => decide (p < 1048576))

/-- The fields of a memory operand lie in their ranges. -/
def MemOp.wf (m : MemOp) : Bool :=
  decide (m.cb < 16) && decide (m.am < 4) && decide (m.payload < 256)

/-- The fields of a packet lie in their ranges; PLEN is the length of the payload. -/
def Pkt.wf (p : Pkt) : Bool :=
  decide (p.typ < 64) && decide (p.vc < 4) && decide (p.dst < 1024) && decide (p.src < 1024) && decide (p.ttl < 32) &&
    decide (p.dl < 2) && decide (p.z < 4) && decide (p.reqid < 65536) && decide (p.arg < 65536) &&
    decide (p.addr < 2 ^ 48) && decide (p.payload.length < 4096) && p.tags.all (fun t => decide (t < 16))

/-- A requester exists: one of the 112 cores and its two contexts, or one of the eleven masters of R355 with a PCIe function. -/
def Requester.wf : Requester → Bool
  | .core n c => decide (n < 112) && decide (c < 2)
  | .master k f => decide (k < 11) && decide (f < 16)

end Sys2Proof
end

