-- ==== Sys2Proof/Config.lean ====
section
/-! DEFINITION. Config: the values the spec leaves open. Each is a constant without a body: nothing can evaluate it or
prove a value of it, so a statement about it holds whatever it is. -/

namespace Sys2Proof.Config

open Sys2Proof

/-- The choices the spec leaves UNPREDICTABLE or to the device: the n-th free number drawn (R2, R171). -/
opaque freeNat : Nat → Nat

/-- Which of the values a consumer below its producer's distance class may see it does see (R171): the choice for operand k
of the instruction that issues when the counter of free values stands at n. -/
opaque operandChoice : Nat → Nat → Nat

/-- The row of its pseudo-channel in which line i of a pseudo-channel lies (R390: no row size is given). -/
opaque rowOf : Nat → Nat

/-! ## Cryptography: the spec names the standards and gives no value -/

/-- The bytes an operation of the key engine computes: the command code, VAR, the key type, the key, the second key and the
input (R453-R458). -/
opaque keyBytes : Nat → Nat → Nat → List Byte → List Byte → List Byte → List Byte

/-- Whether a check of the key engine passes (a MAC, a signature, a well-formed point), on the same operands. -/
opaque keyCheck : Nat → Nat → Nat → List Byte → List Byte → List Byte → Bool

/-- Byte i of the DRBG output numbered n (R459). -/
opaque drbg : Nat → Nat → Byte

/-- One block of the cipher of a key type, encrypted and decrypted. -/
opaque blockEnc : Nat → List Byte → List Byte → List Byte
opaque blockDec : Nat → List Byte → List Byte → List Byte

/-- AES-256-GCM under a key, nonce and additional data (R466): the ciphertext followed by the 16-byte tag, and the plaintext
when the tag verifies. -/
opaque gcmSeal : List Byte → List Byte → List Byte → List Byte → List Byte
opaque gcmOpen : List Byte → List Byte → List Byte → List Byte → Option (List Byte)

/-- The key that the device key gives for a label and serial number (R460). -/
opaque derive : List Byte → Nat → Word → List Byte

/-- The ten check symbols of the code over GF(2^8) that covers the 64 stored bytes of a line and bytes 0-5 of its sidecar; its field
polynomial and roots are the device's own (R386). -/
opaque rsCheck : List Byte → List Byte

/-- AES-XTS over one data unit of 64 bytes with a tweak, under the key pair that the device key gives (R104): encrypted and decrypted. -/
opaque xtsEnc : List Byte → Nat → List Byte → List Byte
opaque xtsDec : List Byte → Nat → List Byte → List Byte

/-- The page of the system area in which IMG stages a control-store section (R324, R570). -/
opaque stagePage : Nat

/-- SHA-384 and SHA-256 (R558, R557). -/
opaque sha384 : List Byte → List Byte
opaque sha256 : List Byte → List Byte

/-- A certificate chain is accepted for a root hash (R560). -/
opaque chainOk : List Byte → List Byte → Bool

/-- An ECDSA P-384 signature over the given bytes verifies under the leaf of a chain (R560). -/
opaque sigOk : List Byte → List Byte → List Byte → Bool

end Sys2Proof.Config
end

