-- ==== Sys2Proof/Machine/Bits.lean ====
section
/-! DEFINITION. Bit fields, sign extension and two's complement, on natural numbers and on words. -/

namespace Sys2Proof.Machine

/-- Bits hi..lo of x (R35's helper of the same name). -/
def bits (x hi lo : Nat) : Nat := (x >>> lo) % 2 ^ (hi - lo + 1)

/-- Bit i of x. -/
def bit (x i : Nat) : Bool := x.testBit i

/-- 1 for true, 0 for false. -/
def b2n (b : Bool) : Nat := if b then 1 else 0

/-- x with bits hi..lo replaced by the low bits of v. -/
def setBits (x hi lo v : Nat) : Nat :=
  x - (bits x hi lo) * 2 ^ lo + (v % 2 ^ (hi - lo + 1)) * 2 ^ lo

/-- Bits hi..lo of a word. -/
def fld (w : Word) (hi lo : Nat) : Nat := bits w.toNat hi lo

/-- Bit i of a word. -/
def flag (w : Word) (i : Nat) : Bool := w.getLsbD i

/-- A word with bits hi..lo replaced. -/
def setFld (w : Word) (hi lo v : Nat) : Word := BitVec.ofNat 64 (setBits w.toNat hi lo v)

/-- A word with bit i replaced. -/
def setFlag (w : Word) (i : Nat) (b : Bool) : Word := setFld w i i (b2n b)

/-- A word from a number (R176: wrapping modulo 2^64). -/
def word (n : Nat) : Word := BitVec.ofNat 64 n

/-- A word from an integer, wrapping modulo 2^64 (wrap of "Scalar instruction reference"). -/
def wrap (i : Int) : Word := BitVec.ofInt 64 i

/-- x holds an n-bit two's-complement value in its low n bits (R147). -/
def signExtend (x n : Nat) : Int :=
  let y := x % 2 ^ n
  if 2 ^ (n - 1) ≤ y then (y : Int) - 2 ^ n else y

/-- The word taken as a signed value. -/
def signed (w : Word) : Int := signExtend w.toNat 64

/-- An n-bit field that holds the integer i. -/
def toField (i : Int) (n : Nat) : Nat := (i % (2 ^ n : Int)).toNat

/-- Byte i (from the least significant) of the number x. -/
def byteOf (x i : Nat) : Nat := (x >>> (8 * i)) % 256

/-- The number whose bytes, least significant first, are listed (R184: memory is little-endian). -/
def ofBytes : List Nat → Nat
  | [] => 0
  | b :: bs => b % 256 + 256 * ofBytes bs

/-- The n low bytes of x, least significant first. -/
def toBytes (x : Nat) : Nat → List Nat
  | 0 => []
  | n + 1 => x % 256 :: toBytes (x / 256) n

/-- x raised to the next multiple of m. -/
def roundUp (x m : Nat) : Nat := if m = 0 then x else ((x + m - 1) / m) * m

/-- Number of one bits among the low n bits of x. -/
def popCount (x : Nat) : Nat → Nat
  | 0 => 0
  | n + 1 => b2n (x.testBit n) + popCount x n

/-- Number of low n bits above the highest one bit of x (n when there is none). -/
def clz (x : Nat) : Nat → Nat
  | 0 => 0
  | n + 1 => if x.testBit n then 0 else 1 + clz x n

/-- The lowest index at or above i, of the k that follow, at which x has a one bit, counted from i; k when none. -/
def ctzFrom (x i : Nat) : Nat → Nat
  | 0 => 0
  | k + 1 => if x.testBit i then 0 else 1 + ctzFrom x (i + 1) k

/-- Saturating addition at m. -/
def satAdd (a b m : Nat) : Nat := if a + b ≤ m then a + b else m

end Sys2Proof.Machine
end

