-- ==== Sys2Proof/Machine/Regs.lean ====
section
/-! DEFINITION. The register map: one constructor per memory-mapped register of the chapters, its fields with their
types, reset values, apply classes and allowed values (R5-R12), and the decoding of an offset in a block. -/

namespace Sys2Proof.Machine

open Sys2Proof

/-- The memory-mapped registers. An index names the element of an array, the unit behind a select register, or the
requester for a select register, whose latched selection is separate for every requester ("Register blocks"). -/
inductive Reg where
  /-- SYS.XQCFG (R89) -/
  | xqcfg (i : Nat)
  /-- SYS.XQENTRY (R89) -/
  | xqentry (i : Nat)
  /-- SYS.XQSTAT (R89) -/
  | xqstat (i : Nat)
  /-- SYS.XQCTX (R89) -/
  | xqctx (i : Nat)
  /-- INTC.CFG (R270) -/
  | intcCfg
  /-- INTC.NOW (R270) -/
  | intcNow
  /-- INTC.DOORBELL (R270) -/
  | intcDoorbell
  /-- INTC.TMR (R270) -/
  | intcTmr (i : Nat)
  /-- INTC.TGT (R270) -/
  | intcTgt (i : Nat)
  /-- INTC.SRC (R270) -/
  | intcSrc (i : Nat)
  /-- MCS.SRC (R326) -/
  | mcsSrc
  /-- MCS.LOADREQ (R326) -/
  | mcsLoadreq
  /-- MCS.STAT (R326) -/
  | mcsStat
  /-- MCS.CORE (R326) -/
  | mcsCore (i : Nat)
  /-- RDG.EPOCH (R369) -/
  | rdgEpoch
  /-- RDG.EPOCHNUM (R369) -/
  | rdgEpochnum
  /-- RDG.LASTDENY (R371) -/
  | rdgLastdeny
  /-- RDG.ENT.BASE (R362) -/
  | rdgBase (i : Nat)
  /-- RDG.ENT.LIMIT (R362) -/
  | rdgLimit (i : Nat)
  /-- RDG.ENT.ATTR (R362) -/
  | rdgAttr (i : Nat)
  /-- DBG.DENYLOG (R376) -/
  | dbgDenylog
  /-- DBG.BRK (R376) -/
  | dbgBrk (i : Nat)
  /-- DBG.CORECTL (R374) -/
  | dbgCorectl (i : Nat)
  /-- MEM.PCSEL (R398) -/
  | memPcsel (who : Requester)
  /-- MEM.CAP (R398) -/
  | memCap
  /-- MEM.PCCTL (R398) -/
  | memPcctl (i : Nat)
  /-- MEM.PCSTAT (R398) -/
  | memPcstat (i : Nat)
  /-- MEM.ERRCNT (R398) -/
  | memErrcnt (i : Nat)
  /-- PLE.CTL (R403) -/
  | pleCtl
  /-- PLE.GIVE (R403) -/
  | pleGive
  /-- PLE.STAT (R403) -/
  | pleStat
  /-- PLE.OVF (R403) -/
  | pleOvf
  /-- PLE.TAKE (R403) -/
  | pleTake (i : Nat)
  /-- PLE.POOL (R403) -/
  | plePool (i : Nat)
  /-- ING.LANESEL (R440) -/
  | ingLanesel (who : Requester)
  /-- ING.CFG (R440) -/
  | ingCfg
  /-- ING.BANK (R440) -/
  | ingBank
  /-- ING.IMEM (R440) -/
  | ingImem
  /-- ING.IMEMVA (R440) -/
  | ingImemva
  /-- ING.FBASE (R440) -/
  | ingFbase (i : Nat)
  /-- ING.FLOAD (R440) -/
  | ingFload
  /-- ING.TXCTL (R440) -/
  | ingTxctl (i : Nat)
  /-- ING.LCFG (R440) -/
  | ingLcfg (i : Nat)
  /-- ING.LRING (R440) -/
  | ingLring (i : Nat)
  /-- ING.LPTR (R440) -/
  | ingLptr (i : Nat)
  /-- ING.LSTAT (R440) -/
  | ingLstat (i : Nat)
  /-- ING.CLASS (R440) -/
  | ingClass (i : Nat)
  /-- ING.CSTAT (R440) -/
  | ingCstat (i : Nat)
  /-- ING.RULE.W0 (R423) -/
  | ingRuleW0 (i : Nat)
  /-- ING.RULE.VALA (R423) -/
  | ingRuleVala (i : Nat)
  /-- ING.RULE.MASKA (R423) -/
  | ingRuleMaska (i : Nat)
  /-- ING.RULE.VALB (R423) -/
  | ingRuleValb (i : Nat)
  /-- ING.RULE.MASKB (R423) -/
  | ingRuleMaskb (i : Nat)
  /-- ING.RULE.DESC (R423) -/
  | ingRuleDesc (i : Nat)
  /-- HOST.FN (R441) -/
  | hostFn (i : Nat)
  /-- KEY.ENGSEL (R463) -/
  | keyEngsel (who : Requester)
  /-- KEY.CFG (R463) -/
  | keyCfg
  /-- KEY.STORE (R463) -/
  | keyStore
  /-- KEY.DRBG (R463) -/
  | keyDrbg
  /-- KEY.QSTAT (R463) -/
  | keyQstat
  /-- KEY.UCTL (R463) -/
  | keyUctl (i : Nat)
  /-- KEY.USTAT (R463) -/
  | keyUstat (i : Nat)
  /-- JC.CFG (R485) -/
  | jcCfg
  /-- JC.SEQ (R485) -/
  | jcSeq
  /-- JC.DUR (R485) -/
  | jcDur
  /-- JC.REL (R485) -/
  | jcRel
  /-- JC.STAT (R485) -/
  | jcStat
  /-- JC.FREE (R485) -/
  | jcFree
  /-- JC.SLOT (R485) -/
  | jcSlot (i : Nat)
  /-- JC.WEAR (R485) -/
  | jcWear (i : Nat)
  /-- JC.RDSEQ (R485) -/
  | jcRdseq
  /-- JC.RDBUF (R485) -/
  | jcRdbuf
  /-- JC.RDCTL (R485) -/
  | jcRdctl
  /-- EGR.CRING (R485) -/
  | egrCring (i : Nat)
  /-- EGR.CPTR (R485) -/
  | egrCptr (i : Nat)
  /-- EGR.CSTAT (R485) -/
  | egrCstat (i : Nat)
  /-- CDL.LINKSEL (R527) -/
  | cdlLinksel (who : Requester)
  /-- CDL.EST (R527) -/
  | cdlEst
  /-- CDL.CFG (R527) -/
  | cdlCfg
  /-- CDL.RKEYS (R527) -/
  | cdlRkeys (i : Nat)
  /-- CDL.RPASS (R527) -/
  | cdlRpass
  /-- CDL.RPDESC (R527) -/
  | cdlRpdesc
  /-- CDL.CLAIM (R527) -/
  | cdlClaim
  /-- CDL.CLAIMSTAT (R527) -/
  | cdlClaimstat
  /-- CDL.PSTAT (R527) -/
  | cdlPstat
  /-- CDL.LCTL (R527) -/
  | cdlLctl (i : Nat)
  /-- CDL.LSTAT (R527) -/
  | cdlLstat (i : Nat)
  /-- CDL.LCNT (R527) -/
  | cdlLcnt (i : Nat)
  /-- CDL.ROUTE (R527) -/
  | cdlRoute (i : Nat)
  /-- AGE.CFG (R547) -/
  | ageCfg
  /-- AGE.DOM (R547) -/
  | ageDom (i : Nat)
  /-- DEP.CFG (R548) -/
  | depCfg
  /-- DEP.STAT (R548) -/
  | depStat
  /-- DEP.RETIRE (R548) -/
  | depRetire
  /-- DEP.PAIR (R548) -/
  | depPair (i : Nat)
  /-- DEP.REC (R548) -/
  | depRec (i : Nat)
  /-- DEP.REC.FIRST (R548) -/
  | depFirst (i : Nat)
  /-- DEP.REC.LAST (R548) -/
  | depLast (i : Nat)
  /-- DEP.REC.DETAIL (R548) -/
  | depDetail (i : Nat)
  /-- MON.MONSEL (R554) -/
  | monSel (who : Requester)
  /-- MON.CTL (R554) -/
  | monCtl (i : Nat)
  /-- MON.RANGE (R554) -/
  | monRange (i : Nat)
  /-- MON.LO (R554) -/
  | monLo (i : Nat)
  /-- MON.ALARM (R554) -/
  | monAlarm (i : Nat)
  /-- MON.MIN (R554) -/
  | monMin (i : Nat)
  /-- MON.MAX (R554) -/
  | monMax (i : Nat)
  /-- MON.COUNT (R554) -/
  | monCount (i : Nat)
  /-- MON.BIN (R554) -/
  | monBin (u i : Nat)
  /-- SYS.ID (R582) -/
  | sysId
  /-- SYS.SERIAL (R582) -/
  | sysSerial
  /-- SYS.MODE (R582) -/
  | sysMode
  /-- SYS.TAMPER (R582) -/
  | sysTamper
  /-- SYS.LDREC (R582) -/
  | sysLdrec
  /-- SYS.FUSE (R582) -/
  | sysFuse
  /-- SYS.LOCK (R582) -/
  | sysLock
  /-- SYS.SVNCOMMIT (R582) -/
  | sysSvncommit
  /-- IMG.STAGE (R583) -/
  | imgStage
  /-- IMG.CHECK (R583) -/
  | imgCheck
  /-- IMG.STAT (R583) -/
  | imgStat
  /-- IMG.ACTIVE (R583) -/
  | imgActive
  /-- IMG.ACTSVN (R583) -/
  | imgActsvn
  /-- IMG.SLPAIR (R583) -/
  | imgSlpair
  /-- IMG.SLWGRP (R583) -/
  | imgSlwgrp
  /-- IMG.SLLINK (R583) -/
  | imgSllink
  /-- IMG.SLDOM (R583) -/
  | imgSldom (i : Nat)
  /-- IMG.RCTL (R583) -/
  | imgRctl
  /-- PWR.LIMIT (R602) -/
  | pwrLimit
  /-- PWR.PKG (R602) -/
  | pwrPkg
  /-- PWR.RESET (R602) -/
  | pwrReset
  /-- PWR.RSTAT (R602) -/
  | pwrRstat
  /-- PWR.DOM (R602) -/
  | pwrDom (i : Nat)
  /-- PWR.DVFS (R602) -/
  | pwrDvfs (i : Nat)
  /-- CLK.STAT (R603) -/
  | clkStat
  /-- MGT.SMB (R624) -/
  | mgtSmb
  /-- MGT.UART (R624) -/
  | mgtUart
  /-- MGT.UDATA (R624) -/
  | mgtUdata
  /-- MGT.MCTL (R624) -/
  | mgtMctl
  /-- MGT.FWIN (R624) -/
  | mgtFwin
  /-- MGT.FLCMD (R624) -/
  | mgtFlcmd
  /-- MGT.RXBUF (R624) -/
  | mgtRxbuf (i : Nat)
  /-- MGT.TXBUF (R624) -/
  | mgtTxbuf (i : Nat)
  /-- MGT.FLBUF (R624) -/
  | mgtFlbuf (i : Nat)
  deriving DecidableEq, Repr

/-- The field types of R5. -/
inductive FType where
  | rw
  | ro
  | wo
  | w1c
  deriving DecidableEq, Repr

/-- The apply classes of R9 and R12: L at once, Q only while the block or instance is idle, S at a stated boundary. -/
inductive Apply where
  | none
  | l
  | q
  | s
  deriving DecidableEq, Repr

/-- The values a field may be written with: every value, a range, or a list. -/
inductive Allowed where
  | any
  | range (lo hi : Nat)
  | among (vs : List Nat)
  deriving DecidableEq, Repr

/-- One field of a register. -/
structure Field where
  hi : Nat
  lo : Nat
  ty : FType
  reset : Nat
  apply : Apply
  allow : Allowed
  kept : Bool
  deriving DecidableEq, Repr

/-- The bit range of a field. -/
structure Fd where
  hi : Nat
  lo : Nat
  deriving DecidableEq, Repr

/-- The value is one the field may be written with (R10). -/
def Allowed.ok (a : Allowed) (v : Nat) : Bool :=
  match a with
  | .any => true
  | .range lo hi => decide (lo ≤ v) && decide (v ≤ hi)
  | .among vs => vs.contains v

/-- SYS.XQCFG.TIMEOUT -/
def xqcfg_TIMEOUT : Fd := ⟨43, 32⟩
/-- SYS.XQCFG.SERVERS -/
def xqcfg_SERVERS : Fd := ⟨31, 8⟩
/-- SYS.XQCFG.DEPTH -/
def xqcfg_DEPTH : Fd := ⟨7, 4⟩
/-- SYS.XQCFG.SUP -/
def xqcfg_SUP : Fd := ⟨1, 1⟩
/-- SYS.XQCFG.EN -/
def xqcfg_EN : Fd := ⟨0, 0⟩
/-- SYS.XQENTRY.ADDR -/
def xqentry_ADDR : Fd := ⟨63, 6⟩
/-- SYS.XQSTAT.LATE -/
def xqstat_LATE : Fd := ⟨47, 32⟩
/-- SYS.XQSTAT.TIMEOUTS -/
def xqstat_TIMEOUTS : Fd := ⟨31, 16⟩
/-- SYS.XQSTAT.OCC -/
def xqstat_OCC : Fd := ⟨8, 0⟩
/-- SYS.XQCTX.ADDR -/
def xqctx_ADDR : Fd := ⟨63, 7⟩
/-- INTC.CFG.HOLD -/
def intcCfg_HOLD : Fd := ⟨19, 0⟩
/-- INTC.NOW.NS -/
def intcNow_NS : Fd := ⟨63, 0⟩
/-- INTC.DOORBELL.BELL -/
def intcDoorbell_BELL : Fd := ⟨4, 0⟩
/-- INTC.TMR.CMP -/
def intcTmr_CMP : Fd := ⟨63, 0⟩
/-- INTC.TGT.RUNPRI -/
def intcTgt_RUNPRI : Fd := ⟨23, 20⟩
/-- INTC.TGT.EOI -/
def intcTgt_EOI : Fd := ⟨16, 16⟩
/-- INTC.TGT.WORLD -/
def intcTgt_WORLD : Fd := ⟨9, 9⟩
/-- INTC.TGT.IDLE -/
def intcTgt_IDLE : Fd := ⟨8, 8⟩
/-- INTC.TGT.THRESH -/
def intcTgt_THRESH : Fd := ⟨3, 0⟩
/-- INTC.SRC.CNT -/
def intcSrc_CNT : Fd := ⟨63, 48⟩
/-- INTC.SRC.CNTSUB -/
def intcSrc_CNTSUB : Fd := ⟨47, 32⟩
/-- INTC.SRC.DEFER -/
def intcSrc_DEFER : Fd := ⟨25, 25⟩
/-- INTC.SRC.ACT -/
def intcSrc_ACT : Fd := ⟨24, 24⟩
/-- INTC.SRC.PEND -/
def intcSrc_PEND : Fd := ⟨23, 23⟩
/-- INTC.SRC.OWNER -/
def intcSrc_OWNER : Fd := ⟨22, 22⟩
/-- INTC.SRC.TARGET -/
def intcSrc_TARGET : Fd := ⟨15, 8⟩
/-- INTC.SRC.LEVEL -/
def intcSrc_LEVEL : Fd := ⟨7, 4⟩
/-- INTC.SRC.EN -/
def intcSrc_EN : Fd := ⟨0, 0⟩
/-- MCS.SRC.ADDR -/
def mcsSrc_ADDR : Fd := ⟨43, 12⟩
/-- MCS.LOADREQ.CORE -/
def mcsLoadreq_CORE : Fd := ⟨6, 0⟩
/-- MCS.STAT.LASTCORE -/
def mcsStat_LASTCORE : Fd := ⟨15, 8⟩
/-- MCS.STAT.ERR -/
def mcsStat_ERR : Fd := ⟨3, 1⟩
/-- MCS.STAT.BUSY -/
def mcsStat_BUSY : Fd := ⟨0, 0⟩
/-- MCS.CORE.DUAL -/
def mcsCore_DUAL : Fd := ⟨49, 49⟩
/-- MCS.CORE.QUI -/
def mcsCore_QUI : Fd := ⟨48, 48⟩
/-- MCS.CORE.FIXCNT -/
def mcsCore_FIXCNT : Fd := ⟨47, 32⟩
/-- MCS.CORE.VERSION -/
def mcsCore_VERSION : Fd := ⟨31, 0⟩
/-- RDG.EPOCH.QUEUED -/
def rdgEpoch_QUEUED : Fd := ⟨2, 2⟩
/-- RDG.EPOCH.BUSY -/
def rdgEpoch_BUSY : Fd := ⟨1, 1⟩
/-- RDG.EPOCH.ADV -/
def rdgEpoch_ADV : Fd := ⟨0, 0⟩
/-- RDG.EPOCHNUM.REQ -/
def rdgEpochnum_REQ : Fd := ⟨63, 32⟩
/-- RDG.EPOCHNUM.CUR -/
def rdgEpochnum_CUR : Fd := ⟨31, 0⟩
/-- RDG.LASTDENY.W -/
def rdgLastdeny_W : Fd := ⟨63, 63⟩
/-- RDG.LASTDENY.MASTER -/
def rdgLastdeny_MASTER : Fd := ⟨59, 56⟩
/-- RDG.LASTDENY.FUNC -/
def rdgLastdeny_FUNC : Fd := ⟨55, 52⟩
/-- RDG.LASTDENY.ADDR -/
def rdgLastdeny_ADDR : Fd := ⟨43, 0⟩
/-- RDG.ENT.BASE.ADDR -/
def rdgBase_ADDR : Fd := ⟨43, 6⟩
/-- RDG.ENT.LIMIT.ADDR -/
def rdgLimit_ADDR : Fd := ⟨44, 6⟩
/-- RDG.ENT.ATTR.FUNC -/
def rdgAttr_FUNC : Fd := ⟨47, 32⟩
/-- RDG.ENT.ATTR.MASK -/
def rdgAttr_MASK : Fd := ⟨26, 16⟩
/-- RDG.ENT.ATTR.WORLD -/
def rdgAttr_WORLD : Fd := ⟨5, 5⟩
/-- RDG.ENT.ATTR.SE -/
def rdgAttr_SE : Fd := ⟨4, 4⟩
/-- RDG.ENT.ATTR.LOCK -/
def rdgAttr_LOCK : Fd := ⟨3, 3⟩
/-- RDG.ENT.ATTR.WR -/
def rdgAttr_WR : Fd := ⟨2, 2⟩
/-- RDG.ENT.ATTR.RD -/
def rdgAttr_RD : Fd := ⟨1, 1⟩
/-- RDG.ENT.ATTR.V -/
def rdgAttr_V : Fd := ⟨0, 0⟩
/-- DBG.DENYLOG.COUNT -/
def dbgDenylog_COUNT : Fd := ⟨63, 48⟩
/-- DBG.DENYLOG.W -/
def dbgDenylog_W : Fd := ⟨47, 47⟩
/-- DBG.DENYLOG.ADDR -/
def dbgDenylog_ADDR : Fd := ⟨43, 0⟩
/-- DBG.BRK.EN -/
def dbgBrk_EN : Fd := ⟨63, 63⟩
/-- DBG.BRK.KIND -/
def dbgBrk_KIND : Fd := ⟨62, 61⟩
/-- DBG.BRK.CORE -/
def dbgBrk_CORE : Fd := ⟨60, 54⟩
/-- DBG.BRK.ADDR -/
def dbgBrk_ADDR : Fd := ⟨47, 2⟩
/-- DBG.CORECTL.PEND -/
def dbgCorectl_PEND : Fd := ⟨3, 3⟩
/-- DBG.CORECTL.HALTED -/
def dbgCorectl_HALTED : Fd := ⟨2, 2⟩
/-- DBG.CORECTL.STEP -/
def dbgCorectl_STEP : Fd := ⟨1, 1⟩
/-- DBG.CORECTL.HALT -/
def dbgCorectl_HALT : Fd := ⟨0, 0⟩
/-- MEM.PCSEL.PC -/
def memPcsel_PC : Fd := ⟨6, 0⟩
/-- MEM.CAP.SPARES -/
def memCap_SPARES : Fd := ⟨48, 32⟩
/-- MEM.CAP.FENCED -/
def memCap_FENCED : Fd := ⟨23, 20⟩
/-- MEM.CAP.REGFREE -/
def memCap_REGFREE : Fd := ⟨19, 16⟩
/-- MEM.CAP.INSVC -/
def memCap_INSVC : Fd := ⟨15, 8⟩
/-- MEM.CAP.RETIRED -/
def memCap_RETIRED : Fd := ⟨2, 0⟩
/-- MEM.PCCTL.RETIRE -/
def memPcctl_RETIRE : Fd := ⟨16, 16⟩
/-- MEM.PCCTL.SCRUBH -/
def memPcctl_SCRUBH : Fd := ⟨15, 8⟩
/-- MEM.PCCTL.CALNOW -/
def memPcctl_CALNOW : Fd := ⟨3, 3⟩
/-- MEM.PCCTL.CALPER -/
def memPcctl_CALPER : Fd := ⟨2, 0⟩
/-- MEM.PCSTAT.CALPM -/
def memPcstat_CALPM : Fd := ⟨39, 32⟩
/-- MEM.PCSTAT.COPY -/
def memPcstat_COPY : Fd := ⟨31, 16⟩
/-- MEM.PCSTAT.RETDONE -/
def memPcstat_RETDONE : Fd := ⟨13, 13⟩
/-- MEM.PCSTAT.CALFAIL -/
def memPcstat_CALFAIL : Fd := ⟨12, 12⟩
/-- MEM.PCSTAT.SPAREOUT -/
def memPcstat_SPAREOUT : Fd := ⟨11, 11⟩
/-- MEM.PCSTAT.SPARED -/
def memPcstat_SPARED : Fd := ⟨10, 10⟩
/-- MEM.PCSTAT.UE -/
def memPcstat_UE : Fd := ⟨9, 9⟩
/-- MEM.PCSTAT.CE -/
def memPcstat_CE : Fd := ⟨8, 8⟩
/-- MEM.PCSTAT.STATE -/
def memPcstat_STATE : Fd := ⟨2, 0⟩
/-- MEM.ERRCNT.SPARES -/
def memErrcnt_SPARES : Fd := ⟨57, 48⟩
/-- MEM.ERRCNT.UE -/
def memErrcnt_UE : Fd := ⟨47, 32⟩
/-- MEM.ERRCNT.CE -/
def memErrcnt_CE : Fd := ⟨31, 0⟩
/-- PLE.CTL.RATE -/
def pleCtl_RATE : Fd := ⟨31, 16⟩
/-- PLE.CTL.EN -/
def pleCtl_EN : Fd := ⟨0, 0⟩
/-- PLE.GIVE.FRAME -/
def pleGive_FRAME : Fd := ⟨22, 0⟩
/-- PLE.STAT.REJECT -/
def pleStat_REJECT : Fd := ⟨63, 48⟩
/-- PLE.STAT.ABANDON -/
def pleStat_ABANDON : Fd := ⟨47, 32⟩
/-- PLE.STAT.MOVES -/
def pleStat_MOVES : Fd := ⟨31, 0⟩
/-- PLE.OVF.COUNT -/
def pleOvf_COUNT : Fd := ⟨38, 32⟩
/-- PLE.OVF.FRAME -/
def pleOvf_FRAME : Fd := ⟨22, 0⟩
/-- PLE.TAKE.FRAME -/
def pleTake_FRAME : Fd := ⟨22, 0⟩
/-- PLE.POOL.LOW -/
def plePool_LOW : Fd := ⟨28, 16⟩
/-- PLE.POOL.COUNT -/
def plePool_COUNT : Fd := ⟨12, 0⟩
/-- ING.LANESEL.LANE -/
def ingLanesel_LANE : Fd := ⟨3, 0⟩
/-- ING.CFG.RETRY -/
def ingCfg_RETRY : Fd := ⟨17, 16⟩
/-- ING.CFG.WDOG -/
def ingCfg_WDOG : Fd := ⟨15, 0⟩
/-- ING.BANK.RBUSY -/
def ingBank_RBUSY : Fd := ⟨9, 9⟩
/-- ING.BANK.FBUSY -/
def ingBank_FBUSY : Fd := ⟨8, 8⟩
/-- ING.BANK.RACT -/
def ingBank_RACT : Fd := ⟨1, 1⟩
/-- ING.BANK.FACT -/
def ingBank_FACT : Fd := ⟨0, 0⟩
/-- ING.IMEM.BASE -/
def ingImem_BASE : Fd := ⟨43, 26⟩
/-- ING.IMEMVA.VA -/
def ingImemva_VA : Fd := ⟨47, 26⟩
/-- ING.FBASE.ADDR -/
def ingFbase_ADDR : Fd := ⟨43, 19⟩
/-- ING.FLOAD.FORMAT -/
def ingFload_FORMAT : Fd := ⟨7, 0⟩
/-- ING.TXCTL.USED -/
def ingTxctl_USED : Fd := ⟨24, 16⟩
/-- ING.TXCTL.STATE -/
def ingTxctl_STATE : Fd := ⟨9, 8⟩
/-- ING.TXCTL.ABORT -/
def ingTxctl_ABORT : Fd := ⟨1, 0⟩
/-- ING.LCFG.DEFFMT -/
def ingLcfg_DEFFMT : Fd := ⟨15, 8⟩
/-- ING.LCFG.FUNC -/
def ingLcfg_FUNC : Fd := ⟨7, 4⟩
/-- ING.LCFG.SRC -/
def ingLcfg_SRC : Fd := ⟨1, 1⟩
/-- ING.LCFG.EN -/
def ingLcfg_EN : Fd := ⟨0, 0⟩
/-- ING.LRING.SIZE -/
def ingLring_SIZE : Fd := ⟨63, 60⟩
/-- ING.LRING.BASE -/
def ingLring_BASE : Fd := ⟨43, 6⟩
/-- ING.LPTR.HEAD -/
def ingLptr_HEAD : Fd := ⟨27, 16⟩
/-- ING.LPTR.TAIL -/
def ingLptr_TAIL : Fd := ⟨11, 0⟩
/-- ING.LSTAT.ERR -/
def ingLstat_ERR : Fd := ⟨63, 48⟩
/-- ING.LSTAT.FRAMES -/
def ingLstat_FRAMES : Fd := ⟨31, 0⟩
/-- ING.CLASS.PAIRS -/
def ingClass_PAIRS : Fd := ⟨39, 16⟩
/-- ING.CLASS.WORLD -/
def ingClass_WORLD : Fd := ⟨12, 12⟩
/-- ING.CLASS.PRIO -/
def ingClass_PRIO : Fd := ⟨10, 8⟩
/-- ING.CLASS.EN -/
def ingClass_EN : Fd := ⟨0, 0⟩
/-- ING.CSTAT.DEADL -/
def ingCstat_DEADL : Fd := ⟨63, 48⟩
/-- ING.CSTAT.OCC -/
def ingCstat_OCC : Fd := ⟨12, 0⟩
/-- ING.RULE.W0.DEADLINE -/
def ingRuleW0_DEADLINE : Fd := ⟨31, 16⟩
/-- ING.RULE.W0.CLASS -/
def ingRuleW0_CLASS : Fd := ⟨13, 8⟩
/-- ING.RULE.W0.KB -/
def ingRuleW0_KB : Fd := ⟨6, 4⟩
/-- ING.RULE.W0.KA -/
def ingRuleW0_KA : Fd := ⟨3, 1⟩
/-- ING.RULE.W0.V -/
def ingRuleW0_V : Fd := ⟨0, 0⟩
/-- ING.RULE.VALA.VALA -/
def ingRuleVala_VALA : Fd := ⟨63, 0⟩
/-- ING.RULE.MASKA.MASKA -/
def ingRuleMaska_MASKA : Fd := ⟨63, 0⟩
/-- ING.RULE.VALB.VALB -/
def ingRuleValb_VALB : Fd := ⟨63, 0⟩
/-- ING.RULE.MASKB.MASKB -/
def ingRuleMaskb_MASKB : Fd := ⟨63, 0⟩
/-- ING.RULE.DESC.DESC -/
def ingRuleDesc_DESC : Fd := ⟨63, 7⟩
/-- HOST.FN.EN -/
def hostFn_EN : Fd := ⟨16, 16⟩
/-- HOST.FN.LANES -/
def hostFn_LANES : Fd := ⟨15, 0⟩
/-- KEY.ENGSEL.UNIT -/
def keyEngsel_UNIT : Fd := ⟨5, 0⟩
/-- KEY.CFG.LOW -/
def keyCfg_LOW : Fd := ⟨20, 0⟩
/-- KEY.STORE.FREE -/
def keyStore_FREE : Fd := ⟨20, 0⟩
/-- KEY.DRBG.RESEEDS -/
def keyDrbg_RESEEDS : Fd := ⟨63, 32⟩
/-- KEY.DRBG.HEALTHY -/
def keyDrbg_HEALTHY : Fd := ⟨2, 2⟩
/-- KEY.DRBG.SRC1 -/
def keyDrbg_SRC1 : Fd := ⟨1, 1⟩
/-- KEY.DRBG.SRC0 -/
def keyDrbg_SRC0 : Fd := ⟨0, 0⟩
/-- KEY.QSTAT.SEALED -/
def keyQstat_SEALED : Fd := ⟨24, 16⟩
/-- KEY.QSTAT.OPEN -/
def keyQstat_OPEN : Fd := ⟨8, 0⟩
/-- KEY.UCTL.KIND -/
def keyUctl_KIND : Fd := ⟨9, 8⟩
/-- KEY.UCTL.WORLD -/
def keyUctl_WORLD : Fd := ⟨1, 1⟩
/-- KEY.UCTL.EN -/
def keyUctl_EN : Fd := ⟨0, 0⟩
/-- KEY.USTAT.CMDS -/
def keyUstat_CMDS : Fd := ⟨63, 32⟩
/-- KEY.USTAT.STATE -/
def keyUstat_STATE : Fd := ⟨9, 8⟩
/-- KEY.USTAT.FAULTS -/
def keyUstat_FAULTS : Fd := ⟨7, 0⟩
/-- JC.CFG.WARNDAYS -/
def jcCfg_WARNDAYS : Fd := ⟨31, 16⟩
/-- JC.CFG.RESRATE -/
def jcCfg_RESRATE : Fd := ⟨15, 8⟩
/-- JC.SEQ.NEXT -/
def jcSeq_NEXT : Fd := ⟨63, 0⟩
/-- JC.DUR.DURSEQ -/
def jcDur_DURSEQ : Fd := ⟨63, 0⟩
/-- JC.REL.RELSEQ -/
def jcRel_RELSEQ : Fd := ⟨63, 0⟩
/-- JC.STAT.STAGED -/
def jcStat_STAGED : Fd := ⟨63, 32⟩
/-- JC.STAT.STALL -/
def jcStat_STALL : Fd := ⟨0, 0⟩
/-- JC.FREE.GIB -/
def jcFree_GIB : Fd := ⟨13, 0⟩
/-- JC.SLOT.PRESENT -/
def jcSlot_PRESENT : Fd := ⟨9, 9⟩
/-- JC.SLOT.RELEASE -/
def jcSlot_RELEASE : Fd := ⟨8, 8⟩
/-- JC.SLOT.REASON -/
def jcSlot_REASON : Fd := ⟨7, 4⟩
/-- JC.SLOT.STATE -/
def jcSlot_STATE : Fd := ⟨2, 0⟩
/-- JC.WEAR.EOLDAYS -/
def jcWear_EOLDAYS : Fd := ⟨63, 48⟩
/-- JC.WEAR.PCT -/
def jcWear_PCT : Fd := ⟨47, 40⟩
/-- JC.WEAR.WRITTEN -/
def jcWear_WRITTEN : Fd := ⟨39, 0⟩
/-- JC.RDSEQ.SEQ -/
def jcRdseq_SEQ : Fd := ⟨63, 0⟩
/-- JC.RDBUF.ADDR -/
def jcRdbuf_ADDR : Fd := ⟨43, 12⟩
/-- JC.RDCTL.COUNT -/
def jcRdctl_COUNT : Fd := ⟨47, 32⟩
/-- JC.RDCTL.KIB -/
def jcRdctl_KIB : Fd := ⟨31, 8⟩
/-- JC.RDCTL.RESULT -/
def jcRdctl_RESULT : Fd := ⟨7, 4⟩
/-- JC.RDCTL.BUSY -/
def jcRdctl_BUSY : Fd := ⟨1, 1⟩
/-- JC.RDCTL.GO -/
def jcRdctl_GO : Fd := ⟨0, 0⟩
/-- EGR.CRING.SIZE -/
def egrCring_SIZE : Fd := ⟨63, 60⟩
/-- EGR.CRING.BASE -/
def egrCring_BASE : Fd := ⟨43, 6⟩
/-- EGR.CPTR.HEAD -/
def egrCptr_HEAD : Fd := ⟨27, 16⟩
/-- EGR.CPTR.TAIL -/
def egrCptr_TAIL : Fd := ⟨11, 0⟩
/-- EGR.CSTAT.HELD -/
def egrCstat_HELD : Fd := ⟨47, 32⟩
/-- EGR.CSTAT.DONE -/
def egrCstat_DONE : Fd := ⟨31, 0⟩
/-- CDL.LINKSEL.LINK -/
def cdlLinksel_LINK : Fd := ⟨3, 0⟩
/-- CDL.EST.INC -/
def cdlEst_INC : Fd := ⟨63, 32⟩
/-- CDL.EST.SIZE -/
def cdlEst_SIZE : Fd := ⟨26, 16⟩
/-- CDL.EST.NODE -/
def cdlEst_NODE : Fd := ⟨9, 0⟩
/-- CDL.CFG.PLOTTTL -/
def cdlCfg_PLOTTTL : Fd := ⟨63, 48⟩
/-- CDL.CFG.RTMO -/
def cdlCfg_RTMO : Fd := ⟨47, 32⟩
/-- CDL.CFG.LOST -/
def cdlCfg_LOST : Fd := ⟨31, 24⟩
/-- CDL.RKEYS.KEYS -/
def cdlRkeys_KEYS : Fd := ⟨63, 0⟩
/-- CDL.RPASS.PAIRS -/
def cdlRpass_PAIRS : Fd := ⟨43, 20⟩
/-- CDL.RPASS.EN -/
def cdlRpass_EN : Fd := ⟨0, 0⟩
/-- CDL.RPDESC.ADDR -/
def cdlRpdesc_ADDR : Fd := ⟨63, 7⟩
/-- CDL.CLAIM.OP -/
def cdlClaim_OP : Fd := ⟨63, 62⟩
/-- CDL.CLAIM.PLOT -/
def cdlClaim_PLOT : Fd := ⟨26, 0⟩
/-- CDL.CLAIMSTAT.BUSY -/
def cdlClaimstat_BUSY : Fd := ⟨63, 63⟩
/-- CDL.CLAIMSTAT.RESULT -/
def cdlClaimstat_RESULT : Fd := ⟨55, 52⟩
/-- CDL.CLAIMSTAT.NODE -/
def cdlClaimstat_NODE : Fd := ⟨51, 42⟩
/-- CDL.CLAIMSTAT.PLOT -/
def cdlClaimstat_PLOT : Fd := ⟨26, 0⟩
/-- CDL.PSTAT.NOTOWNER -/
def cdlPstat_NOTOWNER : Fd := ⟨63, 32⟩
/-- CDL.PSTAT.MISSES -/
def cdlPstat_MISSES : Fd := ⟨31, 0⟩
/-- CDL.LCTL.LANES -/
def cdlLctl_LANES : Fd := ⟨7, 4⟩
/-- CDL.LCTL.DIM -/
def cdlLctl_DIM : Fd := ⟨3, 2⟩
/-- CDL.LCTL.DATELINE -/
def cdlLctl_DATELINE : Fd := ⟨1, 1⟩
/-- CDL.LCTL.EN -/
def cdlLctl_EN : Fd := ⟨0, 0⟩
/-- CDL.LSTAT.PEER -/
def cdlLstat_PEER : Fd := ⟨63, 54⟩
/-- CDL.LSTAT.REASON -/
def cdlLstat_REASON : Fd := ⟨53, 50⟩
/-- CDL.LSTAT.CRCRETRY -/
def cdlLstat_CRCRETRY : Fd := ⟨39, 8⟩
/-- CDL.LSTAT.WIDTH -/
def cdlLstat_WIDTH : Fd := ⟨6, 4⟩
/-- CDL.LSTAT.STATE -/
def cdlLstat_STATE : Fd := ⟨2, 0⟩
/-- CDL.LCNT.AUTHFAIL -/
def cdlLcnt_AUTHFAIL : Fd := ⟨7, 0⟩
/-- CDL.ROUTE.ALTV -/
def cdlRoute_ALTV : Fd := ⟨20, 20⟩
/-- CDL.ROUTE.ALT -/
def cdlRoute_ALT : Fd := ⟨19, 16⟩
/-- CDL.ROUTE.LINKS -/
def cdlRoute_LINKS : Fd := ⟨15, 4⟩
/-- CDL.ROUTE.V -/
def cdlRoute_V : Fd := ⟨0, 0⟩
/-- AGE.CFG.PERIOD -/
def ageCfg_PERIOD : Fd := ⟨15, 0⟩
/-- AGE.DOM.STATE -/
def ageDom_STATE : Fd := ⟨49, 48⟩
/-- AGE.DOM.DAYSLEFT -/
def ageDom_DAYSLEFT : Fd := ⟨47, 32⟩
/-- AGE.DOM.SLACK -/
def ageDom_SLACK : Fd := ⟨31, 16⟩
/-- AGE.DOM.CAP -/
def ageDom_CAP : Fd := ⟨15, 8⟩
/-- AGE.DOM.OFFSET -/
def ageDom_OFFSET : Fd := ⟨7, 0⟩
/-- DEP.CFG.MMWIN -/
def depCfg_MMWIN : Fd := ⟨27, 20⟩
/-- DEP.CFG.HOLD -/
def depCfg_HOLD : Fd := ⟨19, 0⟩
/-- DEP.STAT.LOST -/
def depStat_LOST : Fd := ⟨63, 32⟩
/-- DEP.STAT.DEGR -/
def depStat_DEGR : Fd := ⟨23, 16⟩
/-- DEP.STAT.USED -/
def depStat_USED : Fd := ⟨10, 0⟩
/-- DEP.RETIRE.INDEX -/
def depRetire_INDEX : Fd := ⟨39, 12⟩
/-- DEP.RETIRE.SCLASS -/
def depRetire_SCLASS : Fd := ⟨7, 4⟩
/-- DEP.RETIRE.OP -/
def depRetire_OP : Fd := ⟨1, 0⟩
/-- DEP.PAIR.MM -/
def depPair_MM : Fd := ⟨15, 8⟩
/-- DEP.PAIR.STATE -/
def depPair_STATE : Fd := ⟨1, 0⟩
/-- DEP.REC.SCLASS -/
def depRec_SCLASS : Fd := ⟨63, 60⟩
/-- DEP.REC.INDEX -/
def depRec_INDEX : Fd := ⟨59, 32⟩
/-- DEP.REC.EVENT -/
def depRec_EVENT : Fd := ⟨31, 24⟩
/-- DEP.REC.COUNT -/
def depRec_COUNT : Fd := ⟨23, 8⟩
/-- DEP.REC.AUX -/
def depRec_AUX : Fd := ⟨7, 5⟩
/-- DEP.REC.WORLD -/
def depRec_WORLD : Fd := ⟨4, 4⟩
/-- DEP.REC.DEFER -/
def depRec_DEFER : Fd := ⟨3, 3⟩
/-- DEP.REC.PERM -/
def depRec_PERM : Fd := ⟨2, 2⟩
/-- DEP.REC.NEW -/
def depRec_NEW : Fd := ⟨1, 1⟩
/-- DEP.REC.V -/
def depRec_V : Fd := ⟨0, 0⟩
/-- DEP.REC.FIRST.FIRST -/
def depFirst_FIRST : Fd := ⟨63, 0⟩
/-- DEP.REC.LAST.LAST -/
def depLast_LAST : Fd := ⟨63, 0⟩
/-- DEP.REC.DETAIL.DETAIL -/
def depDetail_DETAIL : Fd := ⟨63, 0⟩
/-- MON.MONSEL.UNIT -/
def monSel_UNIT : Fd := ⟨4, 0⟩
/-- MON.CTL.ALARMEN -/
def monCtl_ALARMEN : Fd := ⟨35, 35⟩
/-- MON.CTL.CLEAR -/
def monCtl_CLEAR : Fd := ⟨34, 34⟩
/-- MON.CTL.SNAP -/
def monCtl_SNAP : Fd := ⟨33, 33⟩
/-- MON.CTL.RUN -/
def monCtl_RUN : Fd := ⟨32, 32⟩
/-- MON.CTL.MODE -/
def monCtl_MODE : Fd := ⟨24, 24⟩
/-- MON.CTL.FILTER -/
def monCtl_FILTER : Fd := ⟨23, 8⟩
/-- MON.CTL.SEL -/
def monCtl_SEL : Fd := ⟨7, 0⟩
/-- MON.RANGE.SHIFT -/
def monRange_SHIFT : Fd := ⟨53, 48⟩
/-- MON.RANGE.WIDTH -/
def monRange_WIDTH : Fd := ⟨47, 32⟩
/-- MON.LO.LO -/
def monLo_LO : Fd := ⟨63, 0⟩
/-- MON.ALARM.THRESH -/
def monAlarm_THRESH : Fd := ⟨63, 0⟩
/-- MON.MIN.VALUE -/
def monMin_VALUE : Fd := ⟨63, 0⟩
/-- MON.MAX.VALUE -/
def monMax_VALUE : Fd := ⟨63, 0⟩
/-- MON.COUNT.N -/
def monCount_N : Fd := ⟨31, 0⟩
/-- MON.BIN.N -/
def monBin_N : Fd := ⟨31, 0⟩
/-- SYS.ID.PART -/
def sysId_PART : Fd := ⟨63, 48⟩
/-- SYS.ID.REV -/
def sysId_REV : Fd := ⟨47, 40⟩
/-- SYS.ID.SCREEN -/
def sysId_SCREEN : Fd := ⟨39, 32⟩
/-- SYS.SERIAL.SN -/
def sysSerial_SN : Fd := ⟨63, 0⟩
/-- SYS.MODE.RECOVERY -/
def sysMode_RECOVERY : Fd := ⟨16, 16⟩
/-- SYS.MODE.REASON -/
def sysMode_REASON : Fd := ⟨11, 8⟩
/-- SYS.MODE.MODE -/
def sysMode_MODE : Fd := ⟨2, 0⟩
/-- SYS.TAMPER.ARMED -/
def sysTamper_ARMED : Fd := ⟨47, 40⟩
/-- SYS.TAMPER.LEVEL -/
def sysTamper_LEVEL : Fd := ⟨39, 32⟩
/-- SYS.TAMPER.THRESH -/
def sysTamper_THRESH : Fd := ⟨31, 16⟩
/-- SYS.TAMPER.SCORE -/
def sysTamper_SCORE : Fd := ⟨15, 0⟩
/-- SYS.LDREC.INPUT -/
def sysLdrec_INPUT : Fd := ⟨19, 16⟩
/-- SYS.LDREC.LDLIMIT -/
def sysLdrec_LDLIMIT : Fd := ⟨11, 8⟩
/-- SYS.LDREC.LDCOUNT -/
def sysLdrec_LDCOUNT : Fd := ⟨7, 4⟩
/-- SYS.LDREC.CAUSE -/
def sysLdrec_CAUSE : Fd := ⟨3, 0⟩
/-- SYS.FUSE.TAMPFUSE -/
def sysFuse_TAMPFUSE : Fd := ⟨23, 16⟩
/-- SYS.FUSE.VROOT -/
def sysFuse_VROOT : Fd := ⟨9, 9⟩
/-- SYS.FUSE.CROOT -/
def sysFuse_CROOT : Fd := ⟨8, 8⟩
/-- SYS.FUSE.SVNMIN -/
def sysFuse_SVNMIN : Fd := ⟨5, 0⟩
/-- SYS.LOCK.CODE -/
def sysLock_CODE : Fd := ⟨31, 0⟩
/-- SYS.SVNCOMMIT.GO -/
def sysSvncommit_GO : Fd := ⟨0, 0⟩
/-- IMG.STAGE.ADDR -/
def imgStage_ADDR : Fd := ⟨43, 12⟩
/-- IMG.CHECK.GO -/
def imgCheck_GO : Fd := ⟨0, 0⟩
/-- IMG.STAT.OFFSET -/
def imgStat_OFFSET : Fd := ⟨63, 32⟩
/-- IMG.STAT.BUSY -/
def imgStat_BUSY : Fd := ⟨31, 31⟩
/-- IMG.STAT.CHECKED -/
def imgStat_CHECKED : Fd := ⟨16, 16⟩
/-- IMG.STAT.SECTION -/
def imgStat_SECTION : Fd := ⟨14, 8⟩
/-- IMG.STAT.RESULT -/
def imgStat_RESULT : Fd := ⟨3, 0⟩
/-- IMG.ACTIVE.IMAGEID -/
def imgActive_IMAGEID : Fd := ⟨63, 0⟩
/-- IMG.ACTSVN.SVN -/
def imgActsvn_SVN : Fd := ⟨15, 0⟩
/-- IMG.SLPAIR.PAIRS -/
def imgSlpair_PAIRS : Fd := ⟨23, 0⟩
/-- IMG.SLWGRP.GROUPS -/
def imgSlwgrp_GROUPS : Fd := ⟨31, 0⟩
/-- IMG.SLLINK.LINKS -/
def imgSllink_LINKS : Fd := ⟨11, 0⟩
/-- IMG.SLDOM.DOMS -/
def imgSldom_DOMS : Fd := ⟨63, 0⟩
/-- IMG.RCTL.FORCE -/
def imgRctl_FORCE : Fd := ⟨1, 1⟩
/-- IMG.RCTL.GO -/
def imgRctl_GO : Fd := ⟨0, 0⟩
/-- PWR.LIMIT.WATTS -/
def pwrLimit_WATTS : Fd := ⟨8, 0⟩
/-- PWR.PKG.POWER -/
def pwrPkg_POWER : Fd := ⟨8, 0⟩
/-- PWR.RESET.CLASS -/
def pwrReset_CLASS : Fd := ⟨23, 20⟩
/-- PWR.RESET.INDEX -/
def pwrReset_INDEX : Fd := ⟨14, 8⟩
/-- PWR.RESET.OP -/
def pwrReset_OP : Fd := ⟨2, 0⟩
/-- PWR.RSTAT.LAST -/
def pwrRstat_LAST : Fd := ⟨3, 0⟩
/-- PWR.DOM.TEMP -/
def pwrDom_TEMP : Fd := ⟨47, 40⟩
/-- PWR.DOM.THERM -/
def pwrDom_THERM : Fd := ⟨31, 31⟩
/-- PWR.DOM.LIMITED -/
def pwrDom_LIMITED : Fd := ⟨30, 30⟩
/-- PWR.DOM.SWITCHED -/
def pwrDom_SWITCHED : Fd := ⟨29, 29⟩
/-- PWR.DOM.STATE -/
def pwrDom_STATE : Fd := ⟨25, 24⟩
/-- PWR.DOM.FIXED -/
def pwrDom_FIXED : Fd := ⟨1, 1⟩
/-- PWR.DOM.REQ -/
def pwrDom_REQ : Fd := ⟨0, 0⟩
/-- PWR.DVFS.CUR -/
def pwrDvfs_CUR : Fd := ⟨15, 12⟩
/-- PWR.DVFS.CAP -/
def pwrDvfs_CAP : Fd := ⟨7, 4⟩
/-- PWR.DVFS.REQ -/
def pwrDvfs_REQ : Fd := ⟨3, 0⟩
/-- CLK.STAT.REF -/
def clkStat_REF : Fd := ⟨18, 16⟩
/-- CLK.STAT.UNLOCK -/
def clkStat_UNLOCK : Fd := ⟨13, 0⟩
/-- MGT.SMB.EN -/
def mgtSmb_EN : Fd := ⟨8, 8⟩
/-- MGT.SMB.ADDR -/
def mgtSmb_ADDR : Fd := ⟨6, 0⟩
/-- MGT.UART.EN -/
def mgtUart_EN : Fd := ⟨16, 16⟩
/-- MGT.UART.DIV -/
def mgtUart_DIV : Fd := ⟨15, 0⟩
/-- MGT.UDATA.RXAV -/
def mgtUdata_RXAV : Fd := ⟨9, 9⟩
/-- MGT.UDATA.TXFULL -/
def mgtUdata_TXFULL : Fd := ⟨8, 8⟩
/-- MGT.UDATA.DATA -/
def mgtUdata_DATA : Fd := ⟨7, 0⟩
/-- MGT.MCTL.TXGO -/
def mgtMctl_TXGO : Fd := ⟨24, 24⟩
/-- MGT.MCTL.TXLEN -/
def mgtMctl_TXLEN : Fd := ⟨23, 16⟩
/-- MGT.MCTL.RXLEN -/
def mgtMctl_RXLEN : Fd := ⟨15, 8⟩
/-- MGT.MCTL.TXBUSY -/
def mgtMctl_TXBUSY : Fd := ⟨1, 1⟩
/-- MGT.MCTL.RXFULL -/
def mgtMctl_RXFULL : Fd := ⟨0, 0⟩
/-- MGT.FWIN.BASE -/
def mgtFwin_BASE : Fd := ⟨25, 0⟩
/-- MGT.FLCMD.ADDR -/
def mgtFlcmd_ADDR : Fd := ⟨57, 32⟩
/-- MGT.FLCMD.ERR -/
def mgtFlcmd_ERR : Fd := ⟨11, 9⟩
/-- MGT.FLCMD.BUSY -/
def mgtFlcmd_BUSY : Fd := ⟨8, 8⟩
/-- MGT.FLCMD.OP -/
def mgtFlcmd_OP : Fd := ⟨2, 0⟩
/-- MGT.RXBUF.DATA -/
def mgtRxbuf_DATA : Fd := ⟨63, 0⟩
/-- MGT.TXBUF.DATA -/
def mgtTxbuf_DATA : Fd := ⟨63, 0⟩
/-- MGT.FLBUF.DATA -/
def mgtFlbuf_DATA : Fd := ⟨63, 0⟩

/-- The fields of each register, as its chapter's table gives them; a bit of no field is RZ. DESIGN CHOICE, unsafe: a field whose Reset the
tables give as "silicon", "fuse" or "image" has the number that stands here until a fuse or an image gives it another. -/
def Reg.fields : Reg → List Field
  | .xqcfg _ => [⟨43, 32, .rw, 1000, .s, (.range 1 4095), false⟩, ⟨31, 8, .rw, 0, .q, .any, false⟩, ⟨7, 4, .rw, 4, .q, (.range 1 8), false⟩, ⟨1, 1, .rw, 0, .q, .any, false⟩, ⟨0, 0, .rw, 0, .l, .any, false⟩]
  | .xqentry _ => [⟨63, 6, .rw, 0, .q, .any, false⟩]
  | .xqstat _ => [⟨47, 32, .ro, 0, .none, .any, false⟩, ⟨31, 16, .ro, 0, .none, .any, false⟩, ⟨8, 0, .ro, 0, .none, .any, false⟩]
  | .xqctx _ => [⟨63, 7, .rw, 0, .q, .any, false⟩]
  | .intcCfg => [⟨19, 0, .rw, 2000, .l, .any, false⟩]
  | .intcNow => [⟨63, 0, .ro, 0, .none, .any, false⟩]
  | .intcDoorbell => [⟨4, 0, .wo, 0, .l, (.range 0 23), false⟩]
  | .intcTmr _ => [⟨63, 0, .rw, 18446744073709551615, .l, .any, false⟩]
  | .intcTgt _ => [⟨23, 20, .ro, 0, .none, .any, false⟩, ⟨16, 16, .wo, 0, .l, .any, false⟩, ⟨9, 9, .ro, 0, .none, .any, false⟩, ⟨8, 8, .ro, 1, .none, .any, false⟩, ⟨3, 0, .rw, 0, .l, .any, false⟩]
  | .intcSrc _ => [⟨63, 48, .ro, 0, .none, .any, false⟩, ⟨47, 32, .wo, 0, .l, .any, false⟩, ⟨25, 25, .ro, 0, .none, .any, false⟩, ⟨24, 24, .ro, 0, .none, .any, false⟩, ⟨23, 23, .w1c, 0, .none, .any, false⟩, ⟨22, 22, .ro, 0, .none, .any, false⟩, ⟨15, 8, .rw, 0, .l, (.range 0 223), false⟩, ⟨7, 4, .rw, 0, .l, .any, false⟩, ⟨0, 0, .rw, 0, .l, .any, false⟩]
  | .mcsSrc => [⟨43, 12, .rw, 0, .q, .any, false⟩]
  | .mcsLoadreq => [⟨6, 0, .wo, 0, .q, (.range 0 111), false⟩]
  | .mcsStat => [⟨15, 8, .ro, 0, .none, .any, false⟩, ⟨3, 1, .ro, 0, .none, .any, false⟩, ⟨0, 0, .ro, 0, .none, .any, false⟩]
  | .mcsCore _ => [⟨49, 49, .ro, 0, .none, .any, false⟩, ⟨48, 48, .ro, 0, .none, .any, false⟩, ⟨47, 32, .ro, 0, .none, .any, false⟩, ⟨31, 0, .ro, 0, .none, .any, false⟩]
  | .rdgEpoch => [⟨2, 2, .ro, 0, .none, .any, false⟩, ⟨1, 1, .ro, 0, .none, .any, false⟩, ⟨0, 0, .wo, 0, .l, .any, false⟩]
  | .rdgEpochnum => [⟨63, 32, .ro, 0, .none, .any, false⟩, ⟨31, 0, .ro, 0, .none, .any, false⟩]
  | .rdgLastdeny => [⟨63, 63, .ro, 0, .none, .any, false⟩, ⟨59, 56, .ro, 0, .none, .any, false⟩, ⟨55, 52, .ro, 0, .none, .any, false⟩, ⟨43, 0, .ro, 0, .none, .any, false⟩]
  | .rdgBase _ => [⟨43, 6, .rw, 0, .l, .any, false⟩]
  | .rdgLimit _ => [⟨44, 6, .rw, 0, .l, .any, false⟩]
  | .rdgAttr _ => [⟨47, 32, .rw, 0, .l, .any, false⟩, ⟨26, 16, .rw, 0, .l, .any, false⟩, ⟨5, 5, .rw, 0, .l, .any, false⟩, ⟨4, 4, .rw, 0, .l, .any, false⟩, ⟨3, 3, .rw, 0, .l, .any, false⟩, ⟨2, 2, .rw, 0, .l, .any, false⟩, ⟨1, 1, .rw, 0, .l, .any, false⟩, ⟨0, 0, .rw, 0, .l, .any, false⟩]
  | .dbgDenylog => [⟨63, 48, .ro, 0, .none, .any, false⟩, ⟨47, 47, .ro, 0, .none, .any, false⟩, ⟨43, 0, .ro, 0, .none, .any, false⟩]
  | .dbgBrk _ => [⟨63, 63, .rw, 0, .l, .any, false⟩, ⟨62, 61, .rw, 0, .l, (.range 0 2), false⟩, ⟨60, 54, .rw, 0, .l, (.range 0 111), false⟩, ⟨47, 2, .rw, 0, .l, .any, false⟩]
  | .dbgCorectl _ => [⟨3, 3, .ro, 0, .none, .any, false⟩, ⟨2, 2, .ro, 0, .none, .any, false⟩, ⟨1, 1, .rw, 0, .l, .any, false⟩, ⟨0, 0, .rw, 0, .l, .any, false⟩]
  | .memPcsel _ => [⟨6, 0, .rw, 0, .l, .any, false⟩]
  | .memCap => [⟨48, 32, .ro, 98304, .none, .any, true⟩, ⟨23, 20, .ro, 0, .none, .any, true⟩, ⟨19, 16, .ro, 4, .none, .any, true⟩, ⟨15, 8, .ro, 128, .none, .any, true⟩, ⟨2, 0, .ro, 0, .none, .any, true⟩]
  | .memPcctl _ => [⟨16, 16, .wo, 0, .l, .any, false⟩, ⟨15, 8, .rw, 8, .s, (.range 1 255), false⟩, ⟨3, 3, .wo, 0, .l, .any, false⟩, ⟨2, 0, .rw, 3, .l, (.range 0 4), false⟩]
  | .memPcstat _ => [⟨39, 32, .ro, 0, .none, .any, false⟩, ⟨31, 16, .ro, 0, .none, .any, false⟩, ⟨13, 13, .w1c, 0, .none, .any, true⟩, ⟨12, 12, .w1c, 0, .none, .any, true⟩, ⟨11, 11, .w1c, 0, .none, .any, true⟩, ⟨10, 10, .w1c, 0, .none, .any, true⟩, ⟨9, 9, .w1c, 0, .none, .any, true⟩, ⟨8, 8, .w1c, 0, .none, .any, true⟩, ⟨2, 0, .ro, 0, .none, .any, true⟩]
  | .memErrcnt _ => [⟨57, 48, .ro, 768, .none, .any, true⟩, ⟨47, 32, .ro, 0, .none, .any, true⟩, ⟨31, 0, .ro, 0, .none, .any, true⟩]
  | .pleCtl => [⟨31, 16, .rw, 2000, .l, .any, false⟩, ⟨0, 0, .rw, 0, .l, .any, false⟩]
  | .pleGive => [⟨22, 0, .wo, 0, .l, .any, false⟩]
  | .pleStat => [⟨63, 48, .ro, 0, .none, .any, false⟩, ⟨47, 32, .ro, 0, .none, .any, false⟩, ⟨31, 0, .ro, 0, .none, .any, false⟩]
  | .pleOvf => [⟨38, 32, .ro, 0, .none, .any, false⟩, ⟨22, 0, .ro, 0, .none, .any, false⟩]
  | .pleTake _ => [⟨22, 0, .ro, 0, .none, .any, false⟩]
  | .plePool _ => [⟨28, 16, .rw, 256, .l, (.range 0 4096), false⟩, ⟨12, 0, .ro, 0, .none, .any, false⟩]
  | .ingLanesel _ => [⟨3, 0, .rw, 0, .l, .any, false⟩]
  | .ingCfg => [⟨17, 16, .rw, 2, .l, .any, false⟩, ⟨15, 0, .rw, 2000, .s, (.range 1 65535), false⟩]
  | .ingBank => [⟨9, 9, .ro, 0, .none, .any, false⟩, ⟨8, 8, .ro, 0, .none, .any, false⟩, ⟨1, 1, .rw, 0, .s, .any, false⟩, ⟨0, 0, .rw, 0, .s, .any, false⟩]
  | .ingImem => [⟨43, 26, .rw, 0, .q, .any, false⟩]
  | .ingImemva => [⟨47, 26, .rw, 0, .q, .any, false⟩]
  | .ingFbase _ => [⟨43, 19, .rw, 0, .q, .any, false⟩]
  | .ingFload => [⟨7, 0, .wo, 0, .l, .any, false⟩]
  | .ingTxctl _ => [⟨24, 16, .ro, 0, .none, .any, false⟩, ⟨9, 8, .ro, 0, .none, .any, false⟩, ⟨1, 0, .wo, 0, .l, .any, false⟩]
  | .ingLcfg _ => [⟨15, 8, .rw, 0, .l, .any, false⟩, ⟨7, 4, .rw, 0, .q, .any, false⟩, ⟨1, 1, .rw, 0, .q, .any, false⟩, ⟨0, 0, .rw, 0, .l, .any, false⟩]
  | .ingLring _ => [⟨63, 60, .rw, 0, .q, (.range 0 8), false⟩, ⟨43, 6, .rw, 0, .q, .any, false⟩]
  | .ingLptr _ => [⟨27, 16, .ro, 0, .none, .any, false⟩, ⟨11, 0, .rw, 0, .l, .any, false⟩]
  | .ingLstat _ => [⟨63, 48, .ro, 0, .none, .any, false⟩, ⟨31, 0, .ro, 0, .none, .any, false⟩]
  | .ingClass _ => [⟨39, 16, .rw, 0, .q, .any, false⟩, ⟨12, 12, .rw, 0, .q, .any, false⟩, ⟨10, 8, .rw, 0, .l, .any, false⟩, ⟨0, 0, .rw, 0, .l, .any, false⟩]
  | .ingCstat _ => [⟨63, 48, .ro, 0, .none, .any, false⟩, ⟨12, 0, .ro, 0, .none, .any, false⟩]
  | .ingRuleW0 _ => [⟨31, 16, .rw, 0, .q, .any, false⟩, ⟨13, 8, .rw, 0, .q, .any, false⟩, ⟨6, 4, .rw, 0, .q, .any, false⟩, ⟨3, 1, .rw, 0, .q, .any, false⟩, ⟨0, 0, .rw, 0, .q, .any, false⟩]
  | .ingRuleVala _ => [⟨63, 0, .rw, 0, .q, .any, false⟩]
  | .ingRuleMaska _ => [⟨63, 0, .rw, 0, .q, .any, false⟩]
  | .ingRuleValb _ => [⟨63, 0, .rw, 0, .q, .any, false⟩]
  | .ingRuleMaskb _ => [⟨63, 0, .rw, 0, .q, .any, false⟩]
  | .ingRuleDesc _ => [⟨63, 7, .rw, 0, .q, .any, false⟩]
  | .hostFn _ => [⟨16, 16, .rw, 0, .l, .any, false⟩, ⟨15, 0, .rw, 0, .l, .any, false⟩]
  | .keyEngsel _ => [⟨5, 0, .rw, 0, .l, (.range 0 37), false⟩]
  | .keyCfg => [⟨20, 0, .rw, 4096, .l, .any, false⟩]
  | .keyStore => [⟨20, 0, .ro, 1048576, .none, .any, false⟩]
  | .keyDrbg => [⟨63, 32, .ro, 0, .none, .any, false⟩, ⟨2, 2, .ro, 0, .none, .any, false⟩, ⟨1, 1, .ro, 0, .none, .any, false⟩, ⟨0, 0, .ro, 0, .none, .any, false⟩]
  | .keyQstat => [⟨24, 16, .ro, 0, .none, .any, false⟩, ⟨8, 0, .ro, 0, .none, .any, false⟩]
  | .keyUctl _ => [⟨9, 8, .ro, 0, .none, .any, false⟩, ⟨1, 1, .rw, 0, .q, .any, false⟩, ⟨0, 0, .rw, 1, .l, .any, false⟩]
  | .keyUstat _ => [⟨63, 32, .ro, 0, .none, .any, false⟩, ⟨9, 8, .ro, 0, .none, .any, false⟩, ⟨7, 0, .ro, 0, .none, .any, false⟩]
  | .jcCfg => [⟨31, 16, .rw, 30, .l, (.range 1 65535), false⟩, ⟨15, 8, .rw, 15, .l, (.range 1 30), false⟩]
  | .jcSeq => [⟨63, 0, .ro, 0, .none, .any, false⟩]
  | .jcDur => [⟨63, 0, .ro, 0, .none, .any, false⟩]
  | .jcRel => [⟨63, 0, .rw, 0, .l, .any, false⟩]
  | .jcStat => [⟨63, 32, .ro, 0, .none, .any, false⟩, ⟨0, 0, .ro, 0, .none, .any, false⟩]
  | .jcFree => [⟨13, 0, .ro, 0, .none, .any, false⟩]
  | .jcSlot _ => [⟨9, 9, .ro, 0, .none, .any, false⟩, ⟨8, 8, .wo, 0, .l, .any, false⟩, ⟨7, 4, .ro, 0, .none, .any, false⟩, ⟨2, 0, .ro, 0, .none, .any, false⟩]
  | .jcWear _ => [⟨63, 48, .ro, 65535, .none, .any, false⟩, ⟨47, 40, .ro, 0, .none, .any, false⟩, ⟨39, 0, .ro, 0, .none, .any, false⟩]
  | .jcRdseq => [⟨63, 0, .rw, 0, .q, .any, false⟩]
  | .jcRdbuf => [⟨43, 12, .rw, 0, .q, .any, false⟩]
  | .jcRdctl => [⟨47, 32, .rw, 0, .q, (.range 1 65535), false⟩, ⟨31, 8, .rw, 0, .q, (.range 1 16777215), false⟩, ⟨7, 4, .ro, 0, .none, .any, false⟩, ⟨1, 1, .ro, 0, .none, .any, false⟩, ⟨0, 0, .wo, 0, .l, .any, false⟩]
  | .egrCring _ => [⟨63, 60, .rw, 0, .q, (.range 0 8), false⟩, ⟨43, 6, .rw, 0, .q, .any, false⟩]
  | .egrCptr _ => [⟨27, 16, .ro, 0, .none, .any, false⟩, ⟨11, 0, .rw, 0, .l, .any, false⟩]
  | .egrCstat _ => [⟨47, 32, .ro, 0, .none, .any, false⟩, ⟨31, 0, .ro, 0, .none, .any, false⟩]
  | .cdlLinksel _ => [⟨3, 0, .rw, 0, .l, (.range 0 11), false⟩]
  | .cdlEst => [⟨63, 32, .ro, 0, .none, .any, false⟩, ⟨26, 16, .rw, 1, .q, (.range 1 1024), false⟩, ⟨9, 0, .rw, 0, .q, .any, false⟩]
  | .cdlCfg => [⟨63, 48, .rw, 1000, .l, (.range 1 65535), false⟩, ⟨47, 32, .rw, 1000, .l, (.range 1 65535), false⟩, ⟨31, 24, .rw, 10, .l, (.range 2 255), false⟩]
  | .cdlRkeys _ => [⟨63, 0, .rw, 18446744073709551615, .l, .any, false⟩]
  | .cdlRpass => [⟨43, 20, .rw, 0, .q, .any, false⟩, ⟨0, 0, .rw, 0, .l, .any, false⟩]
  | .cdlRpdesc => [⟨63, 7, .rw, 0, .q, .any, false⟩]
  | .cdlClaim => [⟨63, 62, .wo, 0, .l, (.range 0 2), false⟩, ⟨26, 0, .wo, 0, .l, .any, false⟩]
  | .cdlClaimstat => [⟨63, 63, .ro, 0, .none, .any, false⟩, ⟨55, 52, .ro, 0, .none, .any, false⟩, ⟨51, 42, .ro, 0, .none, .any, false⟩, ⟨26, 0, .ro, 0, .none, .any, false⟩]
  | .cdlPstat => [⟨63, 32, .ro, 0, .none, .any, false⟩, ⟨31, 0, .ro, 0, .none, .any, false⟩]
  | .cdlLctl _ => [⟨7, 4, .rw, 15, .l, (.among [15, 3, 12, 1, 2, 4, 8]), false⟩, ⟨3, 2, .rw, 0, .l, .any, false⟩, ⟨1, 1, .rw, 0, .l, .any, false⟩, ⟨0, 0, .rw, 0, .l, .any, false⟩]
  | .cdlLstat _ => [⟨63, 54, .ro, 0, .none, .any, false⟩, ⟨53, 50, .ro, 0, .none, .any, false⟩, ⟨39, 8, .ro, 0, .none, .any, false⟩, ⟨6, 4, .ro, 0, .none, .any, false⟩, ⟨2, 0, .ro, 0, .none, .any, false⟩]
  | .cdlLcnt _ => [⟨7, 0, .ro, 0, .none, .any, false⟩]
  | .cdlRoute _ => [⟨20, 20, .rw, 0, .l, .any, false⟩, ⟨19, 16, .rw, 0, .l, (.range 0 11), false⟩, ⟨15, 4, .rw, 0, .l, .any, false⟩, ⟨0, 0, .rw, 0, .l, .any, false⟩]
  | .ageCfg => [⟨15, 0, .rw, 1000, .s, (.range 10 60000), false⟩]
  | .ageDom _ => [⟨49, 48, .ro, 0, .none, .any, false⟩, ⟨47, 32, .ro, 65535, .none, .any, false⟩, ⟨31, 16, .ro, 0, .none, .any, false⟩, ⟨15, 8, .ro, 0, .none, .any, false⟩, ⟨7, 0, .ro, 0, .none, .any, false⟩]
  | .depCfg => [⟨27, 20, .rw, 10, .l, (.range 1 255), false⟩, ⟨19, 0, .rw, 2000, .l, .any, false⟩]
  | .depStat => [⟨63, 32, .ro, 0, .none, .any, false⟩, ⟨23, 16, .ro, 0, .none, .any, false⟩, ⟨10, 0, .ro, 0, .none, .any, false⟩]
  | .depRetire => [⟨39, 12, .wo, 0, .l, .any, false⟩, ⟨7, 4, .wo, 0, .l, .any, false⟩, ⟨1, 0, .wo, 0, .l, .any, false⟩]
  | .depPair _ => [⟨15, 8, .ro, 0, .none, .any, false⟩, ⟨1, 0, .ro, 0, .none, .any, false⟩]
  | .depRec _ => [⟨63, 60, .ro, 0, .none, .any, false⟩, ⟨59, 32, .ro, 0, .none, .any, false⟩, ⟨31, 24, .ro, 0, .none, .any, false⟩, ⟨23, 8, .ro, 0, .none, .any, false⟩, ⟨7, 5, .ro, 0, .none, .any, false⟩, ⟨4, 4, .ro, 0, .none, .any, false⟩, ⟨3, 3, .ro, 0, .none, .any, false⟩, ⟨2, 2, .ro, 0, .none, .any, false⟩, ⟨1, 1, .w1c, 0, .none, .any, false⟩, ⟨0, 0, .w1c, 0, .none, .any, false⟩]
  | .depFirst _ => [⟨63, 0, .ro, 0, .none, .any, false⟩]
  | .depLast _ => [⟨63, 0, .ro, 0, .none, .any, false⟩]
  | .depDetail _ => [⟨63, 0, .ro, 0, .none, .any, false⟩]
  | .monSel _ => [⟨4, 0, .rw, 0, .l, .any, false⟩]
  | .monCtl _ => [⟨35, 35, .rw, 0, .l, .any, false⟩, ⟨34, 34, .wo, 0, .l, .any, false⟩, ⟨33, 33, .wo, 0, .l, .any, false⟩, ⟨32, 32, .rw, 0, .l, .any, false⟩, ⟨24, 24, .rw, 0, .q, .any, false⟩, ⟨23, 8, .rw, 65535, .q, .any, false⟩, ⟨7, 0, .rw, 0, .q, (.among [0, 1, 2, 3, 4, 5, 6, 7, 8, 9, 16, 17, 18, 19, 20, 21]), false⟩]
  | .monRange _ => [⟨53, 48, .rw, 0, .q, (.range 0 40), false⟩, ⟨47, 32, .rw, 1, .q, (.range 1 65535), false⟩]
  | .monLo _ => [⟨63, 0, .rw, 0, .q, .any, false⟩]
  | .monAlarm _ => [⟨63, 0, .rw, 18446744073709551615, .l, .any, false⟩]
  | .monMin _ => [⟨63, 0, .ro, 18446744073709551615, .none, .any, false⟩]
  | .monMax _ => [⟨63, 0, .ro, 0, .none, .any, false⟩]
  | .monCount _ => [⟨31, 0, .ro, 0, .none, .any, false⟩]
  | .monBin _ _ => [⟨31, 0, .ro, 0, .none, .any, false⟩]
  | .sysId => [⟨63, 48, .ro, 37906, .none, .any, true⟩, ⟨47, 40, .ro, 1, .none, .any, true⟩, ⟨39, 32, .ro, 0, .none, .any, true⟩]
  | .sysSerial => [⟨63, 0, .ro, 0, .none, .any, true⟩]
  | .sysMode => [⟨16, 16, .ro, 0, .none, .any, false⟩, ⟨11, 8, .ro, 0, .none, .any, false⟩, ⟨2, 0, .ro, 0, .none, .any, false⟩]
  | .sysTamper => [⟨47, 40, .ro, 0, .none, .any, false⟩, ⟨39, 32, .ro, 0, .none, .any, false⟩, ⟨31, 16, .ro, 64, .none, .any, false⟩, ⟨15, 0, .ro, 0, .none, .any, true⟩]
  | .sysLdrec => [⟨19, 16, .ro, 0, .none, .any, true⟩, ⟨11, 8, .ro, 0, .none, .any, true⟩, ⟨7, 4, .ro, 0, .none, .any, true⟩, ⟨3, 0, .ro, 0, .none, .any, true⟩]
  | .sysFuse => [⟨23, 16, .ro, 0, .none, .any, true⟩, ⟨9, 9, .ro, 1, .none, .any, true⟩, ⟨8, 8, .ro, 0, .none, .any, true⟩, ⟨5, 0, .ro, 0, .none, .any, true⟩]
  | .sysLock => [⟨31, 0, .wo, 0, .l, .any, false⟩]
  | .sysSvncommit => [⟨0, 0, .wo, 0, .l, .any, false⟩]
  | .imgStage => [⟨43, 12, .rw, 0, .q, .any, false⟩]
  | .imgCheck => [⟨0, 0, .wo, 0, .q, .any, false⟩]
  | .imgStat => [⟨63, 32, .ro, 0, .none, .any, false⟩, ⟨31, 31, .ro, 0, .none, .any, false⟩, ⟨16, 16, .ro, 0, .none, .any, false⟩, ⟨14, 8, .ro, 0, .none, .any, false⟩, ⟨3, 0, .ro, 0, .none, .any, false⟩]
  | .imgActive => [⟨63, 0, .ro, 0, .none, .any, false⟩]
  | .imgActsvn => [⟨15, 0, .ro, 0, .none, .any, false⟩]
  | .imgSlpair => [⟨23, 0, .rw, 0, .q, .any, false⟩]
  | .imgSlwgrp => [⟨31, 0, .rw, 0, .q, .any, false⟩]
  | .imgSllink => [⟨11, 0, .rw, 0, .q, .any, false⟩]
  | .imgSldom i => [⟨if i = 0 then 63 else 31, 0, .rw, 0, .q, .any, false⟩]
  | .imgRctl => [⟨1, 1, .wo, 0, .q, .any, false⟩, ⟨0, 0, .wo, 0, .q, .any, false⟩]
  | .pwrLimit => [⟨8, 0, .rw, 420, .l, (.range 100 420), false⟩]
  | .pwrPkg => [⟨8, 0, .ro, 0, .none, .any, false⟩]
  | .pwrReset => [⟨23, 20, .wo, 0, .l, .any, false⟩, ⟨14, 8, .wo, 0, .l, .any, false⟩, ⟨2, 0, .wo, 0, .l, .any, false⟩]
  | .pwrRstat => [⟨3, 0, .ro, 0, .none, .any, true⟩]
  | .pwrDom _ => [⟨47, 40, .ro, 0, .none, .any, false⟩, ⟨31, 31, .w1c, 0, .none, .any, false⟩, ⟨30, 30, .ro, 0, .none, .any, false⟩, ⟨29, 29, .w1c, 0, .none, .any, false⟩, ⟨25, 24, .ro, 1, .none, .any, false⟩, ⟨1, 1, .ro, 0, .none, .any, false⟩, ⟨0, 0, .rw, 1, .q, .any, false⟩]
  | .pwrDvfs _ => [⟨15, 12, .ro, 0, .none, .any, false⟩, ⟨7, 4, .ro, 0, .none, .any, false⟩, ⟨3, 0, .rw, 0, .l, (.range 0 5), false⟩]
  | .clkStat => [⟨18, 16, .ro, 0, .none, .any, false⟩, ⟨13, 0, .w1c, 0, .none, .any, false⟩]
  | .mgtSmb => [⟨8, 8, .rw, 1, .l, .any, false⟩, ⟨6, 0, .rw, 78, .q, (.range 8 119), false⟩]
  | .mgtUart => [⟨16, 16, .rw, 1, .l, .any, false⟩, ⟨15, 0, .rw, 54, .s, (.range 2 65535), false⟩]
  | .mgtUdata => [⟨9, 9, .ro, 0, .none, .any, false⟩, ⟨8, 8, .ro, 0, .none, .any, false⟩, ⟨7, 0, .rw, 0, .l, .any, false⟩]
  | .mgtMctl => [⟨24, 24, .wo, 0, .l, .any, false⟩, ⟨23, 16, .rw, 0, .l, (.range 1 255), false⟩, ⟨15, 8, .ro, 0, .none, .any, false⟩, ⟨1, 1, .ro, 0, .none, .any, false⟩, ⟨0, 0, .w1c, 0, .none, .any, false⟩]
  | .mgtFwin => [⟨25, 0, .ro, 1048576, .none, .any, false⟩]
  | .mgtFlcmd => [⟨57, 32, .rw, 0, .q, .any, false⟩, ⟨11, 9, .ro, 0, .none, .any, false⟩, ⟨8, 8, .ro, 0, .none, .any, false⟩, ⟨2, 0, .wo, 0, .q, (.range 0 3), false⟩]
  | .mgtRxbuf _ => [⟨63, 0, .ro, 0, .none, .any, false⟩]
  | .mgtTxbuf _ => [⟨63, 0, .rw, 0, .l, .any, false⟩]
  | .mgtFlbuf _ => [⟨63, 0, .rw, 0, .l, .any, false⟩]

/-- The value a register holds after reset: the reset value of each field in its place. -/
def Reg.reset (r : Reg) : Word :=
  word ((r.fields.map (fun f => f.reset * 2 ^ f.lo)).sum)

/-- The block code of each register ("Register blocks"). -/
def Reg.block : Reg → Nat
  | .xqcfg _ => 0
  | .xqentry _ => 0
  | .xqstat _ => 0
  | .xqctx _ => 0
  | .intcCfg => 3
  | .intcNow => 3
  | .intcDoorbell => 3
  | .intcTmr _ => 3
  | .intcTgt _ => 3
  | .intcSrc _ => 3
  | .mcsSrc => 19
  | .mcsLoadreq => 19
  | .mcsStat => 19
  | .mcsCore _ => 19
  | .rdgEpoch => 2
  | .rdgEpochnum => 2
  | .rdgLastdeny => 2
  | .rdgBase _ => 2
  | .rdgLimit _ => 2
  | .rdgAttr _ => 2
  | .dbgDenylog => 17
  | .dbgBrk _ => 17
  | .dbgCorectl _ => 17
  | .memPcsel _ => 4
  | .memCap => 4
  | .memPcctl _ => 4
  | .memPcstat _ => 4
  | .memErrcnt _ => 4
  | .pleCtl => 5
  | .pleGive => 5
  | .pleStat => 5
  | .pleOvf => 5
  | .pleTake _ => 5
  | .plePool _ => 5
  | .ingLanesel _ => 6
  | .ingCfg => 6
  | .ingBank => 6
  | .ingImem => 6
  | .ingImemva => 6
  | .ingFbase _ => 6
  | .ingFload => 6
  | .ingTxctl _ => 6
  | .ingLcfg _ => 6
  | .ingLring _ => 6
  | .ingLptr _ => 6
  | .ingLstat _ => 6
  | .ingClass _ => 6
  | .ingCstat _ => 6
  | .ingRuleW0 _ => 6
  | .ingRuleVala _ => 6
  | .ingRuleMaska _ => 6
  | .ingRuleValb _ => 6
  | .ingRuleMaskb _ => 6
  | .ingRuleDesc _ => 6
  | .hostFn _ => 11
  | .keyEngsel _ => 8
  | .keyCfg => 8
  | .keyStore => 8
  | .keyDrbg => 8
  | .keyQstat => 8
  | .keyUctl _ => 8
  | .keyUstat _ => 8
  | .jcCfg => 9
  | .jcSeq => 9
  | .jcDur => 9
  | .jcRel => 9
  | .jcStat => 9
  | .jcFree => 9
  | .jcSlot _ => 9
  | .jcWear _ => 9
  | .jcRdseq => 9
  | .jcRdbuf => 9
  | .jcRdctl => 9
  | .egrCring _ => 7
  | .egrCptr _ => 7
  | .egrCstat _ => 7
  | .cdlLinksel _ => 10
  | .cdlEst => 10
  | .cdlCfg => 10
  | .cdlRkeys _ => 10
  | .cdlRpass => 10
  | .cdlRpdesc => 10
  | .cdlClaim => 10
  | .cdlClaimstat => 10
  | .cdlPstat => 10
  | .cdlLctl _ => 10
  | .cdlLstat _ => 10
  | .cdlLcnt _ => 10
  | .cdlRoute _ => 10
  | .ageCfg => 14
  | .ageDom _ => 14
  | .depCfg => 16
  | .depStat => 16
  | .depRetire => 16
  | .depPair _ => 16
  | .depRec _ => 16
  | .depFirst _ => 16
  | .depLast _ => 16
  | .depDetail _ => 16
  | .monSel _ => 15
  | .monCtl _ => 15
  | .monRange _ => 15
  | .monLo _ => 15
  | .monAlarm _ => 15
  | .monMin _ => 15
  | .monMax _ => 15
  | .monCount _ => 15
  | .monBin _ _ => 15
  | .sysId => 0
  | .sysSerial => 0
  | .sysMode => 0
  | .sysTamper => 0
  | .sysLdrec => 0
  | .sysFuse => 0
  | .sysLock => 0
  | .sysSvncommit => 0
  | .imgStage => 1
  | .imgCheck => 1
  | .imgStat => 1
  | .imgActive => 1
  | .imgActsvn => 1
  | .imgSlpair => 1
  | .imgSlwgrp => 1
  | .imgSllink => 1
  | .imgSldom _ => 1
  | .imgRctl => 1
  | .pwrLimit => 12
  | .pwrPkg => 12
  | .pwrReset => 12
  | .pwrRstat => 12
  | .pwrDom _ => 12
  | .pwrDvfs _ => 12
  | .clkStat => 13
  | .mgtSmb => 18
  | .mgtUart => 18
  | .mgtUdata => 18
  | .mgtMctl => 18
  | .mgtFwin => 18
  | .mgtFlcmd => 18
  | .mgtRxbuf _ => 18
  | .mgtTxbuf _ => 18
  | .mgtFlbuf _ => 18

/-- The offset of each register in its block; of one behind a select register, the offset in its window. -/
def Reg.offset : Reg → Nat
  | .xqcfg i => 65536 + 32 * i
  | .xqentry i => 65544 + 32 * i
  | .xqstat i => 65552 + 32 * i
  | .xqctx i => 65560 + 32 * i
  | .intcCfg => 0
  | .intcNow => 8
  | .intcDoorbell => 16
  | .intcTmr i => 256 + 8 * i
  | .intcTgt i => 4096 + 8 * i
  | .intcSrc i => 16384 + 8 * i
  | .mcsSrc => 0
  | .mcsLoadreq => 8
  | .mcsStat => 16
  | .mcsCore i => 4096 + 8 * i
  | .rdgEpoch => 0
  | .rdgEpochnum => 8
  | .rdgLastdeny => 16
  | .rdgBase i => 65536 + 32 * i
  | .rdgLimit i => 65544 + 32 * i
  | .rdgAttr i => 65552 + 32 * i
  | .dbgDenylog => 0
  | .dbgBrk i => 256 + 8 * i
  | .dbgCorectl i => 4096 + 8 * i
  | .memPcsel _ => 0
  | .memCap => 8
  | .memPcctl _ => 256
  | .memPcstat _ => 264
  | .memErrcnt _ => 272
  | .pleCtl => 0
  | .pleGive => 8
  | .pleStat => 16
  | .pleOvf => 24
  | .pleTake i => 256 + 8 * i
  | .plePool i => 512 + 8 * i
  | .ingLanesel _ => 0
  | .ingCfg => 8
  | .ingBank => 16
  | .ingImem => 24
  | .ingImemva => 32
  | .ingFbase i => 40 + 8 * i
  | .ingFload => 56
  | .ingTxctl _ => 64
  | .ingLcfg _ => 256
  | .ingLring _ => 264
  | .ingLptr _ => 272
  | .ingLstat _ => 280
  | .ingClass i => 4096 + 8 * i
  | .ingCstat i => 4608 + 8 * i
  | .ingRuleW0 i => 1048576 + 64 * i
  | .ingRuleVala i => 1048584 + 64 * i
  | .ingRuleMaska i => 1048592 + 64 * i
  | .ingRuleValb i => 1048600 + 64 * i
  | .ingRuleMaskb i => 1048608 + 64 * i
  | .ingRuleDesc i => 1048616 + 64 * i
  | .hostFn i => 256 + 8 * i
  | .keyEngsel _ => 0
  | .keyCfg => 8
  | .keyStore => 16
  | .keyDrbg => 24
  | .keyQstat => 32
  | .keyUctl _ => 256
  | .keyUstat _ => 264
  | .jcCfg => 0
  | .jcSeq => 8
  | .jcDur => 16
  | .jcRel => 24
  | .jcStat => 32
  | .jcFree => 40
  | .jcSlot i => 256 + 8 * i
  | .jcWear i => 272 + 8 * i
  | .jcRdseq => 512
  | .jcRdbuf => 520
  | .jcRdctl => 528
  | .egrCring i => 256 + 8 * i
  | .egrCptr i => 512 + 8 * i
  | .egrCstat i => 768 + 8 * i
  | .cdlLinksel _ => 0
  | .cdlEst => 8
  | .cdlCfg => 16
  | .cdlRkeys i => 24 + 8 * i
  | .cdlRpass => 40
  | .cdlRpdesc => 48
  | .cdlClaim => 56
  | .cdlClaimstat => 64
  | .cdlPstat => 72
  | .cdlLctl _ => 256
  | .cdlLstat _ => 264
  | .cdlLcnt _ => 272
  | .cdlRoute i => 65536 + 8 * i
  | .ageCfg => 0
  | .ageDom i => 4096 + 8 * i
  | .depCfg => 0
  | .depStat => 8
  | .depRetire => 16
  | .depPair i => 256 + 8 * i
  | .depRec i => 65536 + 32 * i
  | .depFirst i => 65544 + 32 * i
  | .depLast i => 65552 + 32 * i
  | .depDetail i => 65560 + 32 * i
  | .monSel _ => 0
  | .monCtl _ => 256
  | .monRange _ => 264
  | .monLo _ => 272
  | .monAlarm _ => 280
  | .monMin _ => 288
  | .monMax _ => 296
  | .monCount _ => 304
  | .monBin _ i => 512 + 8 * i
  | .sysId => 0
  | .sysSerial => 8
  | .sysMode => 16
  | .sysTamper => 24
  | .sysLdrec => 32
  | .sysFuse => 40
  | .sysLock => 48
  | .sysSvncommit => 56
  | .imgStage => 0
  | .imgCheck => 8
  | .imgStat => 16
  | .imgActive => 24
  | .imgActsvn => 32
  | .imgSlpair => 256
  | .imgSlwgrp => 264
  | .imgSllink => 272
  | .imgSldom i => 280 + 8 * i
  | .imgRctl => 296
  | .pwrLimit => 0
  | .pwrPkg => 8
  | .pwrReset => 16
  | .pwrRstat => 24
  | .pwrDom i => 4096 + 8 * i
  | .pwrDvfs i => 8192 + 8 * i
  | .clkStat => 0
  | .mgtSmb => 0
  | .mgtUart => 8
  | .mgtUdata => 16
  | .mgtMctl => 24
  | .mgtFwin => 32
  | .mgtFlcmd => 40
  | .mgtRxbuf i => 4096 + 8 * i
  | .mgtTxbuf i => 4352 + 8 * i
  | .mgtFlbuf i => 4608 + 8 * i

/-- The physical address of a register ("Register blocks"). -/
def Reg.pa (r : Reg) : Nat := 0x0F0000000000 + r.block * 2 ^ 24 + r.offset

/-- The element of an array of n registers that the offset names, the array starting at base with the given stride. -/
def arrayIx (off base stride n : Nat) : Option Nat :=
  if base ≤ off ∧ (off - base) % stride = 0 ∧ (off - base) / stride < n then some ((off - base) / stride) else none

/-- The first of a list of candidates that is present. -/
def firstSome : List (Option Reg) → Option Reg
  | [] => none
  | some r :: _ => some r
  | none :: rs => firstSome rs

/-- The register at an offset of a block. who makes the access; sel is the selection its select register of the block
holds, for the registers behind a select register. An index beyond the units there are names no register (R26). -/
def regAt (code off : Nat) (who : Requester) (sel : Nat) : Option Reg :=
  match code with
  | 0 => firstSome [
      (arrayIx off 65536 32 64).map .xqcfg,
      (arrayIx off 65544 32 64).map .xqentry,
      (arrayIx off 65552 32 64).map .xqstat,
      (arrayIx off 65560 32 64).map .xqctx,
      (if off = 0 then some .sysId else none),
      (if off = 8 then some .sysSerial else none),
      (if off = 16 then some .sysMode else none),
      (if off = 24 then some .sysTamper else none),
      (if off = 32 then some .sysLdrec else none),
      (if off = 40 then some .sysFuse else none),
      (if off = 48 then some .sysLock else none),
      (if off = 56 then some .sysSvncommit else none)]
  | 1 => firstSome [
      (if off = 0 then some .imgStage else none),
      (if off = 8 then some .imgCheck else none),
      (if off = 16 then some .imgStat else none),
      (if off = 24 then some .imgActive else none),
      (if off = 32 then some .imgActsvn else none),
      (if off = 256 then some .imgSlpair else none),
      (if off = 264 then some .imgSlwgrp else none),
      (if off = 272 then some .imgSllink else none),
      (arrayIx off 280 8 2).map .imgSldom,
      (if off = 296 then some .imgRctl else none)]
  | 2 => firstSome [
      (if off = 0 then some .rdgEpoch else none),
      (if off = 8 then some .rdgEpochnum else none),
      (if off = 16 then some .rdgLastdeny else none),
      (arrayIx off 65536 32 1024).map .rdgBase,
      (arrayIx off 65544 32 1024).map .rdgLimit,
      (arrayIx off 65552 32 1024).map .rdgAttr]
  | 3 => firstSome [
      (if off = 0 then some .intcCfg else none),
      (if off = 8 then some .intcNow else none),
      (if off = 16 then some .intcDoorbell else none),
      (arrayIx off 256 8 16).map .intcTmr,
      (arrayIx off 4096 8 224).map .intcTgt,
      (arrayIx off 16384 8 640).map .intcSrc]
  | 4 => firstSome [
      (if off = 0 then some (.memPcsel who) else none),
      (if off = 8 then some .memCap else none),
      (if off = 256 ∧ sel < 128 then some (.memPcctl sel) else none),
      (if off = 264 ∧ sel < 128 then some (.memPcstat sel) else none),
      (if off = 272 ∧ sel < 128 then some (.memErrcnt sel) else none)]
  | 5 => firstSome [
      (if off = 0 then some .pleCtl else none),
      (if off = 8 then some .pleGive else none),
      (if off = 16 then some .pleStat else none),
      (if off = 24 then some .pleOvf else none),
      (arrayIx off 256 8 4).map .pleTake,
      (arrayIx off 512 8 4).map .plePool]
  | 6 => firstSome [
      (if off = 0 then some (.ingLanesel who) else none),
      (if off = 8 then some .ingCfg else none),
      (if off = 16 then some .ingBank else none),
      (if off = 24 then some .ingImem else none),
      (if off = 32 then some .ingImemva else none),
      (arrayIx off 40 8 2).map .ingFbase,
      (if off = 56 then some .ingFload else none),
      (match who with | .core n k => (if off = 64 then some (.ingTxctl (2 * n + k)) else none) | .master _ _ => none),
      (if off = 256 ∧ sel < 16 then some (.ingLcfg sel) else none),
      (if off = 264 ∧ sel < 16 then some (.ingLring sel) else none),
      (if off = 272 ∧ sel < 16 then some (.ingLptr sel) else none),
      (if off = 280 ∧ sel < 16 then some (.ingLstat sel) else none),
      (arrayIx off 4096 8 64).map .ingClass,
      (arrayIx off 4608 8 64).map .ingCstat,
      (arrayIx off 1048576 64 8192).map .ingRuleW0,
      (arrayIx off 1048584 64 8192).map .ingRuleVala,
      (arrayIx off 1048592 64 8192).map .ingRuleMaska,
      (arrayIx off 1048600 64 8192).map .ingRuleValb,
      (arrayIx off 1048608 64 8192).map .ingRuleMaskb,
      (arrayIx off 1048616 64 8192).map .ingRuleDesc]
  | 7 => firstSome [
      (arrayIx off 256 8 16).map .egrCring,
      (arrayIx off 512 8 16).map .egrCptr,
      (arrayIx off 768 8 16).map .egrCstat]
  | 8 => firstSome [
      (if off = 0 then some (.keyEngsel who) else none),
      (if off = 8 then some .keyCfg else none),
      (if off = 16 then some .keyStore else none),
      (if off = 24 then some .keyDrbg else none),
      (if off = 32 then some .keyQstat else none),
      (if off = 256 ∧ sel < 38 then some (.keyUctl sel) else none),
      (if off = 264 ∧ sel < 38 then some (.keyUstat sel) else none)]
  | 9 => firstSome [
      (if off = 0 then some .jcCfg else none),
      (if off = 8 then some .jcSeq else none),
      (if off = 16 then some .jcDur else none),
      (if off = 24 then some .jcRel else none),
      (if off = 32 then some .jcStat else none),
      (if off = 40 then some .jcFree else none),
      (arrayIx off 256 8 2).map .jcSlot,
      (arrayIx off 272 8 2).map .jcWear,
      (if off = 512 then some .jcRdseq else none),
      (if off = 520 then some .jcRdbuf else none),
      (if off = 528 then some .jcRdctl else none)]
  | 10 => firstSome [
      (if off = 0 then some (.cdlLinksel who) else none),
      (if off = 8 then some .cdlEst else none),
      (if off = 16 then some .cdlCfg else none),
      (arrayIx off 24 8 2).map .cdlRkeys,
      (if off = 40 then some .cdlRpass else none),
      (if off = 48 then some .cdlRpdesc else none),
      (if off = 56 then some .cdlClaim else none),
      (if off = 64 then some .cdlClaimstat else none),
      (if off = 72 then some .cdlPstat else none),
      (if off = 256 ∧ sel < 12 then some (.cdlLctl sel) else none),
      (if off = 264 ∧ sel < 12 then some (.cdlLstat sel) else none),
      (if off = 272 ∧ sel < 12 then some (.cdlLcnt sel) else none),
      (arrayIx off 65536 8 1024).map .cdlRoute]
  | 11 => firstSome [
      (arrayIx off 256 8 16).map .hostFn]
  | 12 => firstSome [
      (if off = 0 then some .pwrLimit else none),
      (if off = 8 then some .pwrPkg else none),
      (if off = 16 then some .pwrReset else none),
      (if off = 24 then some .pwrRstat else none),
      (arrayIx off 4096 8 96).map .pwrDom,
      (arrayIx off 8192 8 32).map .pwrDvfs]
  | 13 => firstSome [
      (if off = 0 then some .clkStat else none)]
  | 14 => firstSome [
      (if off = 0 then some .ageCfg else none),
      (arrayIx off 4096 8 96).map .ageDom]
  | 15 => firstSome [
      (if off = 0 then some (.monSel who) else none),
      (if off = 256 ∧ sel < 32 then some (.monCtl sel) else none),
      (if off = 264 ∧ sel < 32 then some (.monRange sel) else none),
      (if off = 272 ∧ sel < 32 then some (.monLo sel) else none),
      (if off = 280 ∧ sel < 32 then some (.monAlarm sel) else none),
      (if off = 288 ∧ sel < 32 then some (.monMin sel) else none),
      (if off = 296 ∧ sel < 32 then some (.monMax sel) else none),
      (if off = 304 ∧ sel < 32 then some (.monCount sel) else none),
      (if sel < 32 then (arrayIx off 512 8 32).map (.monBin sel) else none)]
  | 16 => firstSome [
      (if off = 0 then some .depCfg else none),
      (if off = 8 then some .depStat else none),
      (if off = 16 then some .depRetire else none),
      (arrayIx off 256 8 24).map .depPair,
      (arrayIx off 65536 32 1024).map .depRec,
      (arrayIx off 65544 32 1024).map .depFirst,
      (arrayIx off 65552 32 1024).map .depLast,
      (arrayIx off 65560 32 1024).map .depDetail]
  | 17 => firstSome [
      (if off = 0 then some .dbgDenylog else none),
      (arrayIx off 256 8 4).map .dbgBrk,
      (arrayIx off 4096 8 112).map .dbgCorectl]
  | 18 => firstSome [
      (if off = 0 then some .mgtSmb else none),
      (if off = 8 then some .mgtUart else none),
      (if off = 16 then some .mgtUdata else none),
      (if off = 24 then some .mgtMctl else none),
      (if off = 32 then some .mgtFwin else none),
      (if off = 40 then some .mgtFlcmd else none),
      (arrayIx off 4096 8 32).map .mgtRxbuf,
      (arrayIx off 4352 8 32).map .mgtTxbuf,
      (arrayIx off 4608 8 32).map .mgtFlbuf]
  | 19 => firstSome [
      (if off = 0 then some .mcsSrc else none),
      (if off = 8 then some .mcsLoadreq else none),
      (if off = 16 then some .mcsStat else none),
      (arrayIx off 4096 8 112).map .mcsCore]
  | _ => none

/-- The select register of a block, for the blocks that have one. -/
def selectOf (code : Nat) (who : Requester) : Option Reg :=
  match code with
  | 4 => some (.memPcsel who)
  | 6 => some (.ingLanesel who)
  | 8 => some (.keyEngsel who)
  | 10 => some (.cdlLinksel who)
  | 15 => some (.monSel who)
  | _ => none

end Sys2Proof.Machine
end

