-- ==== Sys2Proof/Syntax.lean ====
section
/-! DEFINITION. Syntax: the commands of the device, one constructor per row of spec/opcode_table.json.
A core instruction carries its header (core, context, guard, WIDE payload) and its operand fields as the
encoding of "Instruction encoding, addressing and distances" lays them out; every other command carries what its
row names. -/

namespace Sys2Proof

/-- The commands of the device. The docstring of each constructor names its row and the rule of the row. -/
inductive Instr where
  /-- ADD (R177): Integer add of two registers, wrapping modulo 2^64. -/
  | add (h : Hdr) (rd : Nat) (ra : Nat) (rb : Nat)
  /-- SUB (R177): Integer subtract of two registers, wrapping. -/
  | sub (h : Hdr) (rd : Nat) (ra : Nat) (rb : Nat)
  /-- AND (R177): Bitwise AND of two registers. -/
  | and (h : Hdr) (rd : Nat) (ra : Nat) (rb : Nat)
  /-- OR (R177): Bitwise OR of two registers. -/
  | or (h : Hdr) (rd : Nat) (ra : Nat) (rb : Nat)
  /-- XOR (R177): Bitwise XOR of two registers. -/
  | xor (h : Hdr) (rd : Nat) (ra : Nat) (rb : Nat)
  /-- ANDN (R177): a AND NOT b. -/
  | andn (h : Hdr) (rd : Nat) (ra : Nat) (rb : Nat)
  /-- SLL (R177): Logical left shift by a register amount. -/
  | sll (h : Hdr) (rd : Nat) (ra : Nat) (rb : Nat)
  /-- SRL (R177): Logical right shift by a register amount. -/
  | srl (h : Hdr) (rd : Nat) (ra : Nat) (rb : Nat)
  /-- SRA (R177): Arithmetic right shift by a register amount. -/
  | sra (h : Hdr) (rd : Nat) (ra : Nat) (rb : Nat)
  /-- ROR (R177): Rotate right by a register amount. -/
  | ror (h : Hdr) (rd : Nat) (ra : Nat) (rb : Nat)
  /-- MIN (R177): Signed minimum. -/
  | min (h : Hdr) (rd : Nat) (ra : Nat) (rb : Nat)
  /-- MAX (R177): Signed maximum. -/
  | max (h : Hdr) (rd : Nat) (ra : Nat) (rb : Nat)
  /-- MINU (R177): Unsigned minimum. -/
  | minu (h : Hdr) (rd : Nat) (ra : Nat) (rb : Nat)
  /-- MAXU (R177): Unsigned maximum. -/
  | maxu (h : Hdr) (rd : Nat) (ra : Nat) (rb : Nat)
  /-- CLZ (R177): Count leading zero bits. -/
  | clz (h : Hdr) (rd : Nat) (ra : Nat)
  /-- CTZ (R177): Count trailing zero bits. -/
  | ctz (h : Hdr) (rd : Nat) (ra : Nat)
  /-- POPC (R177): Count one bits. -/
  | popc (h : Hdr) (rd : Nat) (ra : Nat)
  /-- BSWAP (R177): Reverse the eight bytes of a register. -/
  | bswap (h : Hdr) (rd : Nat) (ra : Nat)
  /-- SEXT (R177): Sign-extend from a selected width. -/
  | sext (h : Hdr) (rd : Nat) (ra : Nat) (sel : Nat)
  /-- ZEXT (R177): Zero-extend from a selected width. -/
  | zext (h : Hdr) (rd : Nat) (ra : Nat) (sel : Nat)
  /-- SLLI (R177): Logical left shift by an immediate. -/
  | slli (h : Hdr) (rd : Nat) (ra : Nat) (sh : Nat)
  /-- SRLI (R177): Logical right shift by an immediate. -/
  | srli (h : Hdr) (rd : Nat) (ra : Nat) (sh : Nat)
  /-- SRAI (R177): Arithmetic right shift by an immediate. -/
  | srai (h : Hdr) (rd : Nat) (ra : Nat) (sh : Nat)
  /-- RORI (R177): Rotate right by an immediate. -/
  | rori (h : Hdr) (rd : Nat) (ra : Nat) (sh : Nat)
  /-- ADDI (R178): Add an immediate. -/
  | addi (h : Hdr) (rd : Nat) (ra : Nat) (imm : Nat)
  /-- ANDI (R178): AND with an immediate. -/
  | andi (h : Hdr) (rd : Nat) (ra : Nat) (imm : Nat)
  /-- ORI (R178): OR with an immediate. -/
  | ori (h : Hdr) (rd : Nat) (ra : Nat) (imm : Nat)
  /-- XORI (R178): XOR with an immediate. -/
  | xori (h : Hdr) (rd : Nat) (ra : Nat) (imm : Nat)
  /-- MOVI (R178): Move an immediate into a register. -/
  | movi (h : Hdr) (rd : Nat) (imm : Nat)
  /-- MOVS (R178): Shift rd left and insert an immediate field. -/
  | movs (h : Hdr) (rd : Nat) (imm : Nat)
  /-- CEQ (R179): Predicate := a = b. -/
  | ceq (h : Hdr) (pd : Nat) (ra : Nat) (rb : Nat)
  /-- CNE (R179): Predicate := a ≠ b. -/
  | cne (h : Hdr) (pd : Nat) (ra : Nat) (rb : Nat)
  /-- CLT (R179): Predicate := signed a < b. -/
  | clt (h : Hdr) (pd : Nat) (ra : Nat) (rb : Nat)
  /-- CGE (R179): Predicate := signed a ≥ b. -/
  | cge (h : Hdr) (pd : Nat) (ra : Nat) (rb : Nat)
  /-- CLTU (R179): Predicate := unsigned a < b. -/
  | cltu (h : Hdr) (pd : Nat) (ra : Nat) (rb : Nat)
  /-- CGEU (R179): Predicate := unsigned a ≥ b. -/
  | cgeu (h : Hdr) (pd : Nat) (ra : Nat) (rb : Nat)
  /-- CTST (R179): Predicate := (a AND b) ≠ 0. -/
  | ctst (h : Hdr) (pd : Nat) (ra : Nat) (rb : Nat)
  /-- CEQI (R179): Predicate := a = immediate. -/
  | ceqi (h : Hdr) (pd : Nat) (ra : Nat) (imm : Nat)
  /-- CNEI (R179): Predicate := a ≠ immediate. -/
  | cnei (h : Hdr) (pd : Nat) (ra : Nat) (imm : Nat)
  /-- CLTI (R179): Predicate := signed a < immediate. -/
  | clti (h : Hdr) (pd : Nat) (ra : Nat) (imm : Nat)
  /-- CGEI (R179): Predicate := signed a ≥ immediate. -/
  | cgei (h : Hdr) (pd : Nat) (ra : Nat) (imm : Nat)
  /-- PAND (R179): Predicate AND. -/
  | pand (h : Hdr) (pd : Nat) (pa : Nat) (pb : Nat)
  /-- POR (R179): Predicate OR. -/
  | por (h : Hdr) (pd : Nat) (pa : Nat) (pb : Nat)
  /-- PXOR (R179): Predicate XOR. -/
  | pxor (h : Hdr) (pd : Nat) (pa : Nat) (pb : Nat)
  /-- PANDN (R179): Predicate AND NOT. -/
  | pandn (h : Hdr) (pd : Nat) (pa : Nat) (pb : Nat)
  /-- PNOT (R179): Predicate NOT. -/
  | pnot (h : Hdr) (pd : Nat) (pa : Nat)
  /-- MUL (R180): Low 64 bits of a product. -/
  | mul (h : Hdr) (rd : Nat) (ra : Nat) (rb : Nat)
  /-- MULH (R180): High 64 bits of a signed product. -/
  | mulh (h : Hdr) (rd : Nat) (ra : Nat) (rb : Nat)
  /-- MULHU (R180): High 64 bits of an unsigned product. -/
  | mulhu (h : Hdr) (rd : Nat) (ra : Nat) (rb : Nat)
  /-- MULHSU (R180): High 64 bits of a signed-by-unsigned product. -/
  | mulhsu (h : Hdr) (rd : Nat) (ra : Nat) (rb : Nat)
  /-- DIV (R180): Signed divide on the shared divider. -/
  | div (h : Hdr) (rd : Nat) (ra : Nat) (rb : Nat)
  /-- DIVU (R180): Unsigned divide on the shared divider. -/
  | divu (h : Hdr) (rd : Nat) (ra : Nat) (rb : Nat)
  /-- REM (R180): Signed remainder. -/
  | rem (h : Hdr) (rd : Nat) (ra : Nat) (rb : Nat)
  /-- REMU (R180): Unsigned remainder. -/
  | remu (h : Hdr) (rd : Nat) (ra : Nat) (rb : Nat)
  /-- DIVIDER_RESULT (R180): A waited divide or square-root result becomes present and releases its consumer. -/
  | dividerResult (core : Nat)
  /-- FADD (R183): Float add. -/
  | fadd (h : Hdr) (f : Bool) (rd : Nat) (ra : Nat) (rb : Nat)
  /-- FSUB (R183): Float subtract. -/
  | fsub (h : Hdr) (f : Bool) (rd : Nat) (ra : Nat) (rb : Nat)
  /-- FMUL (R183): Float multiply. -/
  | fmul (h : Hdr) (f : Bool) (rd : Nat) (ra : Nat) (rb : Nat)
  /-- FDIV (R183): Float divide, waited. -/
  | fdiv (h : Hdr) (f : Bool) (rd : Nat) (ra : Nat) (rb : Nat)
  /-- FSQRT (R183): Float square root, waited. -/
  | fsqrt (h : Hdr) (f : Bool) (rd : Nat) (ra : Nat)
  /-- FMIN (R183): IEEE minimumNumber. -/
  | fmin (h : Hdr) (f : Bool) (rd : Nat) (ra : Nat) (rb : Nat)
  /-- FMAX (R183): IEEE maximumNumber. -/
  | fmax (h : Hdr) (f : Bool) (rd : Nat) (ra : Nat) (rb : Nat)
  /-- FMAC (R183): Fused multiply-accumulate. -/
  | fmac (h : Hdr) (f : Bool) (rd : Nat) (ra : Nat) (rb : Nat)
  /-- FCEQ (R183): Predicate := float equal. -/
  | fceq (h : Hdr) (f : Bool) (pd : Nat) (ra : Nat) (rb : Nat)
  /-- FCLT (R183): Predicate := float less. -/
  | fclt (h : Hdr) (f : Bool) (pd : Nat) (ra : Nat) (rb : Nat)
  /-- FCLE (R183): Predicate := float less or equal. -/
  | fcle (h : Hdr) (f : Bool) (pd : Nat) (ra : Nat) (rb : Nat)
  /-- FCUN (R183): Predicate := unordered. -/
  | fcun (h : Hdr) (f : Bool) (pd : Nat) (ra : Nat) (rb : Nat)
  /-- FNEG (R183): Invert the sign. -/
  | fneg (h : Hdr) (f : Bool) (rd : Nat) (ra : Nat)
  /-- FABS (R183): Clear the sign. -/
  | fabs (h : Hdr) (f : Bool) (rd : Nat) (ra : Nat)
  /-- FCLASS (R183): Classify a float value. -/
  | fclass (h : Hdr) (f : Bool) (rd : Nat) (ra : Nat)
  /-- FCVTIF (R183): Signed integer to float. -/
  | fcvtif (h : Hdr) (f : Bool) (rd : Nat) (ra : Nat)
  /-- FCVTUF (R183): Unsigned integer to float. -/
  | fcvtuf (h : Hdr) (f : Bool) (rd : Nat) (ra : Nat)
  /-- FCVTFI (R183): Float to signed integer, truncated. -/
  | fcvtfi (h : Hdr) (f : Bool) (rd : Nat) (ra : Nat)
  /-- FCVTFIR (R183): Float to signed integer, rounded. -/
  | fcvtfir (h : Hdr) (f : Bool) (rd : Nat) (ra : Nat)
  /-- FCVTFU (R183): Float to unsigned integer, truncated. -/
  | fcvtfu (h : Hdr) (f : Bool) (rd : Nat) (ra : Nat)
  /-- FCVTFF (R183): Convert between binary32 and binary64. -/
  | fcvtff (h : Hdr) (f : Bool) (rd : Nat) (ra : Nat)
  /-- LDB (R186): Signed byte load. -/
  | ldb (h : Hdr) (t : Nat) (m : MemOp)
  /-- LDH (R186): Signed halfword load. -/
  | ldh (h : Hdr) (t : Nat) (m : MemOp)
  /-- LDW (R186): Signed word load. -/
  | ldw (h : Hdr) (t : Nat) (m : MemOp)
  /-- LD (R186): 64-bit load through a capability with all checks of R52. -/
  | ld (h : Hdr) (t : Nat) (m : MemOp)
  /-- LDBU (R186): Unsigned byte load. -/
  | ldbu (h : Hdr) (t : Nat) (m : MemOp)
  /-- LDHU (R186): Unsigned halfword load. -/
  | ldhu (h : Hdr) (t : Nat) (m : MemOp)
  /-- LDWU (R186): Unsigned word load. -/
  | ldwu (h : Hdr) (t : Nat) (m : MemOp)
  /-- STB (R186): Byte store, tag INT. -/
  | stb (h : Hdr) (t : Nat) (m : MemOp)
  /-- STH (R186): Halfword store, tag INT. -/
  | sth (h : Hdr) (t : Nat) (m : MemOp)
  /-- STW (R186): Word store, tag INT. -/
  | stw (h : Hdr) (t : Nat) (m : MemOp)
  /-- ST (R186): 64-bit store, tag INT. -/
  | st (h : Hdr) (t : Nat) (m : MemOp)
  /-- LDF32 (R186): binary32 load. -/
  | ldf32 (h : Hdr) (t : Nat) (m : MemOp)
  /-- LDF64 (R186): binary64 load. -/
  | ldf64 (h : Hdr) (t : Nat) (m : MemOp)
  /-- STF32 (R186): binary32 store, tag FLT. -/
  | stf32 (h : Hdr) (t : Nat) (m : MemOp)
  /-- STF64 (R186): binary64 store, tag FLT. -/
  | stf64 (h : Hdr) (t : Nat) (m : MemOp)
  /-- LDC (R58): Capability load judging the two word tags. -/
  | ldc (h : Hdr) (t : Nat) (m : MemOp)
  /-- STC (R59): Capability store writing CAPLO/CAPHI or INT tags. -/
  | stc (h : Hdr) (t : Nat) (m : MemOp)
  /-- LDRES (R192): Load and set the context's data reservation. -/
  | ldres (h : Hdr) (t : Nat) (cb : Nat)
  /-- STCOND (R193): Conditional store under the reservation, writing a status predicate. -/
  | stcond (h : Hdr) (t : Nat) (cb : Nat) (pd : Nat)
  /-- LDRESC (R192): Capability load setting a capability reservation. -/
  | ldresc (h : Hdr) (t : Nat) (cb : Nat)
  /-- STCONDC (R193): Conditional capability store. -/
  | stcondc (h : Hdr) (t : Nat) (cb : Nat) (pd : Nat)
  /-- GETTAG (R197): Read the tag of an aligned word. -/
  | gettag (h : Hdr) (t : Nat) (m : MemOp)
  /-- CLEARTAG (R63): Resumable clear of a range to UNINIT. -/
  | cleartag (h : Hdr) (t : Nat) (cb : Nat)
  /-- CLEARTAGP (R63): Resumable fill of a range with POISON. -/
  | cleartagp (h : Hdr) (t : Nat) (cb : Nat)
  /-- CPYT (R64): Tagged copy under REP, capability pairs whole. -/
  | cpyt (h : Hdr) (rep : Bool) (cs : Nat) (cb : Nat)
  /-- BR (R199): Relative branch. -/
  | br (h : Hdr) (off : Nat)
  /-- CALL (R199): Relative call pushing a CALL record. -/
  | call (h : Hdr) (off : Nat)
  /-- JMP (R199): Jump through a capability. -/
  | jmp (h : Hdr) (ca : Nat)
  /-- CALLC (R199): Call through a capability. -/
  | callc (h : Hdr) (ca : Nat)
  /-- RET (R79): Pop a CALL, PASS or remote-PASS record and return. -/
  | ret (h : Hdr)
  /-- JMPX (R199): Jump to PCC plus a register offset. -/
  | jmpx (h : Hdr) (src : Nat)
  /-- MFS (R202): Read a state register. -/
  | mfs (h : Hdr) (num : Nat) (rd : Nat) (rn : Nat)
  /-- MTS (R202): Write a state register, effective at distance 3. -/
  | mts (h : Hdr) (num : Nat) (src : Nat) (rn : Nat)
  /-- MFSC (R202): Read a capability state register. -/
  | mfsc (h : Hdr) (num : Nat) (cd : Nat)
  /-- MTSC (R202): Write a capability state register. -/
  | mtsc (h : Hdr) (num : Nat) (ca : Nat)
  /-- LOOP (R159): Set up a hardware loop level. -/
  | loop (h : Hdr) (lvl : Nat) (imm : Bool) (len : Nat) (count : Nat)
  /-- REP_ELEMENT (R164): One element of a REP instruction, decrementing RPT.COUNT; interruptible between elements. -/
  | repElement (h : Hdr) (i : Instr)
  /-- CSTEP (R209): Add to a capability cursor. -/
  | cstep (h : Hdr) (cd : Nat) (ca : Nat) (gs : Nat)
  /-- CAIM (R209): Replace a capability cursor. -/
  | caim (h : Hdr) (cd : Nat) (ca : Nat) (gs : Nat)
  /-- CTRIM (R39): Narrow bounds with rounding. -/
  | ctrim (h : Hdr) (cd : Nat) (ca : Nat) (gs : Nat)
  /-- CTRIMX (R40): Narrow bounds exactly. -/
  | ctrimx (h : Hdr) (cd : Nat) (ca : Nat) (gs : Nat)
  /-- CSTRIP (R209): Remove permissions. -/
  | cstrip (h : Hdr) (cd : Nat) (ca : Nat) (gs : Nat)
  /-- CTETHER (R209): Set LOCAL. -/
  | ctether (h : Hdr) (cd : Nat) (ca : Nat)
  /-- CCOPY (R209): Copy a capability register with its tag. -/
  | ccopy (h : Hdr) (cd : Nat) (ca : Nat)
  /-- CVOID (R209): Copy a capability with its tag cleared. -/
  | cvoid (h : Hdr) (cd : Nat) (ca : Nat)
  /-- CRDCUR (R209): Read the cursor. -/
  | crdcur (h : Hdr) (ca : Nat) (gd : Nat)
  /-- CRDBASE (R209): Read the decoded base. -/
  | crdbase (h : Hdr) (ca : Nat) (gd : Nat)
  /-- CRDLEN (R209): Read the decoded length. -/
  | crdlen (h : Hdr) (ca : Nat) (gd : Nat)
  /-- CRDPERM (R209): Read the permissions. -/
  | crdperm (h : Hdr) (ca : Nat) (gd : Nat)
  /-- CRDTYPE (R209): Read the object type. -/
  | crdtype (h : Hdr) (ca : Nat) (gd : Nat)
  /-- CRDFLAG (R209): Read tag, LOCAL, WORLD and validity flags. -/
  | crdflag (h : Hdr) (ca : Nat) (gd : Nat)
  /-- CRDHI (R209): Read the second word. -/
  | crdhi (h : Hdr) (ca : Nat) (gd : Nat)
  /-- CCLOSE (R49): Seal a capability. -/
  | cclose (h : Hdr) (cd : Nat) (ca : Nat) (cs : Nat)
  /-- COPEN (R50): Unseal a capability. -/
  | copen (h : Hdr) (cd : Nat) (ca : Nat) (cs : Nat)
  /-- CKDROP (R210): Narrow a key-object capability. -/
  | ckdrop (h : Hdr) (cd : Nat) (ca : Nat) (gs : Nat)
  /-- PASS (R77): Call a compartment through a sealed gate. -/
  | pass (h : Hdr) (ca : Nat)
  /-- PASSR (R213): Read-only form of PASS. -/
  | passr (h : Hdr) (ca : Nat)
  /-- CROSS (R91): Issue a request to a service queue of the other world and wait. -/
  | cross (h : Hdr) (ca : Nat)
  /-- XREPLY (R94): End a CROSS service and deliver the reply to the caller. -/
  | xreply (h : Hdr)
  /-- ASCEND (R84): Enter supervisor level through the ASC registers. -/
  | ascend (h : Hdr)
  /-- DESCEND (R85): Return to user level through ASC.RET. -/
  | descend (h : Hdr)
  /-- ERET (R217): Return from an exception under the ceiling. -/
  | eret (h : Hdr)
  /-- FENCE (R218): Full memory barrier. -/
  | fence (h : Hdr)
  /-- FENCESL (R218): Store-to-load barrier. -/
  | fencesl (h : Hdr)
  /-- ISYNC (R218): Instruction synchronisation barrier. -/
  | isync (h : Hdr)
  /-- TLBIV (R219): Invalidate a global-space page on this core. -/
  | tlbiv (h : Hdr) (gs : Nat)
  /-- TLBIVS (R219): Invalidate a sealed-space page on this core. -/
  | tlbivs (h : Hdr) (gs : Nat)
  /-- TLBIVD (R219): Invalidate a global-space page on every core. -/
  | tlbivd (h : Hdr) (gs : Nat)
  /-- TLBIVSD (R219): Invalidate a sealed-space page on every sealed core. -/
  | tlbivsd (h : Hdr) (gs : Nat)
  /-- TLBIALL (R219): Invalidate every TLB entry of this core. -/
  | tlbiall (h : Hdr)
  /-- TLBIALLD (R219): Invalidate every TLB entry of every core. -/
  | tlbialld (h : Hdr)
  /-- HANDLER_END (R221): Commit the transaction, append the record, hand the response to egress and release the context. -/
  | handlerEnd (h : Hdr) (ca : Nat) (gs : Nat)
  /-- SAVEL (R127): Save the lower half of a context to the save chain. -/
  | savel (h : Hdr)
  /-- SAVEH (R128): Save the upper half with the ring. -/
  | saveh (h : Hdr)
  /-- LOADL (R130): Restore the lower half. -/
  | loadl (h : Hdr)
  /-- LOADH (R128): Restore the upper half. -/
  | loadh (h : Hdr)
  /-- VSPILL (R135): Write the vector file to the area VHOLD names. -/
  | vspill (h : Hdr)
  /-- VFILL (R135): Load or zero the vector file from VAREA. -/
  | vfill (h : Hdr)
  /-- KCMD (R223): Check and issue a key-engine command block. -/
  | kcmd (h : Hdr) (cd : Nat) (ca : Nat) (gd : Nat)
  /-- KCMD_STATUS (R224): The engine's status arrives and ends the KCMD wait. -/
  | kcmdStatus
  /-- VADD (R229): Vector add. -/
  | vadd (h : Hdr) (es : Nat) (vd : Nat) (va : Nat) (vb : Nat)
  /-- VSUB (R229): Vector subtract. -/
  | vsub (h : Hdr) (es : Nat) (vd : Nat) (va : Nat) (vb : Nat)
  /-- VAND (R229): Vector AND. -/
  | vand (h : Hdr) (es : Nat) (vd : Nat) (va : Nat) (vb : Nat)
  /-- VOR (R229): Vector OR. -/
  | vor (h : Hdr) (es : Nat) (vd : Nat) (va : Nat) (vb : Nat)
  /-- VXOR (R229): Vector XOR. -/
  | vxor (h : Hdr) (es : Nat) (vd : Nat) (va : Nat) (vb : Nat)
  /-- VANDN (R229): Vector AND NOT. -/
  | vandn (h : Hdr) (es : Nat) (vd : Nat) (va : Nat) (vb : Nat)
  /-- VSLL (R229): Vector left shift. -/
  | vsll (h : Hdr) (es : Nat) (vd : Nat) (va : Nat) (vb : Nat)
  /-- VSRL (R229): Vector logical right shift. -/
  | vsrl (h : Hdr) (es : Nat) (vd : Nat) (va : Nat) (vb : Nat)
  /-- VSRA (R229): Vector arithmetic right shift. -/
  | vsra (h : Hdr) (es : Nat) (vd : Nat) (va : Nat) (vb : Nat)
  /-- VMIN (R229): Vector signed minimum. -/
  | vmin (h : Hdr) (es : Nat) (vd : Nat) (va : Nat) (vb : Nat)
  /-- VMAX (R229): Vector signed maximum. -/
  | vmax (h : Hdr) (es : Nat) (vd : Nat) (va : Nat) (vb : Nat)
  /-- VMINU (R229): Vector unsigned minimum. -/
  | vminu (h : Hdr) (es : Nat) (vd : Nat) (va : Nat) (vb : Nat)
  /-- VMAXU (R229): Vector unsigned maximum. -/
  | vmaxu (h : Hdr) (es : Nat) (vd : Nat) (va : Nat) (vb : Nat)
  /-- VADDS (R229): Vector signed saturating add. -/
  | vadds (h : Hdr) (es : Nat) (vd : Nat) (va : Nat) (vb : Nat)
  /-- VADDSU (R229): Vector unsigned saturating add. -/
  | vaddsu (h : Hdr) (es : Nat) (vd : Nat) (va : Nat) (vb : Nat)
  /-- VSUBS (R229): Vector signed saturating subtract. -/
  | vsubs (h : Hdr) (es : Nat) (vd : Nat) (va : Nat) (vb : Nat)
  /-- VSUBSU (R229): Vector unsigned saturating subtract. -/
  | vsubsu (h : Hdr) (es : Nat) (vd : Nat) (va : Nat) (vb : Nat)
  /-- VABSD (R229): Vector absolute difference. -/
  | vabsd (h : Hdr) (es : Nat) (vd : Nat) (va : Nat) (vb : Nat)
  /-- VMUL (R229): Vector multiply, low half. -/
  | vmul (h : Hdr) (es : Nat) (vd : Nat) (va : Nat) (vb : Nat)
  /-- VMULH (R229): Vector multiply, signed high half. -/
  | vmulh (h : Hdr) (es : Nat) (vd : Nat) (va : Nat) (vb : Nat)
  /-- VBCAST (R229): Broadcast a general register into a vector. -/
  | vbcast (h : Hdr) (es : Nat) (vd : Nat) (ra : Nat)
  /-- VFADD (R230): Vector float add. -/
  | vfadd (h : Hdr) (f : Bool) (vd : Nat) (va : Nat) (vb : Nat)
  /-- VFSUB (R230): Vector float subtract. -/
  | vfsub (h : Hdr) (f : Bool) (vd : Nat) (va : Nat) (vb : Nat)
  /-- VFMUL (R230): Vector float multiply. -/
  | vfmul (h : Hdr) (f : Bool) (vd : Nat) (va : Nat) (vb : Nat)
  /-- VFMAC (R230): Vector fused multiply-accumulate. -/
  | vfmac (h : Hdr) (f : Bool) (vd : Nat) (va : Nat) (vb : Nat)
  /-- VFMIN (R230): Vector float minimum. -/
  | vfmin (h : Hdr) (f : Bool) (vd : Nat) (va : Nat) (vb : Nat)
  /-- VFMAX (R230): Vector float maximum. -/
  | vfmax (h : Hdr) (f : Bool) (vd : Nat) (va : Nat) (vb : Nat)
  /-- VFNEG (R230): Vector float negate. -/
  | vfneg (h : Hdr) (f : Bool) (vd : Nat) (va : Nat)
  /-- VFABS (R230): Vector float absolute value. -/
  | vfabs (h : Hdr) (f : Bool) (vd : Nat) (va : Nat)
  /-- VFCVTIF (R230): Vector integer to float. -/
  | vfcvtif (h : Hdr) (f : Bool) (vd : Nat) (va : Nat)
  /-- VFCVTFI (R230): Vector float to integer, truncated. -/
  | vfcvtfi (h : Hdr) (f : Bool) (vd : Nat) (va : Nat)
  /-- VFCVTFIR (R230): Vector float to integer, rounded. -/
  | vfcvtfir (h : Hdr) (f : Bool) (vd : Nat) (va : Nat)
  /-- VDOT8 (R231): Signed int8 dot product into 32-bit lanes. -/
  | vdot8 (h : Hdr) (vd : Nat) (va : Nat) (vb : Nat)
  /-- VDOT8US (R231): Unsigned-by-signed int8 dot product. -/
  | vdot8us (h : Hdr) (vd : Nat) (va : Nat) (vb : Nat)
  /-- VDOT16 (R231): int16 dot product. -/
  | vdot16 (h : Hdr) (vd : Nat) (va : Nat) (vb : Nat)
  /-- VMAC (R231): Vector integer multiply-accumulate. -/
  | vmac (h : Hdr) (es : Nat) (vd : Nat) (va : Nat) (vb : Nat)
  /-- VPERM (R232): Byte permute. -/
  | vperm (h : Hdr) (vd : Nat) (va : Nat) (vb : Nat)
  /-- VREDADD (R232): Sum reduction. -/
  | vredadd (h : Hdr) (es : Nat) (rd : Nat) (va : Nat)
  /-- VREDMIN (R232): Signed minimum reduction. -/
  | vredmin (h : Hdr) (es : Nat) (rd : Nat) (va : Nat)
  /-- VREDMAX (R232): Signed maximum reduction. -/
  | vredmax (h : Hdr) (es : Nat) (rd : Nat) (va : Nat)
  /-- VREDMINU (R232): Unsigned minimum reduction. -/
  | vredminu (h : Hdr) (es : Nat) (rd : Nat) (va : Nat)
  /-- VREDMAXU (R232): Unsigned maximum reduction. -/
  | vredmaxu (h : Hdr) (es : Nat) (rd : Nat) (va : Nat)
  /-- VFREDADD (R232): Ordered float sum reduction. -/
  | vfredadd (h : Hdr) (f : Bool) (rd : Nat) (va : Nat)
  /-- VEXT (R232): Extract an element to a general register. -/
  | vext (h : Hdr) (es : Nat) (rd : Nat) (va : Nat) (rb : Nat)
  /-- VINS (R232): Insert a general register into an element. -/
  | vins (h : Hdr) (es : Nat) (vd : Nat) (ra : Nat) (rb : Nat)
  /-- VCEQ (R233): Vector compare equal. -/
  | vceq (h : Hdr) (es : Nat) (vd : Nat) (va : Nat) (vb : Nat)
  /-- VCLT (R233): Vector compare signed less. -/
  | vclt (h : Hdr) (es : Nat) (vd : Nat) (va : Nat) (vb : Nat)
  /-- VCLTU (R233): Vector compare unsigned less. -/
  | vcltu (h : Hdr) (es : Nat) (vd : Nat) (va : Nat) (vb : Nat)
  /-- VFCEQ (R233): Vector float compare equal. -/
  | vfceq (h : Hdr) (f : Bool) (vd : Nat) (va : Nat) (vb : Nat)
  /-- VFCLT (R233): Vector float compare less. -/
  | vfclt (h : Hdr) (f : Bool) (vd : Nat) (va : Nat) (vb : Nat)
  /-- VSEL (R233): Vector select. -/
  | vsel (h : Hdr) (es : Nat) (vd : Nat) (va : Nat) (vb : Nat)
  /-- VANY (R233): Predicate := some active byte non-zero. -/
  | vany (h : Hdr) (pd : Nat) (va : Nat)
  /-- VALL (R233): Predicate := every active byte non-zero. -/
  | vall (h : Hdr) (pd : Nat) (va : Nat)
  /-- VSETVL (R228): Set the active vector length. -/
  | vsetvl (h : Hdr) (es : Nat) (rd : Nat) (ra : Nat)
  /-- VLD (R234): Vector load of VL bytes. -/
  | vld (h : Hdr) (t : Nat) (m : MemOp)
  /-- VST (R234): Vector store, tag INT. -/
  | vst (h : Hdr) (t : Nat) (m : MemOp)
  /-- VSTF (R234): Vector store, tag FLT. -/
  | vstf (h : Hdr) (t : Nat) (m : MemOp)
  /-- GATHER (R237): Atomic indexed load of up to 16 elements. -/
  | gather (h : Hdr) (es : Bool) (sc : Nat) (sgn : Bool) (ft : Bool) (vd : Nat) (va : Nat) (cb : Nat)
  /-- SCATTER (R237): Atomic indexed store of up to 16 elements. -/
  | scatter (h : Hdr) (es : Bool) (sc : Nat) (sgn : Bool) (ft : Bool) (vd : Nat) (va : Nat) (cb : Nat)
  /-- MV_REREAD (R361): Walker rereads word 0 every 64 mesh cycles while MV is set. -/
  | mvReread (n : Nat) (k : Nat)
  /-- MV_WAIT_TIMEOUT (R354): MV still set 20 µs after the match raises WALK_ERROR reason 4. -/
  | mvWaitTimeout (n : Nat) (k : Nat)
  /-- INTERRUPT_REPORT (R266): A block's report counts and pends or defers a source. -/
  | interruptReport (n : Nat)
  /-- HOLD_END (R266): A source's hold time ends and a deferred report becomes pending. -/
  | holdEnd (n : Nat)
  /-- INTERRUPT_ACCEPT (R266): A target accepts its best acceptable source at an instruction boundary. -/
  | interruptAccept (n : Nat) (k : Nat)
  /-- EOI (R267): Write of INTC.TGT EOI ends the highest active source. -/
  | eoi (q : Requester) (t : Nat) (v : Word)
  /-- CNTSUB (R270): Write subtracting from a source's count. -/
  | cntsub (q : Requester) (n : Nat) (v : Word)
  /-- PEND_WITHDRAW (R270): W1C of PEND withdraws a pending source. -/
  | pendWithdraw (q : Requester) (n : Nat) (v : Word)
  /-- DOORBELL (R270): Write of INTC.DOORBELL reports source 616 + d. -/
  | doorbell (q : Requester) (v : Word)
  /-- TIMER_COMPARE (R270): NOW reaches TMR CMP: one report and CMP reset. -/
  | timerCompare (k : Nat)
  /-- MASKLIMIT_EXPIRY (R257): A held machine check waits past MASKLIMIT and the core resets. -/
  | masklimitExpiry (n : Nat)
  /-- BUSERR_ASYNC (R258): A bus error response to a store is taken as an MA cause. -/
  | buserrAsync (n : Nat) (k : Nat)
  /-- HANDLER_WATCHDOG (R437): Watchdog expiry discards the transaction and raises the cause. -/
  | handlerWatchdog (n : Nat) (k : Nat)
  /-- FAR_DATA_ARRIVAL (R287): Far data or acknowledgement arrives at the pair and releases issue. -/
  | farDataArrival (n : Nat)
  /-- PREFETCH_READ (R276): TCM port reads a word into the prefetch queue. -/
  | prefetchRead (n : Nat)
  /-- STORE_BUFFER_WRITE (R282): Oldest store-buffer entry leaves to the TCM or far memory. -/
  | storeBufferWrite (n : Nat)
  /-- TCM_WRITE_FROM_OUTSIDE (R296): A write from outside the pair is applied to both TCMs. -/
  | tcmWriteFromOutside (n : Nat) (pa : Nat) (data : Nat) (mask : Nat)
  /-- PAIR_SELF_TEST (R540): Self-test of a reset pair completes with pass or SELFTEST_FAIL. -/
  | pairSelfTest (p : Nat) (pass : Bool)
  /-- PAIR_TCM_RELOAD (R540): IMG reloads the pair's TCMs and the pair restarts. -/
  | pairTcmReload (p : Nat)
  /-- CS_PARITY_CORRECTION (R321): MCS rewrites a word that failed parity in one copy. -/
  | csParityCorrection (core : Nat) (micro : Nat) (nano : Nat) (isNano : Bool) (both : Bool) (routine : Nat)
  /-- MCS_LOADREQ (R326): Write of MCS.LOADREQ starts a control-store load. -/
  | mcsLoadreq (q : Requester) (v : Word)
  /-- MCS_LOAD_COMPLETE (R327): A control-store load finishes with its ERR result. -/
  | mcsLoadComplete (readback : Bool)
  /-- HEAT_DECAY (R399): DECAY period halves every heat field. -/
  | heatDecay
  /-- PLACEMENT_MOVE (R353): Placement engine moves an unpinned frame to a pool frame. -/
  | placementMove (f : Nat)
  /-- GIVE (R402): Write of PLE.GIVE adds a frame to a pool or rejects it. -/
  | give (q : Requester) (v : Word)
  /-- TAKE (R404): Read of PLE.TAKE removes a frame from a pool. -/
  | take (q : Requester) (t : Nat)
  /-- OVF_READ (R402): Read of PLE.OVF removes the oldest overflow frame. -/
  | ovfRead (q : Requester)
  /-- CE_WRITEBACK (R387): Corrected line written back with FIXED set. -/
  | ceWriteback (a : Nat) (d : Bool)
  /-- SCRUB_READ (R389): Scrub reads a line in an idle slot. -/
  | scrubRead (pc : Nat) (f : Nat)
  /-- ROW_SPARING (R390): A row is copied into a spare row and redirected. -/
  | rowSparing (pc : Nat) (row : Nat)
  /-- RETRAINING (R391): A calibration step of a pseudo-channel's interface. -/
  | retraining (pc : Nat) (fin : Nat)
  /-- CALNOW (R391): Write of MEM.PCCTL.CALNOW starts a retraining. -/
  | calnow (q : Requester) (v : Word)
  /-- RETIRE (R394): Write of MEM.PCCTL.RETIRE starts pseudo-channel retirement. -/
  | retire (q : Requester) (v : Word)
  /-- DRAINING_COPY (R395): Copy of one slot of a retiring pseudo-channel into its region. -/
  | drainingCopy (pc : Nat)
  /-- RETDONE (R395): The retirement copy completes and the pseudo-channel is RETIRED. -/
  | retdone (pc : Nat)
  /-- ADV (R370): Write of RDG.EPOCH.ADV starts or queues an epoch advance. -/
  | adv (q : Requester) (v : Word)
  /-- EPOCH_ADVANCE_COMPLETE (R370): Accesses checked before the advance finish; CUR increments. -/
  | epochAdvanceComplete
  /-- DBG_ACCESS (R372): A debug-port memory or register access, Ridge-checked or denied. -/
  | dbgAccess (write : Bool) (a : Nat) (v : Word) (mask : Nat)
  /-- HALT (R374): Write of DBG.CORECTL.HALT requests or releases a halt. -/
  | halt (q : Requester) (n : Nat) (v : Word)
  /-- STEP (R374): Write of DBG.CORECTL.STEP sets or clears single step. -/
  | step (q : Requester) (n : Nat) (v : Word)
  /-- CORE_HALTED (R374): A core honours a halt at its next boundary. -/
  | coreHalted (n : Nat)
  /-- LANE_DOORBELL (R410): A PCIe function writes a lane's TAIL through BAR0. -/
  | laneDoorbell (f : Nat) (l : Nat) (v : Word)
  /-- RING_DESCRIPTOR_READ (R409): A lane reads the descriptor at HEAD and fetches its frame. -/
  | ringDescriptorRead (l : Nat)
  /-- FRAME_LANDING (R409): A frame's last byte lands and it enters its slot. -/
  | frameLanding (l : Nat)
  /-- LANE_STALL (R409): A lane has waited 1 ms for a free slot. -/
  | laneStall (l : Nat)
  /-- FORMAT_FETCH (R417): Parser fetches and checks a format into the cache. -/
  | formatFetch
  /-- FLOAD (R420): Write of ING.FLOAD makes a format resident. -/
  | fload (q : Requester) (v : Word)
  /-- PARSE (R415): Parser executes a frame's descriptors into the field record. -/
  | parse
  /-- HANDLER_START (R428): A frame starts on an idle context of a chosen pair. -/
  | handlerStart
  /-- DEADLINE (R425): A queued frame misses its deadline and ends. -/
  | deadline (slot : Nat)
  /-- ABORT_REDISPATCH (R435): TXCTL.ABORT = 1 discards the transaction and redispatches. -/
  | abortRedispatch (n : Nat) (k : Nat)
  /-- ABORT_END (R435): TXCTL.ABORT = 2 discards and ends the frame ABORTED. -/
  | abortEnd (n : Nat) (k : Nat)
  /-- ABORT_RELEASE (R436): TXCTL.ABORT = 3 releases the context. -/
  | abortRelease (n : Nat) (k : Nat)
  /-- RECORD_SEALING (R466): JC seals a record with AES-GCM and stages it. -/
  | recordSealing
  /-- APPEND (R470): Staged entries appended to each cartridge after 4 µs or 64 KiB. -/
  | append
  /-- CARTRIDGE_ACK (R469): A cartridge acknowledges a write; DURSEQ advances. -/
  | cartridgeAck (j : Nat) (a : Nat)
  /-- JOURNAL_STALL (R479): No slot in MIRROR acknowledges for 1 ms and the journal stalls. -/
  | journalStall
  /-- SLOT_UNANSWERED (R468): A slot silent for 1 ms while another answers becomes FAILED. -/
  | slotUnanswered (j : Nat)
  /-- MEDIA_ERROR (R468): A cartridge media error fails its slot. -/
  | mediaError (j : Nat)
  /-- RESPONSE_RELEASE (R484): Egress releases a response into a posted completion buffer. -/
  | responseRelease (l : Nat)
  /-- POST_BUFFER (R484): A PCIe function writes a completion ring TAIL. -/
  | postBuffer (f : Nat) (l : Nat) (v : Word)
  /-- RESPONSE_BUFFER_WAIT (R484): A response waits 1 ms for a posted buffer. -/
  | responseBufferWait (l : Nat)
  /-- CARTRIDGE_INSERT (R618): CART_PRSNT_N goes low; power-up sequence to ATTEST. -/
  | cartridgeInsert (j : Nat) (c : Cart)
  /-- CARTRIDGE_REMOVE (R618): CART_PRSNT_N goes high; port held in reset. -/
  | cartridgeRemove (j : Nat)
  /-- ATTESTATION (R475): A cartridge's chain and challenge signature are verified. -/
  | attestation (j : Nat)
  /-- ATTESTATION_TIMEOUT (R475): A cartridge does not answer within 1 s. -/
  | attestationTimeout (j : Nat)
  /-- WEAR_READ (R476): Every 10 s JC reads bytes written and updates EOLDAYS. -/
  | wearRead
  /-- RELEASE (R477): Write of JC.SLOT.RELEASE stops appends and fails the slot. -/
  | release (q : Requester) (j : Nat) (v : Word)
  /-- RESILVER (R477): Copy of the ring from the MIRROR slot to a new cartridge. -/
  | resilver (j : Nat)
  /-- RESILVER_COMPLETE (R477): The copy completes and the slot becomes MIRROR. -/
  | resilverComplete (j : Nat)
  /-- LABEL_REWRITE (R472): JC rewrites a cartridge's ring label. -/
  | labelRewrite (j : Nat)
  /-- RELSEQ (R485): Write of JC.REL.RELSEQ, ignored if lower, clamped to DURSEQ. -/
  | relseq (q : Requester) (v : Word)
  /-- GO (R474): Write of JC.RDCTL.GO starts a read-out. -/
  | go (q : Requester) (v : Word)
  /-- READ_OUT_COMPLETE (R474): Read-out ends and reports source 154. -/
  | readOutComplete
  /-- LINK_TRAINING (R488): A link trains or retrains its width. -/
  | linkTraining (l : Nat) (work : Nat)
  /-- ADMISSION (R490): Admission exchange gives ADMITTED, ATTACHED or DOWN. -/
  | admission (l : Nat) (answered : Bool) (chain : Nat) (signs : Bool) (node : Nat) (size : Nat) (key : Nat)
  /-- REKEY (R491): Ephemeral exchange repeated after 2^32 packets or 600 s. -/
  | rekey (l : Nat)
  /-- HEARTBEAT (R489): Idle link sends a heartbeat flit each 1 µs. -/
  | heartbeat (l : Nat)
  /-- LINK_SILENT (R489): Nothing received for LOST µs; link goes DOWN. -/
  | linkSilent (l : Nat)
  /-- FLIT_RECEIVE (R486): A flit arrives, checked by CRC and replayed on failure. -/
  | flitReceive (l : Nat) (fate : Nat) (lane : Nat)
  /-- PACKET_FORWARD (R498): A packet for another node is routed or dropped. -/
  | packetForward (l : Nat) (p : Pkt)
  /-- LOAD_PACKET (R508): Owner serves a remote LOAD. -/
  | loadPacket (l : Nat) (p : Pkt)
  /-- STORE_PACKET (R508): Owner serves a remote STORE. -/
  | storePacket (l : Nat) (p : Pkt)
  /-- PASS_PACKET (R513): Owner queues a remote PASS request. -/
  | passPacket (l : Nat) (p : Pkt)
  /-- LOOKUP (R502): Registrar answers a plot-owner lookup. -/
  | lookup (l : Nat) (p : Pkt)
  /-- REG (R505): Registrar handles a claim, release or update. -/
  | reg (l : Nat) (p : Pkt)
  /-- OFFER (R518): Destination answers a plot migration offer. -/
  | offer (l : Nat) (p : Pkt)
  /-- PHYSRD (R525): Physical read from an ATTACHED peer. -/
  | physrd (l : Nat) (p : Pkt)
  /-- PHYSWR (R525): Physical write from an ATTACHED peer. -/
  | physwr (l : Nat) (p : Pkt)
  /-- DATA_PACKET (R509): DATA answer completes a remote load. -/
  | dataPacket (l : Nat) (p : Pkt)
  /-- ACK_PACKET (R509): ACK answer completes a remote request. -/
  | ackPacket (l : Nat) (p : Pkt)
  /-- NACK (R504): NACK raises REMOTE_FAULT or redirects by hint. -/
  | nack (l : Nat) (p : Pkt)
  /-- PASSREPLY (R512): Remote PASS reply sets the requester's registers. -/
  | passreply (l : Nat) (p : Pkt)
  /-- LOOKREPLY (R502): Lookup reply fills the plot cache or ends the access. -/
  | lookreply (l : Nat) (p : Pkt)
  /-- MDATA (R518): Destination writes a migrated page part or entry. -/
  | mdata (l : Nat) (p : Pkt)
  /-- FRAME (R524): A fabric frame lands on a fabric lane. -/
  | frame (l : Nat) (p : Pkt)
  /-- FRESP (R524): A fabric response packet arrives at the requester. -/
  | fresp (l : Nat) (p : Pkt)
  /-- LOST (R522): A LOST notice is acted on and forwarded. -/
  | lost (l : Nat) (p : Pkt)
  /-- JOIN (R523): A JOIN notice records a new incarnation. -/
  | join (l : Nat) (p : Pkt)
  /-- ECHO (R520): ECHO request or answer. -/
  | echo (l : Nat) (p : Pkt)
  /-- ECHO_TIMEOUT (R520): No ECHO answer in 100 µs; LOST originated. -/
  | echoTimeout (n : Nat)
  /-- REMOTE_TIMEOUT (R509): No answer within RTMO; REMOTE_FAULT reason 3. -/
  | remoteTimeout (id : Nat)
  /-- PLOT_CACHE_EXPIRY (R503): A plot-cache entry expires after PLOT_TTL. -/
  | plotCacheExpiry (plot : Nat)
  /-- FORWARDING_EXPIRY (R504): A forwarding record expires after 2 × PLOT_TTL. -/
  | forwardingExpiry (plot : Nat)
  /-- CLAIM (R505): Write of CDL.CLAIM OP 1 claims a plot. -/
  | claim (q : Requester) (v : Word)
  /-- PLOT_RELEASE (R505): Write of CDL.CLAIM OP 2 releases a plot. -/
  | plotRelease (q : Requester) (v : Word)
  /-- PLOT_MIGRATION (R518): Source node moves a plot to the top requester. -/
  | plotMigration
  /-- REMOTE_PASS_SERVICE_START (R513): Owner starts a queued remote PASS on an idle context. -/
  | remotePassServiceStart
  /-- CROSS_SERVICE_START (R92): A queued CROSS request starts on a serving context. -/
  | crossServiceStart (q : Nat)
  /-- CROSS_TIMEOUT (R95): TIMEOUT expires for a waiting CROSS. -/
  | crossTimeout (n : Nat) (k : Nat)
  /-- EVENT_REPORT (R532): An event is coalesced into a DEP record and judged. -/
  | eventReport (e : DevEvent)
  /-- DEP_HOLD_END (R532): A record's hold ends and a deferred NEW raises its source. -/
  | depHoldEnd (r : Nat)
  /-- RETIRE_NOW (R548): DEP.RETIRE OP 1 retires a named unit. -/
  | retireNow (q : Requester) (v : Word)
  /-- READMIT (R539): DEP.RETIRE OP 2 erases a unit's log entry. -/
  | readmit (q : Requester) (v : Word)
  /-- RECORD_FREE (R548): W1C of REC.V frees a record. -/
  | recordFree (q : Requester) (r : Nat) (v : Word)
  /-- RECORD_ACKNOWLEDGE (R548): W1C of REC.NEW acknowledges a record. -/
  | recordAcknowledge (q : Requester) (r : Nat) (v : Word)
  /-- AGE_MEASUREMENT (R543): Each PERIOD AGE measures SLACK and plans OFFSET. -/
  | ageMeasurement (d : Nat) (slack : Nat)
  /-- MONITOR_SAMPLE (R553): A monitor unit takes a sample into its histogram. -/
  | monitorSample (m : Nat) (ix : Nat) (x : Nat)
  /-- SNAP (R553): Write of MON.CTL.SNAP copies live values. -/
  | snap (q : Requester) (v : Word)
  /-- CLEAR (R553): Write of MON.CTL.CLEAR resets live values. -/
  | clear (q : Requester) (v : Word)
  /-- SELFTEST (R569): Self-test runs and ends in CONFIGURE or a fatal result. -/
  | selftest (failed : List (Nat × Nat))
  /-- CONFIGURE (R570): IMG checks and applies the image and enters SERVICE or DEGRADED. -/
  | configure
  /-- CHECK (R572): Write of IMG.CHECK.GO checks the staged image. -/
  | check (q : Requester) (v : Word) (image : List (Nat × Byte))
  /-- CHECK_COMPLETE (R572): Staged-image check finishes with its RESULT. -/
  | checkComplete
  /-- RCTL_GO (R572): Write of IMG.RCTL.GO enters RECONFIG and quiesces the slice. -/
  | rctlGo (q : Requester) (v : Word)
  /-- SLICE_QUIESCED (R572): The slice is quiesced and sections are applied. -/
  | sliceQuiesced
  /-- QUIESCE_TIMEOUT (R572): QTMO expires; fail or force. -/
  | quiesceTimeout
  /-- FUSE_ROOT (R560): MCTP command programming the customer root hash. -/
  | fuseRoot (hash : List Byte)
  /-- WARM_RESET (R598): MCTP command starting a warm device reset. -/
  | warmReset
  /-- READ_REG (R620): MCTP command reading a diagnostic register. -/
  | readReg (pa : Nat)
  /-- GET_ID (R620): MCTP command returning SYS.ID and SYS.SERIAL. -/
  | getId
  /-- LOCK (R582): Write of SYS.LOCK enters LOCKDOWN with CAUSE 7. -/
  | lock (q : Requester) (v : Word)
  /-- SVNCOMMIT (R582): Write of SYS.SVNCOMMIT raises SVNMIN. -/
  | svncommit (q : Requester) (v : Word)
  /-- TAMPER_CAUSE (R576): A tamper cause puts the device in LOCKDOWN. -/
  | tamperCause (cause : Nat) (k : Nat)
  /-- LOCKDOWN_CLEAR (R576): DRAM, TCMs and caches set to UNINIT by 100 ms. -/
  | lockdownClear
  /-- LDCOUNT_PROGRAM (R576): LDCOUNT fuse programmed by 2 s. -/
  | ldcountProgram
  /-- DOMAIN_SWITCH_ON (R588): Write of PWR.DOM.REQ = 1 switches a domain on. -/
  | domainSwitchOn (q : Requester) (d : Nat) (v : Word)
  /-- DOMAIN_SWITCH_OFF (R588): Write of PWR.DOM.REQ = 0 switches an idle domain off. -/
  | domainSwitchOff (q : Requester) (d : Nat) (v : Word)
  /-- SWITCH_ON_COMPLETE (R588): Domain released from reset after its switch-on. -/
  | switchOnComplete (d : Nat)
  /-- DVFS_REQUEST (R590): Write of PWR.DVFS.REQ changes a group's point. -/
  | dvfsRequest (q : Requester) (j : Nat) (v : Word)
  /-- POWER_CONTROL (R592): Every 10 µs power cap lowered or raised. -/
  | powerControl (w : Nat)
  /-- THERMAL_LIMIT (R593): Junction above or below a thermal threshold changes caps. -/
  | thermalLimit (d : Nat) (t : Nat) (stay : Bool)
  /-- PLL_UNLOCK (R597): A PLL loses lock and its clock stops. -/
  | pllUnlock (n : Nat)
  /-- WARM_DEVICE_RESET (R598): PWR.RESET OP 1 resets every domain but always-on. -/
  | warmDeviceReset (q : Requester) (v : Word)
  /-- DOMAIN_RESET (R598): PWR.RESET OP 2 resets one domain. -/
  | domainReset (q : Requester) (v : Word)
  /-- PAIR_RESET (R599): PWR.RESET OP 3 resets a lockstep pair. -/
  | pairReset (q : Requester) (v : Word)
  /-- CORE_RESET (R598): PWR.RESET OP 4 or a fatal cause resets a core. -/
  | coreReset (q : Requester) (v : Word)
  /-- LINK_BLOCK_RESET (R601): OP 5 CLASS 0 resets a fabric link. -/
  | linkBlockReset (q : Requester) (v : Word)
  /-- SLOT_BLOCK_RESET (R601): OP 5 CLASS 1 resets a cartridge slot. -/
  | slotBlockReset (q : Requester) (v : Word)
  /-- KEY_UNIT_RESET (R601): OP 5 CLASS 2 resets a key unit. -/
  | keyUnitReset (q : Requester) (v : Word)
  /-- MONITOR_RESET (R601): OP 5 CLASS 3 resets a monitor unit. -/
  | monitorReset (q : Requester) (v : Word)
  /-- LANE_RESET (R601): OP 5 CLASS 4 resets an ingress lane. -/
  | laneReset (q : Requester) (v : Word)
  /-- POR_N (R598): Power-on reset input. -/
  | porN (low : Bool)
  /-- WRST_N (R615): Warm reset input held low for 1 µs. -/
  | wrstN
  /-- PE_PERST_N (R615): PCIe reset resets only the host link. -/
  | pePerstN (low : Bool)
  /-- THERMTRIP (R622): Junction above 115 °C for 100 µs drives THERMTRIP_N. -/
  | thermtrip (d : Nat)
  /-- AVS_ACK_TIMEOUT (R611): No AVSBus acknowledgement within 1 ms. -/
  | avsAckTimeout
  /-- ERASE (R624): MGT.FLCMD OP 1 erases 4 KiB of flash. -/
  | erase (q : Requester) (v : Word)
  /-- PROGRAM (R624): MGT.FLCMD OP 2 programs 256 bytes. -/
  | program (q : Requester) (v : Word)
  /-- FLASH_READ (R624): MGT.FLCMD OP 3 reads 256 bytes into FLBUF. -/
  | flashRead (q : Requester) (v : Word)
  /-- FLASH_OPERATION_DONE (R624): A flash operation completes and reports source 587. -/
  | flashOperationDone (ok : Bool)
  /-- TXGO (R624): Write of MCTL.TXGO sends an MCTP message. -/
  | txgo (q : Requester) (v : Word)
  /-- MCTP_TRANSMISSION_DONE (R624): An MCTP transmission completes. -/
  | mctpTransmissionDone
  /-- MCTP_MESSAGE_RECEIVED (R624): An MCTP message fills the receive buffer. -/
  | mctpMessageReceived (bs : List Byte)
  /-- RXFULL (R624): W1C of MCTL.RXFULL frees the receive buffer. -/
  | rxfull (q : Requester) (v : Word)
  /-- UART_TRANSMIT (R624): Write of UDATA queues a byte. -/
  | uartTransmit (q : Requester) (v : Word)
  /-- UART_RECEIVE (R624): A byte arrives on UART_RXD. -/
  | uartReceive (b : Nat)
  /-- UART_READ (R624): Read of UDATA removes the oldest received byte. -/
  | uartRead (q : Requester)
  /-- RNG (R453): Keyless command returning DRBG output. -/
  | rng (w : Bool) (flaw : Nat)
  /-- HASH (R453): Keyless SHA-2 digest. -/
  | hash (w : Bool) (flaw : Nat)
  /-- PKVERIFY (R453): Keyless signature verification. -/
  | pkverify (w : Bool) (flaw : Nat)
  /-- ENC (R453): Encrypt under a key. -/
  | enc (w : Bool) (flaw : Nat)
  /-- DEC (R453): Decrypt under a key. -/
  | dec (w : Bool) (flaw : Nat)
  /-- MACGEN (R453): Generate a MAC. -/
  | macgen (w : Bool) (flaw : Nat)
  /-- MACVER (R453): Verify a MAC. -/
  | macver (w : Bool) (flaw : Nat)
  /-- PINXLATE (R454): Translate a PIN block between keys and formats. -/
  | pinxlate (w : Bool) (flaw : Nat)
  /-- ARQC (R455): Verify an EMV cryptogram, optionally produce ARPC. -/
  | arqc (w : Bool) (flaw : Nat)
  /-- CVV (R453): Generate or verify a CVV. -/
  | cvv (w : Bool) (flaw : Nat)
  /-- SIGN (R453): Sign a digest. -/
  | sign (w : Bool) (flaw : Nat)
  /-- VERIFY (R453): Verify a signature with a stored key. -/
  | verify (w : Bool) (flaw : Nat)
  /-- RSADEC (R453): RSA OAEP decryption. -/
  | rsadec (w : Bool) (flaw : Nat)
  /-- KINFO (R453): Return a key's info record. -/
  | kinfo (w : Bool) (flaw : Nat)
  /-- KGEN (R458): Generate a new key and capability. -/
  | kgen (w : Bool) (flaw : Nat)
  /-- KIMPORT (R456): Import an X9.143 key block. -/
  | kimport (w : Bool) (flaw : Nat)
  /-- KEXPORT (R457): Export a key as an X9.143 block. -/
  | kexport (w : Bool) (flaw : Nat)
  /-- KDELETE (R448): Delete a key and bump its generation. -/
  | kdelete (w : Bool) (flaw : Nat)
  /-- KAGREE (R458): ECDH key agreement creating a key. -/
  | kagree (w : Bool) (flaw : Nat)
  /-- RESEED (R459): Reseed the world's DRBG. -/
  | reseed (w : Bool) (flaw : Nat)
  /-- DRBG_RESEED (R459): DRBG reseeds after 2^16 requests or 1 s. -/
  | drbgReseed (w : Bool)
  /-- ENTROPY_HEALTH_FAIL (R459): An entropy source fails a health test and is excluded. -/
  | entropyHealthFail (i : Nat)
  /-- REGISTER_WRITE (R9): Write to a configuration register without behaviour of its own, judged field by field. -/
  | registerWrite (q : Requester) (pa : Nat) (v : Word)
  /-- PLL_LOCK_REGAINED (R597): A PLL that lost lock locks again and its clock domain's clock runs once more. -/
  | pllLockRegained (n : Nat)
  /-- REFERENCE_CLOCK_LOST (R614): The 100 MHz reference disappears: the host link and both cartridge ports are held in reset, and a slot in MIRROR or RESILVER becomes FAILED with REASON 11. -/
  | referenceClockLost
  /-- REFERENCE_CLOCK_RESTORED (R614): The reference returns, so the host link and the cartridge ports leave reset and CART_REFCLK is driven again. -/
  | referenceClockRestored
  /-- AVS_ACKNOWLEDGEMENT (R611): The VDD_CORE regulator acknowledges a new AVSBus target, and the waiting voltage raise, with the DVFS move that depends on it, proceeds. -/
  | avsAcknowledgement
  /-- WRST_N_RISE (R615): WRST_N rises after a warm reset and SELFTEST begins. -/
  | wrstNRise
  /-- UART_TRANSMITTER_EMPTY (R584): The UART finishes sending the last queued byte and reports source 586. -/
  | uartTransmitterEmpty
  /-- FLASH_OPERATION_TIMEOUT (R624): A boot-flash operation shows no completion within 2 s and ends with FLCMD.ERR 3. -/
  | flashOperationTimeout
  /-- NO_ELIGIBLE_PAIR (R405): A dispatch or CROSS request finds no eligible pair or W-core for 1 ms, and source 535 is reported. -/
  | noEligiblePair
  /-- OLD_KEY_EXPIRY (R491): 1 ms after a rekey the link stops accepting packets sealed under the old keys. -/
  | oldKeyExpiry (l : Nat)
  deriving DecidableEq, Repr

end Sys2Proof
end

