-- ==== Sys2Proof/Machine/State.lean ====
section
/-! DEFINITION. The state of the device: plain data, everything the chapters give it; the state right after power-on
reset; and the reasons for which a step of the model stops. -/

namespace Sys2Proof.Machine

open Sys2Proof

/-! ## Capabilities, memory and its tags -/

/-- A capability register: 128 bits and one tag bit (R29, R30). cursor is the first word, hi the second. -/
structure Cap where
  cursor : Word
  hi     : Word
  tag    : Bool
  deriving DecidableEq, Repr

/-- An untagged zero capability register. -/
def Cap.null : Cap := ⟨0, 0, false⟩

/-- Tagged memory: bytes and the tag of each 64-bit word, each list sorted by address and listing no entry equal to
what an unlisted address reads as: the byte 0 and the tag UNINIT, which is what SELFTEST leaves (R55, R56). -/
structure Mem where
  cells : List Host.Cell
  tags  : List (Nat × Nat)
  deriving DecidableEq, Repr

/-- Memory as SELFTEST leaves it. -/
def Mem.empty : Mem := ⟨[], []⟩

/-- Which memory holds a physical address as a core sees it: the DRAM behind the physical map (the system area
included), or the TCM of a core or pair, named by its (even) core. -/
inductive Tgt where
  | dram
  | tcm (unit : Nat)
  deriving DecidableEq, Repr

/-- Where a byte lies: memory, a register, an address that is not backed, or a plot of another node. -/
inductive Place where
  | mem (t : Tgt) (pa : Nat)
  | reg (pa : Nat)
  | unbacked (pa : Nat)
  | remote (node : Nat)
  deriving DecidableEq, Repr

/-- A part of an access within one page: its virtual address, length, place, and the SE attribute of the page. -/
structure Chunk where
  va    : Nat
  len   : Nat
  place : Place
  se    : Bool
  deriving DecidableEq, Repr

/-- How a write of one word acts on its tag (the rows of R59): a data store with its store type, one word of a
capability store, or a word written by CLEARTAG or CPYT. -/
inductive WKind where
  | data (tag : Nat)
  | cap (tag : Nat)
  | raw (tag : Nat)
  deriving DecidableEq, Repr

/-- The write of one aligned word: its address, the bytes it writes, and how it acts on the tag. -/
structure WOp where
  addr : Nat
  mask : Nat
  data : Nat
  kind : WKind
  deriving DecidableEq, Repr

/-- One store-buffer entry (R282): the words a store writes in one line, where they lie, which context stored them, and
the size of the store for a late bus error (R258). -/
structure SbEntry where
  ctx  : Nat
  tgt  : Tgt
  line : Nat
  ops  : List WOp
  deriving DecidableEq, Repr

/-! ## Contexts and cores -/

/-- The states of a context (R121). -/
inductive CtxState where
  | idle
  | ready
  | run
  | wait
  deriving DecidableEq, Repr

/-- A reservation (R192): the effective address it was set at, its size and kind, and the line it covers. -/
structure Resv where
  ea    : Nat
  size  : Nat
  isCap : Bool
  tgt   : Tgt
  line  : Nat
  deriving DecidableEq, Repr

/-- A register or piece of core state for which a write can be in flight (R170, R171). -/
inductive Loc where
  | g (n : Nat)
  | ring (i : Nat)
  | e (bank n : Nat)
  | c (n : Nat)
  | v (n : Nat)
  | p (n : Nat)
  | sr (n : Nat)
  | csr (n : Nat)
  | core (n : Nat)
  | bank (b n : Nat)
  deriving DecidableEq, Repr

/-- The value of such a location. -/
inductive Val where
  | w (x : Word)
  | c (x : Cap)
  | v (x : VReg)
  | b (x : Bool)
  deriving DecidableEq, Repr

/-- A value written to a location, with the number of instruction slots still to run before every consumer is certain
to see it (R170), and the first cycle of a P-core in which a consumer sees it (R274). -/
structure Flight where
  loc  : Loc
  val  : Val
  left : Nat
  seen : Nat
  deriving DecidableEq, Repr

/-- What an instruction knows of itself while it executes: its core and context, the address of its first word, its
length in bytes, its prefix word and instruction word for EINFO (R150), and whether it runs as an element of a REP. -/
structure Env where
  n   : Nat
  k   : Nat
  pc  : Nat
  len : Nat
  pfx : Nat
  ins : Nat
  rep : Bool
  deriving DecidableEq, Repr

/-- What a request to another node is for and how its answer completes the instruction that waits (R509, R512): the packet
type, address, ARG, payload and tags sent; the destination register and how it takes the data (mode 0 none, 1 general,
zero-extended, 2 general, sign-extended, 3 capability, 4 a PASS); the size; and the capability register to write back with the value
it takes (R155). -/
structure RemoteReq where
  env     : Env
  typ     : Nat
  reqid   : Nat
  node    : Nat
  link    : Nat
  addr    : Nat
  arg     : Nat
  payload : List Byte
  tags    : List Nat
  capNo   : Nat
  mode    : Nat
  dst     : Nat
  size    : Nat
  wb      : Option (Nat × Cap)
  due     : Nat
  resends : Nat
  deriving DecidableEq, Repr

/-- What holds a context at an instruction: a CROSS (R96), a KCMD (R224), a walk that met MV (R354; info is the EINFO of a
cause of the wait, less its reason), a LOOKUP of a plot's
owner (R502), or a request to another node (R509). -/
inductive Wait where
  | none
  | cross (q req due : Nat)
  | kcmd (cmd dst : Nat)
  | mv (va entry info since : Nat)
  | lookup (plot ea capNo reqid node due link : Nat)
  | remote (r : RemoteReq)
  deriving DecidableEq, Repr

/-- The frame a transaction serves: what the dispatch record and the outcome need (R412, R419, R429). -/
structure Frame where
  lane    : Nat
  slot    : Nat
  flen    : Nat
  tag     : Nat
  landed  : Nat
  src     : Nat
  pasid   : Nat
  fmt     : Nat
  reclen  : Nat
  keys    : List Nat
  rule    : Nat
  cls     : Nat
  ka      : Nat
  kb      : Nat
  desc    : Nat
  deadline : Nat
  attempt : Nat
  lastPair : Option Nat
  deriving DecidableEq, Repr

/-- One word of a commit-buffer entry: the bytes it holds and the row of R59 of the last write to it (R434). -/
structure CbWord where
  addr : Nat
  mask : Nat
  data : Nat
  kind : WKind
  deriving DecidableEq, Repr

/-- One entry of a pair's commit buffer (R432): a line, a deferred remote store, or a deferred PASS, with the context
whose transaction holds it; tags are the eight tags of the line when it took the entry (R433). -/
inductive CbEntry where
  | line (ctx : Nat) (tgt : Tgt) (addr : Nat) (tags : List Nat) (words : List CbWord)
  | rstore (ctx node : Nat) (ea size data tag : Nat)
  | rcap (ctx node : Nat) (ea : Nat) (c : Cap)
  | rpass (ctx node : Nat) (ro : Bool) (gate : Cap) (args : List Cap) (regs : List Word)
  deriving DecidableEq, Repr

/-- The state of a handler transaction (R431, R436). -/
inductive TxState where
  | none
  | active
  | discarded
  deriving DecidableEq, Repr

/-- The transaction of a context: its state, frame, watchdog, and whether R195 has been broken. service tells a dispatched
handler (0), a CROSS service (1), and a remote-PASS service (2; 3 when read-only, R515) apart; queue and req name the
request a service answers; slotLo and slotHi bound the context slot; lines lists the lines that a successful conditional
store of the transaction has written (R195); late lists its stores to addresses with no memory, which err at the commit (R258). -/
structure Tx where
  state   : TxState
  service : Nat
  frame   : Option Frame
  wdog    : Option Nat
  broken  : Bool
  queue   : Nat
  req     : Nat
  slotLo  : Nat
  slotHi  : Nat
  lines   : List (Tgt × Nat)
  late    : List (Nat × Nat)
  deriving DecidableEq, Repr

/-- No transaction. -/
def Tx.none : Tx := ⟨.none, 0, Option.none, Option.none, false, 0, 0, 0, 0, [], []⟩

/-- One resident context: its complete architectural registers (the register table of "Registers, windows and
contexts"). g, ring, caps, vec and preds list the registers that are not zero, untagged or false; sr lists the 64-bit
state registers of R118 by number and csr the capability ones, an unlisted one holding its reset value (R125). due holds a cause that the
context met while the other one held EXL (R124): its code, EINFO, EADDR and EELEM. inRep tells that a REP instruction has read its guard
and run an element, and has more to run (R164); progress is what the sequencer keeps of a routine under way while EXL is set (R315). -/
structure Ctx where
  st       : CtxState
  g        : Tab Nat Word
  ring     : Tab Nat Word
  caps     : Tab Nat Cap
  vec      : Tab Nat VReg
  preds    : Tab Nat Bool
  sr       : Tab Nat Word
  csr      : Tab Nat Cap
  resv     : Option Resv
  flights  : List Flight
  wait     : Wait
  reply    : Option (Nat × List Word × List Cap)
  kstatus  : Tab Nat Word
  waitElem : Nat
  tx       : Tx
  serving  : Option (Nat × Nat)
  first    : Bool
  stopped  : Bool
  due      : Option (Nat × Nat × Nat × Nat)
  inRep    : Bool
  progress : Option Word
  deriving DecidableEq, Repr

/-- A shadow bank (R240): e0-e31, the bank registers 0x10-0x16 by number, and the handler capability. -/
structure Bank where
  e    : Tab Nat Word
  br   : Tab Nat Word
  hcap : Cap
  deriving DecidableEq, Repr

/-- A TLB entry (R341): the space, the first page and page count it covers, the frame of its first page, the rights
R, W, X, the key, SE, D, and the index of the walked entry. -/
structure TlbEntry where
  space : Bool
  vpn   : Nat
  count : Nat
  frame : Nat
  r     : Bool
  w     : Bool
  x     : Bool
  pkey  : Nat
  se    : Bool
  d     : Bool
  entry : Nat
  deriving DecidableEq, Repr

/-- An asynchronous machine-check cause held in a core (R256, R258, R437): the context, the code, EINFO and EADDR, and
whether the point at which it must be taken has come (R258). -/
structure MaCause where
  ctx  : Nat
  code : Nat
  info : Nat
  addr : Nat
  due  : Bool
  deriving DecidableEq, Repr

/-- An aligned 64-bit word of the prefetch queue (R275), with the first cycle in which its instructions issue (R276). -/
structure PfWord where
  addr  : Nat
  data  : Nat
  tag   : Nat
  ready : Nat
  deriving DecidableEq, Repr

/-- An item that a lockstep pair compares (R291): a store with its line, byte mask, bytes and word tags, a far request, an MTS or MTSC, the
word and operands of an instruction of the table, an exception entry. -/
inductive Item where
  | store (e : SbEntry)
  | far (addr size : Nat)
  | state (num : Nat) (v : Val)
  | ins (word : Nat) (operands : List Val)
  | entry (cause epc : Nat)
  deriving DecidableEq, Repr

/-- A compared item that the leading core formed in a cycle, held for the comparison 2 cycles later (R291). -/
structure CmpItem where
  formed : Nat
  item   : Item
  deriving DecidableEq, Repr

/-- The instructions of a P-core in cycles (R272-R281): the cycle in which the instruction under way began its count, the issue cycle of
the last one, the last cycle in which the TCM port was used, the cycle until which an entry keeps the store buffer from the port
(R247), whether the last one issued as the older of a pair whose younger is next, and whether it was itself the younger. -/
structure Pace where
  start   : Nat
  last    : Nat
  port    : Nat
  entry   : Nat
  older   : Bool
  younger : Bool
  deriving DecidableEq, Repr

/-- The cycles of a core before its first instruction. -/
def Pace.zero : Pace := ⟨0, 0, 0, 0, false, false⟩

/-- An interrupt entry that a higher interrupt can still take over (R250): the context, the source accepted and the
last_accept value the source held before. -/
structure OpenEntry where
  ctx    : Nat
  source : Nat
  level  : Nat
  before : Nat
  deriving DecidableEq, Repr

/-- A control-store word that fails parity in both copies (R322), in a step that routine runs: its micro address, the
nanoword it names, whether the nanoword failed, and whether the routine is resumable; core is the core of the pair whose
store it is. -/
structure CsBad where
  core      : Nat
  routine   : Nat
  micro     : Nat
  nano      : Nat
  isNano    : Bool
  resumable : Bool
  deriving DecidableEq, Repr

/-- One core, or the two cores of a lockstep pair, which hold the same state (R289). csFailed tells that the last load of its
control store failed its read-back (R327), quiesced that it lies in a quiesced slice (R572). sr holds the core-wide state
registers MASKLIMIT and IPT.BASE, SIZE and HASH by number. resets counts the resets and releases that took an instruction's
context from under it (a field of the model, not of the spec). kept names the loop level whose body the prefetch queue keeps (R279);
cmp holds the items of a pair that wait for their comparison (R291); oldCode the words of memory as they stood before stores that fetch need
not see yet (R207, W-cores); line the flash line of compatibility fetch and btb its branch-target buffer (R297); lines the DRAM lines in the caches of a
W-core, the newest first (R299), whose contents are those of memory (R16). -/
structure Core where
  held     : Bool
  off      : Bool
  c0       : Ctx
  c1       : Ctx
  inUse    : Nat
  bankE    : Bank
  bankD    : Bank
  sr       : Tab Nat Word
  tlb      : List TlbEntry
  tlbI     : List TlbEntry
  tlbD     : List TlbEntry
  sb       : List SbEntry
  prefetch : List PfWord
  kept     : Option Nat
  pace     : Pace
  cmp      : List CmpItem
  oldCode  : List PfWord
  line     : Option Nat
  btb      : Tab Nat (Nat × Nat)
  lines    : List Nat
  divBusy  : Bool
  farWait  : Bool
  maskSince : Option Nat
  ma       : List MaCause
  openEntry : Option OpenEntry
  csBad    : List CsBad
  csFailed : Bool
  quiesced : Bool
  resets   : Nat
  deriving DecidableEq, Repr

/-! ## What the structure image fixes -/

/-- What the active structure image fixes by its parameters, its TCM records and its CODE sections ("The structure image and
operating modes", R561-R565): curves by INDEX, slack target and cap by domain kind, decay and qtmo in ms; code lists the CODE
sections by flash offset and length, codeDig the digest of each 4 KiB block of them (R557); tcmImg the TCM records, by core,
offset and words. -/
structure ImgCfg where
  pairs       : List Nat
  sealedPairs : List Nat
  resetEntry  : Word
  resetEntryS : Word
  entryUser   : Cap
  entrySup    : Cap
  entryDouble : Cap
  entryUserS   : Cap
  entrySupS    : Cap
  entryDoubleS : Cap
  tcmRange    : Tab Nat (Nat × Nat)
  sealedBase  : Nat
  sealedSize  : Nat
  failover    : Tab Nat Nat
  ways        : Tab Nat Nat
  memFloor    : Nat
  floors      : List Nat
  curves      : Tab Nat (List (Nat × Nat))
  slackT      : Tab Nat (Nat × Nat)
  decay       : Nat
  qtmo        : Nat
  retLog      : Nat
  estRoot     : List Byte
  attRoot     : List Byte
  nodeChain   : List Byte
  tampIn      : Tab Nat Nat
  code        : List (Nat × Nat)
  codeDig     : List (Nat × List Byte)
  tcmImg      : List (Nat × Nat × List Nat)
  deriving DecidableEq, Repr

/-- Before the image is applied: no pair formed, every core of the open world, every parameter at the default of R563. -/
def ImgCfg.empty : ImgCfg :=
  { pairs := [], sealedPairs := [], resetEntry := 0, resetEntryS := 0, entryUser := Cap.null, entrySup := Cap.null
    entryDouble := Cap.null, entryUserS := Cap.null, entrySupS := Cap.null, entryDoubleS := Cap.null, tcmRange := []
    sealedBase := 0, sealedSize := 0, failover := [], ways := [], memFloor := 3, floors := [2, 4, 4, 2, 2, 1], curves := []
    slackT := [], decay := 100, qtmo := 100, retLog := 0x03F00000, estRoot := [], attRoot := [], nodeChain := []
    tampIn := [], code := [], codeDig := [], tcmImg := [] }

/-! ## Blocks -/

/-- A response or notice that egress holds (R482-R484): its lane, frame slot, length, outcome, tag, ticket SEQ, the SEQ
that must be durable before release (0: at once), and the fabric source for a fabric lane. -/
structure Resp where
  lane    : Nat
  slot    : Option Nat
  len     : Nat
  outcome : Nat
  tag     : Nat
  seq     : Nat
  wait    : Nat
  src     : Nat
  deriving DecidableEq, Repr

/-- A CROSS request (R91, R92): its number, queue, the calling core and context, the words w16-w23 and c1-c4, and when it
was issued. -/
structure CrossReq where
  req   : Nat
  core  : Nat
  ctx   : Nat
  regs  : List Word
  caps  : List Cap
  due   : Nat
  deriving DecidableEq, Repr

/-- An entry of the plot cache (R503): the plot, its owner, and when it expires (none: a self entry). -/
structure PlotEntry where
  plot   : Nat
  owner  : Nat
  expiry : Option Nat
  deriving DecidableEq, Repr

/-- What a registrar records of a plot (R501): its owner, or LOST (none), with the epoch of the last change; mirror marks
an entry held as the backup of another registrar. -/
structure RegEntry where
  owner  : Option Nat
  epoch  : Nat
  mirror : Bool
  deriving DecidableEq, Repr

/-- An outstanding CROSS (R91, R95): the calling core and context, its queue, and when TIMEOUT expires. -/
structure XOut where
  core : Nat
  ctx  : Nat
  q    : Nat
  due  : Nat
  deriving DecidableEq, Repr

/-- A record that the journal has taken and not yet sealed (R221, R467): its ticket and the record's bytes, with the FORMAT
and ATTEMPT of its header. -/
structure JRec where
  seq     : Nat
  format  : Nat
  attempt : Nat
  bytes   : List Byte
  deriving DecidableEq, Repr

/-- An entry on its way to a slot (R470): the number of the append that sent it, when, and its offset on the ring. -/
structure JSent where
  append : Nat
  off    : Nat
  time   : Nat
  deriving DecidableEq, Repr

/-- A sealed entry of the journal (R465), staged until it is durable: for each slot, how it was sent, and whether the slot has
acknowledged it (R469). -/
structure JEntry where
  seq   : Nat
  bytes : List Byte
  sent0 : Option JSent
  sent1 : Option JSent
  ack0  : Bool
  ack1  : Bool
  deriving DecidableEq, Repr

/-- The journal's record of a slot: when it last acknowledged, when its label was last rewritten, and the next SEQ of a copy
with the first that the copy leaves to new appends (R477); and when the port leaves its reset (R601). -/
structure JSlot where
  lastAck   : Nat
  lastLabel : Nat
  copyNext  : Nat
  copyEnd   : Nat
  heldTo    : Nat
  deriving DecidableEq, Repr

/-- What becomes of a key-engine command whose context is reset (R540): it finishes in the engine, without a status; mute, with what it
would have written discarded along with its transaction. -/
inductive KFate where
  | live
  | orphan
  | mute
  deriving DecidableEq, Repr

/-- A key-engine command after the checks of R223: its number, world, issuer and level, the fields of its block (R450), its
key and second key, and where its input and output lie; bad tells that a field of R450 that must be zero is not. -/
structure KCmd where
  num    : Nat
  world  : Bool
  core   : Nat
  ctx    : Nat
  sup    : Bool
  code   : Nat
  var    : Nat
  loc    : Bool
  opt    : Bool
  rights : Nat
  bad    : Bool
  inLen  : Nat
  outLen : Nat
  outVa  : Nat
  inCs   : List Chunk
  outCs  : List Chunk
  key    : Option Cap
  aux    : Option Cap
  fate   : KFate
  deriving DecidableEq, Repr

/-- The answer of a key-engine command (R451, R452): its status and DETAIL, its output, and a new capability for OUT. -/
structure KAns where
  code   : Nat
  detail : Nat
  out    : List Byte
  cap    : Option Cap
  deriving DecidableEq, Repr

/-- A command that runs on its units until ready, in tenths of a nanosecond, with what it answers then (R444). -/
structure KDone where
  cmd   : KCmd
  ans   : KAns
  ready : Nat
  units : List Nat
  deriving DecidableEq, Repr

/-- A key of the key store (R446): the fields of its info record and its material, of length bytes. -/
structure KeyRun where
  ceil     : Nat
  exp      : Nat
  trusted  : Bool
  nslot    : Nat
  typ      : Nat
  kcv      : Nat
  material : List Byte
  deriving DecidableEq, Repr

/-- The contents of a core's control store as a load of a section leaves it (R324): each word with its parity bits
stands in both copies, but for the words of Core.csBad, whose bits do not agree with it in either. -/
structure CStore where
  version : Nat
  starts  : List Nat
  micro   : List Nat
  nano    : List Nat
  deriving DecidableEq, Repr

/-- A lane's work (R409): the descriptor read, its physical address and first word, the frame's address and length, its format
and TAG, and since when the lane waits for a slot. -/
structure LaneJob where
  desc  : Nat
  word0 : Nat
  addr  : Nat
  len   : Nat
  fmt   : Nat
  tag   : Nat
  since : Nat
  deriving DecidableEq, Repr

/-- A frame that has landed and waits for the parser (R418). -/
structure PFrame where
  lane   : Nat
  slot   : Nat
  tag    : Nat
  landed : Nat
  fmt    : Nat
  bytes  : List Nat
  deriving DecidableEq, Repr

/-- The samples of a plot (R517): L, the count of each remote requester, and the top node. -/
structure PlotStat where
  l   : Nat
  cnt : Tab Nat Nat
  top : Option Nat
  deriving DecidableEq, Repr

/-- The calibration of a pseudo-channel (R391): whether a retraining runs, whether one was asked for, and when and at what
temperature of the stack the last one ended. -/
structure CalRun where
  active : Bool
  asked  : Bool
  last   : Nat
  temp   : Nat
  deriving DecidableEq, Repr

/-- What a link keeps beside its registers (R488-R492): the identity key its peer presented, the packets sealed since the last
ephemeral exchange and its time, until when the old keys are still accepted, the times of its last GCM failures, when it last
received and last sent, and whether it is to retrain. -/
structure LinkRun where
  key     : Nat
  pkts    : Nat
  keyAt   : Nat
  oldTill : Option Nat
  fails   : List Nat
  lastRx  : Nat
  lastTx  : Nat
  retrain : Bool
  deriving DecidableEq, Repr

/-- A link before it has run. -/
def LinkRun.start : LinkRun := ⟨0, 0, 0, none, [], 0, 0, false⟩

/-- The live values of a monitor unit (R553): MIN, MAX, COUNT, and the bins. -/
structure MonRun where
  min   : Nat
  max   : Nat
  count : Nat
  bins  : Tab Nat Nat
  deriving DecidableEq, Repr

/-- A monitor unit that has taken no sample. -/
def MonRun.start : MonRun := ⟨2 ^ 64 - 1, 0, 0, []⟩

/-- A reconfiguration under way (R572): FORCE of the write that began it and when the slice began to quiesce. -/
structure Recon where
  force : Bool
  since : Nat
  deriving DecidableEq, Repr

/-- A remote PASS that the owner has queued or serves (R513, R516): its number, requester and REQID, the link it came over,
whether it is read-only, the gate's address, the capabilities and words it passes; gone tells that its requester is lost
(R522) and the reply is discarded. -/
structure RPReq where
  num   : Nat
  src   : Nat
  reqid : Nat
  link  : Nat
  ro    : Bool
  addr  : Nat
  caps  : List Cap
  regs  : List Word
  gone  : Bool
  deriving DecidableEq, Repr

/-- A plot migration at its source (R518): the plot, its destination, the pages by page number and index of their table entry,
the step reached (2 offered, 6 pages sent, 7 update sent), the REQID and deadline of the answer awaited, and the requests held,
each with its arrival link. -/
structure MigOut where
  plot  : Nat
  dst   : Nat
  pages : List (Nat × Nat)
  step  : Nat
  reqid : Nat
  due   : Nat
  held  : List (Nat × Pkt)
  deriving DecidableEq, Repr

/-- A plot migration at its destination (R518): the plot, its source, the number of pages, the link and REQID of the offer, the
frames taken, the frame each page has been given, the parts written of each page, and when it is given up. -/
structure MigIn where
  plot   : Nat
  src    : Nat
  count  : Nat
  link   : Nat
  reqid  : Nat
  frames : List Nat
  pages  : Tab Nat Nat
  parts  : List (Nat × Nat)
  since  : Nat
  deriving DecidableEq, Repr

/-- A change of the registrar table that waits for the ACK of the backup (R501): the REQID of the write to the backup, its deadline,
and the answer to send, with the link to send it on. -/
structure RegWait where
  reqid : Nat
  due   : Nat
  link  : Nat
  ans   : Pkt
  deriving DecidableEq, Repr

/-- A claim or release of a plot by this node under way (R505): its operation, plot, REQID and deadline. -/
structure Claim where
  op    : Nat
  plot  : Nat
  reqid : Nat
  due   : Nat
  deriving DecidableEq, Repr

/-- A remote access whose walk waits on MV of an entry (R354, R508): its packet and link, the entry, and since when. -/
structure HeldWalk where
  link  : Nat
  pkt   : Pkt
  entry : Nat
  since : Nat
  deriving DecidableEq, Repr

/-- What the fabric block holds beside its registers, links and plots: the remote-PASS queue, the requests being served, and the number
of the next (R513, R516); the plot migrations of this node (R518); the registrar changes that wait for their backup (R501); the claim
under way (R505); and the requests that wait for an earlier one of their context to the same plot (R510), the flag telling that the
context waits for its answer. -/
structure FabRun where
  rpq     : List RPReq
  rpRun   : List RPReq
  rpNo    : Nat
  migOut  : Option MigOut
  migIn   : Option MigIn
  regWait : List RegWait
  claim   : Option Claim
  postQ   : List (Bool × RemoteReq)
  mvHeld  : List HeldWalk
  startMv : Tab Nat Nat
  deriving DecidableEq, Repr

/-- A fabric block at rest. -/
def FabRun.start : FabRun := ⟨[], [], 0, none, none, [], none, [], [], []⟩

/-! ## The whole device -/

/-- The state of the device. pending is the queue of the commands that wait, first in, first out; free counts the free
values drawn (a field of the model, not of the spec); now is INTC.NOW in nanoseconds. -/
structure State where
  pending : List Instr
  free    : Nat
  now     : Nat
  regs    : Tab Reg Word
  mem     : Mem
  tcms    : Tab Nat Mem
  cores   : Tab Nat Core
  cbuf    : Tab Nat (List CbEntry)
  cfg     : ImgCfg
  events  : List DevEvent
  egr     : List Resp
  queues  : Tab Nat (List Frame)
  slots   : List Nat
  xq      : Tab Nat (List CrossReq)
  reqNo   : Nat
  srcLast : Tab Nat Nat
  srcLevel : Tab Nat (Nat × Nat)
  xlost   : List Nat
  rpLost  : List Nat
  rdgStale : List (Nat × Word × Word × Word)
  shadow  : List (Reg × Nat × Nat)
  tx      : List (Nat × Pkt)
  loop    : List Pkt
  cdlReq  : Nat
  plotCache : List PlotEntry
  ownMap  : List Nat
  registrar : Tab Nat RegEntry
  nodes   : Tab Nat (Nat × Bool)
  forwards : Tab Nat (Nat × Nat)
  xout    : Tab Nat XOut
  lastPick : Tab Nat Nat
  posted  : List RemoteReq
  sealing : List JRec
  staged  : List JEntry
  salt    : Nat
  kq      : Tab Nat (List KCmd)
  kNo     : Nat
  kdone   : List KDone
  kbusy   : Tab Nat Nat
  keys    : Tab Nat KeyRun
  kgen    : Tab Nat Nat
  drbgN   : Tab Nat (Nat × Nat)
  devKey  : List Byte
  cstore  : Tab Nat CStore
  csActive : Option Nat
  carts   : Tab Nat Cart
  jslot   : Tab Nat JSlot
  jcAppends : Nat
  jcLast  : Nat
  jcQuiet : Bool
  cartRoot : List Byte
  revoked : List Nat
  lanes   : Tab Nat LaneJob
  parseQ  : List PFrame
  pbank   : Option Nat
  fcache  : List (Nat × List Nat)
  fbad    : List Nat
  degPrio : Nat
  hostHeld : Bool
  heat    : Tab Nat (Nat × Nat)
  heatAt  : Nat
  plotStat : Tab Nat PlotStat
  offers  : List Nat
  pools   : Tab Nat (List Nat)
  ovf     : List Nat
  pleCand : List (Nat × Bool)
  moveAt  : List Nat
  fixed   : List Nat
  scrubAt : Tab Nat Nat
  rowFix  : Tab (Nat × Nat) Nat
  rowBad  : List (Nat × Nat)
  ceAt    : Tab Nat (List Nat)
  cal     : Tab Nat CalRun
  region  : Tab Nat (Nat × List Nat)
  ldClear : Option Nat
  ldFuse  : Option Nat
  porLow  : Bool
  ref100  : Bool
  wrstLow : Bool
  pinLockdown : Bool
  pinThermtrip : Bool
  retired : List (Nat × Nat)
  retLog  : List (Nat × Nat)
  links   : Tab Nat LinkRun
  linkQui : List Nat
  joinDue : Bool
  echoes  : Tab Nat Nat
  depHist : List (DevEvent × Nat)
  lastIrq : Tab Nat Nat
  haltAt  : Tab Nat Nat
  regOut : Option Word
  regErr  : Bool
  lagged  : List (Requester × Reg × Nat)
  ageOver : Tab Nat Nat
  ageHist : Tab Nat (List (Nat × Nat))
  ageAt   : Tab Nat Nat
  mons    : Tab Nat MonRun
  selfTest : Tab Nat Nat
  avsTarget : Nat
  avsAsk  : Option Nat
  avsHold : Bool
  avsOff  : Nat
  pcap    : Tab Nat Nat
  tcap    : Tab Nat Nat
  powerLow : Option Nat
  thermAt : Tab Nat Nat
  switchAt : Tab Nat (Nat × List Word)
  pllOff  : List Nat
  flash   : List (Nat × Byte)
  flOp    : Option (Nat × Nat × Nat)
  flashBad : Bool
  uartTx  : List Nat
  uartAt  : Nat
  uartRx  : List Nat
  mctpAns : List Nat
  fetched : List Nat
  fuseKey : List Byte
  fuseRoot : List Byte
  vendorRoot : List Byte
  imgRegs : Tab Reg Word
  slotUsed : Nat
  recon   : Option Recon
  bar2    : List (Nat × Byte)
  tampLevel : Nat
  fab     : FabRun
  deriving DecidableEq, Repr

/-- Why a command stops the model: no command does. A command that its subject cannot perform now (an instruction of a context that
does not issue, an event whose condition does not hold) changes nothing. -/
inductive Fault where
  deriving DecidableEq, Repr

/-- Why a command has no meaning. -/
inductive Refusal where
  /-- Raised by the dispatch for a command whose meaning is not modelled yet. Safe. -/
  | notModelled (mnemonic : String)
  /-- Raised by a meaning whose operands lie outside the ranges their fields have. Safe: such a term spells no command. -/
  | illFormed
  deriving DecidableEq, Repr

/-- The roots of R34 for a world: the memory root, with the given cursor. Permission bits as R41 numbers them. -/
def rootMemory (sealedWorld : Bool) (cursor : Word) : Cap :=
  let perms := 0x73F + (if sealedWorld then 2 ^ 11 else 2 ^ 12)
  ⟨cursor, word (perms * 2 ^ 50 + b2n sealedWorld * 2 ^ 33 + 63 * 2 ^ 25), true⟩

/-- The sealing root of R34. -/
def rootSealing (sealedWorld : Bool) : Cap :=
  ⟨0, word (0x2C0 * 2 ^ 50 + b2n sealedWorld * 2 ^ 33 + 4 * 2 ^ 25 + 0xFFF), true⟩

/-- The device root of R34. -/
def rootDevice (sealedWorld : Bool) : Cap :=
  ⟨0, word (0x2203 * 2 ^ 50 + b2n sealedWorld * 2 ^ 33 + 63 * 2 ^ 25), true⟩

/-- STATUS as core reset leaves it in context c of a core of the given world (R119, R125): GM 1, SUP in context 0. -/
def statusReset (sealedWorld : Bool) (c : Nat) : Word :=
  word (8 + 2 * b2n sealedWorld + 128 * c + (if c = 0 then 1 else 0))

/-- Context c of core n as core reset leaves it (R125), for a core of the given world and reset entry. -/
def Ctx.reset (n c : Nat) (sealedWorld : Bool) (entry : Word) : Ctx :=
  { st := if c = 0 then .run else .idle
    g := [], ring := []
    caps := if c = 0 then
        [(15, rootMemory sealedWorld entry), (1, rootMemory sealedWorld 0), (2, rootSealing sealedWorld),
         (3, rootDevice sealedWorld)]
      else []
    vec := [], preds := []
    sr := [(0x00, statusReset sealedWorld c), (0x01, word (2 * n + c))]
    csr := [], resv := none, flights := [], wait := .none, reply := none, kstatus := [], waitElem := 0, tx := Tx.none,
    serving := none, first := false, stopped := false, due := none, inRep := false, progress := none }

/-- An empty shadow bank: e0-e31 zero (R240); the bank registers at their reset value zero (R260). -/
def Bank.reset : Bank := ⟨[], [], Cap.null⟩

/-- Core n as core reset leaves it (R125, R240). -/
def Core.reset (n : Nat) (sealedWorld : Bool) (entry : Word) : Core :=
  { held := true, off := false, c0 := Ctx.reset n 0 sealedWorld entry, c1 := Ctx.reset n 1 sealedWorld entry,
    inUse := 0, bankE := Bank.reset, bankD := Bank.reset, sr := [], tlb := [], tlbI := [], tlbD := [], sb := [], prefetch := [], kept := none,
    pace := Pace.zero, cmp := [], oldCode := [], line := none, btb := [], lines := [],
    divBusy := false, farWait := false, maskSince := none, ma := [], openEntry := none, csBad := [], csFailed := false, quiesced := false, resets := 0 }

/-- The device right after power-on reset: mode SELFTEST, every core held, memory with nothing listed, every register
at its reset value. -/
def State.reset : State :=
  { pending := [], free := 0, now := 0, regs := [], mem := Mem.empty, tcms := [], cores := [], cbuf := []
    , cfg := ImgCfg.empty
    , events := [], egr := [], queues := [], slots := [], xq := [], reqNo := 0, srcLast := [], srcLevel := []
    , xlost := [], rpLost := []
    , rdgStale := []
    , shadow := []
    , tx := [], loop := [], cdlReq := 0, plotCache := [], ownMap := [], registrar := [], nodes := [], forwards := []
    , xout := [], lastPick := [], posted := [], sealing := [], staged := [], salt := 0, kq := [], kNo := 0, kdone := [], kbusy := []
    , keys := [], kgen := [], drbgN := [], devKey := List.replicate 32 0
    , cstore := [], csActive := none
    , carts := [], jslot := [], jcAppends := 0, jcLast := 0, jcQuiet := false, cartRoot := [], revoked := []
    , lanes := [], parseQ := [], pbank := none, fcache := [], fbad := [], degPrio := 0, hostHeld := false
    , heat := [], heatAt := 0, plotStat := [], offers := [], pools := [], ovf := [], pleCand := [], moveAt := []
    , fixed := [], scrubAt := [], rowFix := [], rowBad := [], ceAt := [], cal := [], region := []
    , ldClear := none, ldFuse := none, porLow := false, ref100 := true, wrstLow := false, pinLockdown := false, pinThermtrip := false
    , retired := [], retLog := []
    , links := [], linkQui := [], joinDue := false, echoes := []
    , depHist := [], lastIrq := []
    , haltAt := [], regOut := none, regErr := false, lagged := []
    , ageOver := [], ageHist := [], ageAt := [], mons := []
    , selfTest := [], avsTarget := 800, avsAsk := none, avsHold := false, avsOff := 0, pcap := [], tcap := [], powerLow := none
    , thermAt := [], switchAt := [], pllOff := []
    , flash := [], flOp := none, flashBad := false, uartTx := [], uartAt := 0, uartRx := [], mctpAns := [], fetched := []
    , fuseKey := List.replicate 32 0, fuseRoot := [], vendorRoot := List.replicate 48 0, imgRegs := [], slotUsed := 0
    , recon := none, bar2 := [], tampLevel := 0
    , fab := FabRun.start
  }

end Sys2Proof.Machine
end

