-- ==== Sys2Proof/Machine/Caps.lean ====
section
/-! DEFINITION. Capabilities: their fields, validity, bounds, permissions and the derivations ("Capabilities and tagged
memory"). -/

namespace Sys2Proof.Machine

open Sys2Proof

/-- Permission bit numbers (R41). -/
def pLOAD : Nat := 0
def pSTORE : Nat := 1
def pEXEC : Nat := 2
def pLOADCAP : Nat := 3
def pSTORECAP : Nat := 4
def pSTORELOCAL : Nat := 5
def pSEAL : Nat := 6
def pUNSEAL : Nat := 7
def pPASS : Nat := 8
def pSYS : Nat := 9
def pKEYUSE : Nat := 10
def pKEYADMIN : Nat := 11
def pREMOTE : Nat := 12
def pDEVICE : Nat := 13

/-- Object types with a hardware meaning (the table before R48). -/
def otGATE : Nat := 0xFFF0
def otRETURN : Nat := 0xFFF1
def otKEY : Nat := 0xFFF2
def otSAVE : Nat := 0xFFF3
def otCROSS : Nat := 0xFFF4

/-- The permissions field (R29). -/
def Cap.perms (c : Cap) : Nat := fld c.hi 63 50
/-- The object type (R29). -/
def Cap.otype (c : Cap) : Nat := fld c.hi 49 34
/-- WORLD: false the open-world global space, true the sealed space (R29). -/
def Cap.world (c : Cap) : Bool := flag c.hi 33
/-- LOCAL (R29). -/
def Cap.isLocal (c : Cap) : Bool := flag c.hi 32
/-- E (R29). -/
def Cap.e (c : Cap) : Nat := fld c.hi 30 25
/-- BM (R29). -/
def Cap.bm (c : Cap) : Nat := fld c.hi 24 12
/-- LM (R29). -/
def Cap.lm (c : Cap) : Nat := fld c.hi 11 0
/-- The use-rights mask of a key object (R29, object type 0xFFF2). -/
def Cap.rights (c : Cap) : Nat := fld c.hi 30 0
/-- The capability holds permission p. -/
def Cap.has (c : Cap) (p : Nat) : Bool := bit c.perms p
/-- The cursor as a number. -/
def Cap.cur (c : Cap) : Nat := c.cursor.toNat
/-- The capability is sealed. -/
def Cap.isSealed (c : Cap) : Bool := decide (c.otype ≠ 0)

/-- Why a capability is no authority, as R53 numbers it in EINFO of CAP_INVALID: bit 0 tag clear; of a tagged capability the reasons of
R31, 1 reserved E, 2 bit 31 set, 3 reserved object type, 4 root with a non-zero mantissa. DEDUCED: R31 states its conditions of a
tagged capability, so that an untagged one shows bit 0 alone. -/
def Cap.invalidInfo (c : Cap) : Nat :=
  if c.tag then
    2 * b2n (decide (c.otype ≠ otKEY) && decide (36 ≤ c.e) && decide (c.e ≤ 62))
      + 4 * b2n (flag c.hi 31)
      + 8 * b2n (decide (0xFFF5 ≤ c.otype))
      + 16 * b2n (decide (c.otype ≠ otKEY) && decide (c.e = 63) && (decide (c.bm ≠ 0) || decide (c.lm ≠ 0)))
  else 1

/-- Tagged and valid (R31, R32). -/
def Cap.valid (c : Cap) : Bool := decide (c.invalidInfo = 0)

/-- decode_bounds of R35: base and top for a cursor and a bounds field given as E, BM and LM. -/
def decodeBounds (cursor e bm lm : Nat) : Nat × Nat :=
  if e = 63 then (0, 2 ^ 64)
  else
    let rb := (bm + 0x2000 - 0x800) % 0x2000
    let am := bits cursor (e + 12) e
    let q := cursor >>> (e + 13)
    let m := 2 ^ (51 - e)
    let upper :=
      if bm < rb then (if am < rb then q % m else (q + 1) % m)
      else (if am < rb then (q + m - 1) % m else q % m)
    let base := upper * 2 ^ (e + 13) + bm * 2 ^ e
    (base, base + (lm + 1) * 2 ^ e)

/-- Base and top of a capability (R35). -/
def Cap.bounds (c : Cap) : Nat × Nat := decodeBounds c.cur c.e c.bm c.lm
/-- The base. -/
def Cap.base (c : Cap) : Nat := c.bounds.1
/-- The top. -/
def Cap.top (c : Cap) : Nat := c.bounds.2

/-- The cursor x lies in the representable window of the capability (R36). -/
def Cap.inWindow (c : Cap) (x : Nat) : Bool :=
  if c.e = 63 then true
  else decide ((x + 2 ^ 64 + 2 ^ (c.e + 11) - c.base) % 2 ^ 64 < 4 * 2 ^ (c.e + 11))

/-- Writing a cursor (R37): leaving the window clears the tag. An untagged capability only takes the cursor. A sealed key
object or a capability of reserved E has no window here; its cursor is never moved by an instruction. -/
def Cap.setCursor (c : Cap) (x : Nat) : Cap :=
  { c with cursor := word x, tag := c.tag && c.inWindow (x % 2 ^ 64) }

/-- n bytes at address a lie within the bounds of the capability (R38). -/
def Cap.covers (c : Cap) (a n : Nat) : Bool := decide (c.base ≤ a) && decide (a + n ≤ c.top)

/-- The capability with its second word's field hi..lo replaced. -/
def Cap.withFld (c : Cap) (hi lo v : Nat) : Cap := { c with hi := setFld c.hi hi lo v }

/-- set_bounds of R39 from exponent e on, with fuel: the least exponent from e at which the rounded length fits. -/
def setBoundsFrom (b t : Nat) : Nat → Nat → Nat × Nat × Nat
  | 0, e => (e, (b >>> e) * 2 ^ e, ((t + 2 ^ e - 1) >>> e) * 2 ^ e)
  | k + 1, e =>
    let lo := (b >>> e) * 2 ^ e
    let hi := ((t + 2 ^ e - 1) >>> e) * 2 ^ e
    if (hi - lo) >>> e > 0x1000 then setBoundsFrom b t k (e + 1) else (e, lo, hi)

/-- set_bounds of R39: E and the rounded bounds [lo, hi). -/
def setBounds (b len : Nat) : Nat × Nat × Nat := setBoundsFrom b (b + len) 64 0

/-- CTRIM and CTRIMX (R39, R40): the narrowed capability, or none when the request must raise CAP_BOUNDS. -/
def Cap.trim (c : Cap) (len : Nat) (exact : Bool) : Option Cap :=
  let b := c.cur
  let (e, lo, hi) := setBounds b len
  if len = 0 ∨ 35 < e ∨ lo < c.base ∨ c.top < hi ∨ (exact = true ∧ (lo ≠ b ∨ hi ≠ b + len)) then none
  else
    some { cursor := word lo
           hi := setFld c.hi 30 0 (e * 2 ^ 25 + bits lo (e + 12) e * 2 ^ 12 + ((hi - lo) >>> e) - 1)
           tag := c.tag }

/-- A tagged capability over exactly [base, base + len) with the given permissions and WORLD, LOCAL as given, derived by
the hardware with set_bounds (R428, R447). -/
def Cap.mk' (cursor base len perms : Nat) (world isLocal : Bool) : Cap :=
  let (e, lo, hi) := setBounds base len
  { cursor := word cursor
    hi := word (perms * 2 ^ 50 + b2n world * 2 ^ 33 + b2n isLocal * 2 ^ 32 + e * 2 ^ 25 + bits lo (e + 12) e * 2 ^ 12
                 + ((hi - lo) >>> e) - 1)
    tag := true }

/-- The permissions of a mask that the capability lacks, as R53 reports them in EINFO[13:0]. -/
def Cap.missing (c : Cap) (mask : Nat) : Nat := mask - Nat.land mask c.perms

/-- The mask that names one permission. -/
def pm (p : Nat) : Nat := 2 ^ p

/-- The object types that CCLOSE never gives (R49). -/
def neverSealed (c : Nat) : Bool :=
  decide (c = 0) || (decide (0xFFF1 ≤ c) && decide (c ≤ 0xFFF3)) || (decide (0xFFF5 ≤ c) && decide (c ≤ 0xFFFF))

end Sys2Proof.Machine
end

