-- ==== Sys2Proof/Machine/Tab.lean ====
section
/-! DEFINITION. Sparse tables: reading with a stated default, writing one entry, removing one. -/

namespace Sys2Proof.Machine

open Sys2Proof

variable {κ β : Type} [DecidableEq κ]

/-- The value listed for k, or d. -/
def tget (t : Tab κ β) (k : κ) (d : β) : β :=
  match t with
  | [] => d
  | (k', v) :: r => if k' = k then v else tget r k d

/-- The value listed for k, if any. -/
def tfind (t : Tab κ β) (k : κ) : Option β :=
  match t with
  | [] => none
  | (k', v) :: r => if k' = k then some v else tfind r k

/-- The table in which k holds v. -/
def tset (t : Tab κ β) (k : κ) (v : β) : Tab κ β :=
  match t with
  | [] => [(k, v)]
  | (k', v') :: r => if k' = k then (k, v) :: r else (k', v') :: tset r k v

/-- The table without k. -/
def tdel (t : Tab κ β) (k : κ) : Tab κ β := t.filter (fun e => decide (e.1 ≠ k))

end Sys2Proof.Machine
end

