-- ==== Sys2Proof/Machine/Mem.lean ====
section
/-! DEFINITION. Tagged memory: canonical form, reading and writing one word with its tag, the write rows of R59 and the
pair rule of R60 ("Capabilities and tagged memory"). -/

namespace Sys2Proof.Machine

open Sys2Proof

/-- The tag values of R54. -/
def tUNINIT : Nat := 0
def tINT : Nat := 1
def tFLT : Nat := 2
def tCAPLO : Nat := 3
def tCAPHI : Nat := 4
def tPOISON : Nat := 5
def tRETREC : Nat := 6

/-- The value a list of address-sorted entries gives an address, or d. -/
def aget {β : Type} (l : List (Nat × β)) (a : Nat) (d : β) : β :=
  match l with
  | [] => d
  | (k, v) :: r => if k = a then v else aget r a d

/-- The address-sorted list in which address a reads as v, an entry equal to d being left out. -/
def aset {β : Type} [DecidableEq β] (l : List (Nat × β)) (a : Nat) (v d : β) : List (Nat × β) :=
  match l with
  | [] => if v = d then [] else [(a, v)]
  | (k, w) :: r =>
    if k < a then (k, w) :: aset r a v d
    else if k = a then (if v = d then r else (a, v) :: r)
    else if v = d then (k, w) :: r
    else (a, v) :: (k, w) :: r

/-- The canonical form of a list: addresses strictly rising above a bound, and no entry equal to d. -/
def awf {β : Type} [DecidableEq β] (l : List (Nat × β)) (d : β) (lo : Nat) : Bool :=
  match l with
  | [] => true
  | (k, v) :: r => decide (lo ≤ k) && decide (v ≠ d) && awf r d (k + 1)

/-- The canonical form of memory: bytes and tags sorted by address, no byte listed as 0 and no tag listed as UNINIT. -/
def Mem.wf (m : Mem) : Bool := awf m.cells 0 0 && awf m.tags tUNINIT 0

/-- The byte at an address; an unlisted address reads as 0 (R55, R56). -/
def Mem.byte (m : Mem) (a : Nat) : Byte := aget m.cells a 0

/-- The tag of the word that holds an address; an unlisted word is UNINIT (R56). -/
def Mem.tag (m : Mem) (a : Nat) : Nat := aget m.tags (a / 8 * 8) tUNINIT

/-- The n bytes from a, little-endian (R184). -/
def Mem.read (m : Mem) (a : Nat) : Nat → Nat
  | 0 => 0
  | n + 1 => (m.byte a).toNat + 256 * m.read (a + 1) n

/-- The aligned word that holds an address, as a number. -/
def Mem.word (m : Mem) (a : Nat) : Nat := m.read (a / 8 * 8) 8

/-- Writes the n low bytes of v from address a on. -/
def Mem.putBytes (m : Mem) (a v : Nat) : Nat → Mem
  | 0 => m
  | n + 1 => ({ m with cells := aset m.cells a (BitVec.ofNat 8 v) 0 }).putBytes (a + 1) (v / 256) n

/-- Sets the aligned word at a (a multiple of 8) to v with tag t: the one primitive that changes memory. -/
def Mem.setWord (m : Mem) (a v t : Nat) : Mem :=
  let m' := m.putBytes a v 8
  { m' with tags := aset m'.tags a (t % 16) tUNINIT }

/-- The word at a is one half of an aligned CAPLO-CAPHI pair; the answer is the other half's address (R60). -/
def Mem.partner (m : Mem) (a : Nat) : Option Nat :=
  let lo := a / 16 * 16
  if m.tag lo = tCAPLO ∧ m.tag (lo + 8) = tCAPHI then some (if a = lo then lo + 8 else lo) else none

/-- Writes one word and applies R60: when the tag of one word of a pair changes and the other word is not written, the
other word becomes UNINIT with zero data. -/
def Mem.writeWord (m : Mem) (a v t : Nat) : Mem :=
  let m' := if m.tag a = t then m else
    match m.partner a with
    | some b => m.setWord b 0 tUNINIT
    | none => m
  m'.setWord a v t

/-- The bytes of new selected by mask over those of old (bit i of mask selects byte i). -/
def mergeMask (old new mask : Nat) : Nat → Nat
  | 0 => 0
  | n + 1 =>
    let i := n
    mergeMask old new mask n + (if mask.testBit i then byteOf new i else byteOf old i) * 2 ^ (8 * i)

/-- What a write of one word makes of the word (R59), and false when the row raises a fault or an error instead and leaves
the word unchanged: a data store over RETREC or a reserved tag, a narrow one over POISON, a capability store over RETREC
or a reserved tag. -/
def Mem.applyOp (m : Mem) (o : WOp) : Mem × Bool :=
  let t := m.tag o.addr
  match o.kind with
  | .raw t' => (m.writeWord o.addr o.data t', true)
  | .cap t' => if t = tRETREC ∨ 7 ≤ t then (m, false) else (m.writeWord o.addr o.data t', true)
  | .data t' =>
    if t = tRETREC ∨ 7 ≤ t then (m, false)
    else if o.mask = 0xFF then (m.writeWord o.addr o.data t', true)
    else if t = tPOISON then (m, false)
    else
      let old := if t = tINT ∨ t = tFLT then m.word o.addr else 0
      (m.writeWord o.addr (mergeMask old o.data o.mask 8) t', true)

/-- Memory after a list of writes, each under its row of R59. -/
def Mem.applyOps (m : Mem) : List WOp → Mem
  | [] => m
  | o :: os => (m.applyOp o).1.applyOps os

/-- The write of one word by a Ridge-checked master (the last two rows of R59): full or partial by mask; false when the
master receives an error response. -/
def Mem.masterWrite (m : Mem) (a data mask : Nat) : Mem × Bool :=
  let t := m.tag a
  if 7 ≤ t then (m, false)
  else if mask = 0xFF then (m.writeWord a data tINT, true)
  else if t = tPOISON then (m, false)
  else
    let old := if t = tINT ∨ t = tFLT then m.word a else 0
    (m.writeWord a (mergeMask old data mask 8) tINT, true)

/-- The read of one aligned word by a Ridge-checked master (R57): its data, and false for an error response. -/
def Mem.masterRead (m : Mem) (a : Nat) : Nat × Bool :=
  let t := m.tag a
  if t = tINT ∨ t = tFLT then (m.word a, true)
  else if t = tPOISON ∨ 7 ≤ t then (0, false)
  else (0, true)

/-- The word writes that store n bytes of v at byte address a with store type t, in ascending address order; fuel bounds
the number of words. -/
def dataOps (a v n t : Nat) : Nat → List WOp
  | 0 => []
  | k + 1 =>
    if n = 0 then []
    else
      let w := a / 8 * 8
      let o := a - w
      let c := min n (8 - o)
      { addr := w, mask := (2 ^ c - 1) * 2 ^ o, data := (v % 2 ^ (8 * c)) * 2 ^ (8 * o), kind := .data t }
        :: dataOps (a + c) (v / 2 ^ (8 * c)) (n - c) t k

/-- The addresses of the words that n bytes at a touch, in ascending order; fuel bounds their number. -/
def wordsOf (a n : Nat) : List Nat :=
  if n = 0 then [] else (List.range ((a + n - 1) / 8 - a / 8 + 1)).map (fun i => (a / 8 + i) * 8)

end Sys2Proof.Machine
end

