-- ==== Sys2Proof/Machine/Cores.lean ====
section
/-! DEFINITION. Reaching a core, a context, a bank and a register of the map in the state; the fields of STATUS and of
the other state registers ("Registers, windows and contexts"). -/

namespace Sys2Proof.Machine

open Sys2Proof

/-! ## Registers of the map -/

/-- The word a register of the map holds. -/
def State.reg (s : State) (r : Reg) : Word := tget s.regs r r.reset

/-- A field of a register of the map. -/
def State.rf (s : State) (r : Reg) (f : Fd) : Nat := fld (s.reg r) f.hi f.lo

/-- Writes the word of a register of the map, as hardware does. -/
def State.setReg (s : State) (r : Reg) (v : Word) : State := { s with regs := tset s.regs r v }

/-- Writes a field of a register of the map, as hardware does. -/
def State.setRf (s : State) (r : Reg) (f : Fd) (v : Nat) : State := s.setReg r (setFld (s.reg r) f.hi f.lo v)

/-- Adds to a field of a register, wrapping at its width. -/
def State.addRf (s : State) (r : Reg) (f : Fd) (v : Nat) : State := s.setRf r f (s.rf r f + v)

/-- Adds to a field of a register, saturating at its largest value. -/
def State.satRf (s : State) (r : Reg) (f : Fd) (v : Nat) : State :=
  s.setRf r f (satAdd (s.rf r f) v (2 ^ (f.hi - f.lo + 1) - 1))

/-! ## Cores -/

/-- P-core n belongs to a lockstep pair of the image (R14). -/
def State.paired (s : State) (n : Nat) : Bool := decide (n < 48) && s.cfg.pairs.contains (n / 2)

/-- The number under which a core's state is held: the even core of a pair (R125). -/
def State.unit (s : State) (n : Nat) : Nat := if s.paired n then n / 2 * 2 else n

/-- The world of a core: only a lockstep pair can serve the sealed world (R17). -/
def State.coreWorld (s : State) (n : Nat) : Bool := s.paired n && s.cfg.sealedPairs.contains (n / 2)

/-- The reset entry the image gives for a core's world (R125). -/
def State.resetEntryOf (s : State) (n : Nat) : Word :=
  if s.coreWorld n then s.cfg.resetEntryS else s.cfg.resetEntry

/-- The core numbered n. -/
def State.core (s : State) (n : Nat) : Core := tget s.cores n (Core.reset n (s.coreWorld n) (s.resetEntryOf n))

/-- Replaces a core. -/
def State.setCore (s : State) (n : Nat) (c : Core) : State := { s with cores := tset s.cores n c }

/-- Context k of a core. -/
def Core.ctx (c : Core) (k : Nat) : Ctx := if k = 0 then c.c0 else c.c1

/-- Replaces context k of a core. -/
def Core.setCtx (c : Core) (k : Nat) (x : Ctx) : Core := if k = 0 then { c with c0 := x } else { c with c1 := x }

/-- Context k of core n. -/
def State.ctx (s : State) (n k : Nat) : Ctx := (s.core n).ctx k

/-- Replaces context k of core n. -/
def State.setCtx (s : State) (n k : Nat) (x : Ctx) : State := s.setCore n ((s.core n).setCtx k x)

/-- Bank 1 is E, bank 2 is D (R245). -/
def Core.bank (c : Core) (b : Nat) : Bank := if b = 2 then c.bankD else c.bankE

/-- Replaces a bank. -/
def Core.setBank (c : Core) (b : Nat) (x : Bank) : Core := if b = 2 then { c with bankD := x } else { c with bankE := x }

/-- A bank register by its state number (R118). -/
def Bank.r (b : Bank) (n : Nat) : Word := tget b.br n 0

/-- Writes a bank register. -/
def Bank.setR (b : Bank) (n : Nat) (v : Word) : Bank := { b with br := tset b.br n v }

/-! ## State registers of a context -/

/-- State register numbers of R118. -/
def nSTATUS : Nat := 0x00
def nCTXID : Nat := 0x01
def nRPT : Nat := 0x02
def nVSTATE : Nat := 0x03
def nWBASE : Nat := 0x04
def nWDEPTH : Nat := 0x05
def nMPROG : Nat := 0x06
def nMASKLIMIT : Nat := 0x07
def nPKMLO : Nat := 0x08
def nPKMHI : Nat := 0x09
def nIPTBASE : Nat := 0x0A
def nIPTSIZE : Nat := 0x0B
def nIPTHASH : Nat := 0x0C
def nECAUSE : Nat := 0x10
def nEINFO : Nat := 0x11
def nEADDR : Nat := 0x12
def nEELEM : Nat := 0x13
def nEPC : Nat := 0x14
def nESTATUS : Nat := 0x15
def nECEIL : Nat := 0x16
def nLSTART : Nat := 0x20
def nLEND : Nat := 0x24
def nLCOUNT : Nat := 0x28
def nRSTK : Nat := 0x40
def nASCENTRY : Nat := 0x41
def nASCSTACK : Nat := 0x42
def nASCRET : Nat := 0x43
def nASCRSTK : Nat := 0x44
def nSAREA : Nat := 0x45
def nVAREA : Nat := 0x46
def nVHOLD : Nat := 0x47

/-- The reset value of a context's 64-bit state register that is the same for every context (R120, R125, R344). -/
def srReset (n : Nat) : Word :=
  if n = nVSTATE then 0x4000
  else if n = nPKMLO ∨ n = nPKMHI then 0xFFFFFFFFFFFFFFFF
  else 0

/-- A 64-bit state register of a context. -/
def Ctx.srv (x : Ctx) (n : Nat) : Word := tget x.sr n (srReset n)

/-- Writes a 64-bit state register of a context, as the hardware does: visible to the next instruction (R74, R117). -/
def Ctx.setSr (x : Ctx) (n : Nat) (v : Word) : Ctx := { x with sr := tset x.sr n v }

/-- A capability state register of a context. -/
def Ctx.csrv (x : Ctx) (n : Nat) : Cap := tget x.csr n Cap.null

/-- Writes a capability state register of a context. -/
def Ctx.setCsr (x : Ctx) (n : Nat) (c : Cap) : Ctx := { x with csr := tset x.csr n c }

/-- The fields of STATUS (R119). -/
def stSUP (w : Word) : Bool := flag w 0
def stWORLD (w : Word) : Bool := flag w 1
def stEXL (w : Word) : Bool := flag w 2
def stGM (w : Word) : Bool := flag w 3
def stIE (w : Word) : Bool := flag w 4
def stSS (w : Word) : Bool := flag w 6

/-- STATUS of a context. -/
def Ctx.status (x : Ctx) : Word := x.srv nSTATUS

/-- Writes STATUS as the hardware does. -/
def Ctx.setStatus (x : Ctx) (w : Word) : Ctx := x.setSr nSTATUS w

/-- A capability register of a context, c15 being the stored program-counter capability. -/
def Ctx.cap (x : Ctx) (n : Nat) : Cap := tget x.caps n Cap.null

/-- Writes a capability register of a context. -/
def Ctx.setCap (x : Ctx) (n : Nat) (c : Cap) : Ctx := { x with caps := tset x.caps n c }

/-- The world of a context (R72). -/
def Ctx.world (x : Ctx) : Bool := stWORLD x.status

/-- MASKLIMIT.LIMIT of a core: its reset value is 16,384, and a value below 256 acts as 256 (R257). -/
def Core.maskLimit (c : Core) : Nat :=
  let l := fld (tget c.sr nMASKLIMIT 0x4000) 23 0
  if l < 256 then 256 else l

/-- A core-wide state register by number (R118, R125). -/
def Core.srv (c : Core) (n : Nat) : Word := tget c.sr n (if n = nMASKLIMIT then 0x4000 else 0)

/-- Writes a core-wide state register. -/
def Core.setSr (c : Core) (n : Nat) (v : Word) : Core := { c with sr := tset c.sr n v }

/-- The program-counter capability in force: the handler capability of the bank in use while EXL is set in the context,
c15 otherwise (R241). -/
def State.pcc (s : State) (n k : Nat) : Cap :=
  let c := s.core n
  if stEXL (c.ctx k).status && decide (c.inUse ≠ 0) then (c.bank c.inUse).hcap else (c.ctx k).cap 15

/-- Writes the program-counter capability in force (R241). -/
def State.setPcc (s : State) (n k : Nat) (p : Cap) : State :=
  let c := s.core n
  if stEXL (c.ctx k).status && decide (c.inUse ≠ 0) then
    s.setCore n (c.setBank c.inUse { c.bank c.inUse with hcap := p })
  else s.setCtx n k ((c.ctx k).setCap 15 p)

/-- The address of the next instruction of a context. -/
def State.pc (s : State) (n k : Nat) : Nat := (s.pcc n k).cur

/-- Moves the cursor of the program-counter capability, under R37. -/
def State.setPc (s : State) (n k a : Nat) : State := s.setPcc n k ((s.pcc n k).setCursor a)

/-- The other resident context. -/
def other (k : Nat) : Nat := if k = 0 then 1 else 0

end Sys2Proof.Machine
end

