-- ==== Sys2Proof/Machine/Intc.lean ====
section
/-! DEFINITION. The interrupt controller: reports, hold times, acceptability and the active sources ("Exceptions and
interrupts", R263-R270); the queues of device events and of frames on their way ("Dependability, ageing and monitors"). -/

namespace Sys2Proof.Machine

open Sys2Proof

/-- Draws a free value (Config.freeNat) and advances the counter. -/
def State.draw (s : State) : Nat × State := (Config.freeNat s.free, { s with free := s.free + 1 })

/-- The target a TARGET value routes to: a route to the odd core of a pair acts as a route to its even core (R263). -/
def State.normTarget (s : State) (t : Nat) : Nat := 2 * s.unit (t / 2) + t % 2

/-- LEVEL, EN, PEND and ACT of a source. -/
def State.srcLevelOf (s : State) (n : Nat) : Nat := s.rf (.intcSrc n) intcSrc_LEVEL
def State.srcEn (s : State) (n : Nat) : Bool := decide (s.rf (.intcSrc n) intcSrc_EN = 1)
def State.srcPend (s : State) (n : Nat) : Bool := decide (s.rf (.intcSrc n) intcSrc_PEND = 1)
def State.srcAct (s : State) (n : Nat) : Bool := decide (s.rf (.intcSrc n) intcSrc_ACT = 1)
def State.srcTarget (s : State) (n : Nat) : Nat := s.normTarget (s.rf (.intcSrc n) intcSrc_TARGET)

/-- hold of R266: INTC.CFG.HOLD in nanoseconds. -/
def State.intcHold (s : State) : Nat := s.rf .intcCfg intcCfg_HOLD * 1000

/-- The time until which the hold of a source runs: last_accept + hold, 0 when the source was never accepted. -/
def State.holdUntil (s : State) (n : Nat) : Nat :=
  match tfind s.srcLast n with
  | none => 0
  | some t => t + s.intcHold

/-- runpri of R266: the highest LEVEL, as accepted, among the active sources of target t; 0 when none. -/
def State.runpri (s : State) (t : Nat) : Nat :=
  s.srcLevel.foldl (fun m e => if e.2.1 = t then max m e.2.2 else m) 0

/-- Brings INTC.TGT[t].RUNPRI up to date. -/
def State.updRunpri (s : State) (t : Nat) : State := s.setRf (.intcTgt t) intcTgt_RUNPRI (s.runpri t)

/-- The better of two offered sources: the higher LEVEL, the lower number on a tie (R266). -/
def better (s : State) (a : Option Nat) (n : Nat) : Option Nat :=
  match a with
  | none => some n
  | some m => if s.srcLevelOf m < s.srcLevelOf n then some n else some m

/-- best_pending of R266 over the listed sources: the listed registers are the only ones that can have PEND set. -/
def State.bestPending (s : State) (t : Nat) : Option Nat :=
  (List.range 640).foldl
    (fun a n => if s.srcEn n && s.srcPend n && decide (s.srcTarget n = t) then better s a n else a) none

/-- A source accepted before keeps its place: takes source n back to pending and inactive, with last_accept as it was
before (R250). -/
def State.unaccept (s : State) (n before : Nat) : State :=
  let s := (s.setRf (.intcSrc n) intcSrc_PEND 1).setRf (.intcSrc n) intcSrc_ACT 0
  { s with srcLevel := tdel s.srcLevel n, srcLast := if before = 0 then tdel s.srcLast n else tset s.srcLast n (before - 1) }

/-- accept of R266: source n becomes active at target t. -/
def State.acceptSrc (s : State) (t n : Nat) : State :=
  let s := (s.setRf (.intcSrc n) intcSrc_PEND 0).setRf (.intcSrc n) intcSrc_ACT 1
  ({ s with srcLast := tset s.srcLast n s.now
            srcLevel := tdel s.srcLevel n ++ [(n, (t, s.srcLevelOf n))] }).updRunpri t

/-- The takeover of R250: when the entry of an interrupt at the target of source n is still open and n is enabled, pending
and at a higher level, n may take the entry over. Whether it arrives in cycles 0-5 is not fixed here: a free value says, and an entry
that has once passed them is closed to every later source. -/
def State.takeover (s : State) (n : Nat) : State :=
  let t := s.srcTarget n
  let core := t / 2
  let c := s.core core
  match c.openEntry with
  | none => s
  | some o =>
    if o.ctx = t % 2 ∧ s.srcEn n = true ∧ s.srcPend n = true ∧ o.level < s.srcLevelOf n
        ∧ s.rf (.intcTgt t) intcTgt_THRESH < s.srcLevelOf n then
      let (v, s) := s.draw
      if v % 2 = 0 then s.setCore core { c with openEntry := none }
      else
        let level := s.srcLevelOf n
        let before := match tfind s.srcLast n with
          | none => 0
          | some x => x + 1
        let s := (s.unaccept o.source o.before).acceptSrc t n
        let c := s.core core
        let b := (c.bankE.setR nECAUSE (word (2 ^ 31 + 0x20 + level))).setR nEINFO
          (word (n + s.rf (.intcSrc n) intcSrc_CNT * 2 ^ 16))
        s.setCore core { c with bankE := b, openEntry := some { o with source := n, level := level, before := before } }
    else s

/-- The threshold of target t is written: a pending source that it now lets through may take an open entry over (R250, R266). -/
def State.retarget (s : State) (t : Nat) : State :=
  match s.bestPending t with
  | none => s
  | some n => s.takeover n

/-- report of R266: counts, and pends or defers the source. -/
def State.report (s : State) (n : Nat) : State :=
  let s := s.satRf (.intcSrc n) intcSrc_CNT 1
  if s.srcPend n || s.srcAct n then s
  else if s.now < s.holdUntil n then s.setRf (.intcSrc n) intcSrc_DEFER 1
  else (s.setRf (.intcSrc n) intcSrc_PEND 1).takeover n

/-- The active source of target t that an EOI ends (R267): the highest LEVEL as accepted, the later accepted on a tie. -/
def State.eoiSource (s : State) (t : Nat) : Option Nat :=
  (s.srcLevel.foldl (fun (b : Option (Nat × Nat)) e =>
    if e.2.1 = t then
      match b with
      | none => some (e.1, e.2.2)
      | some (m, l) => if l ≤ e.2.2 then some (e.1, e.2.2) else some (m, l)
    else b) none).map (fun e => e.1)

/-- INTC.TGT[t].EOI (R267). -/
def State.eoi (s : State) (t : Nat) : State :=
  match s.eoiSource t with
  | none => s
  | some n => { s.setRf (.intcSrc n) intcSrc_ACT 0 with srcLevel := tdel s.srcLevel n }.updRunpri t

/-- hold_end of R266: a deferred report of a source that is not active becomes pending. -/
def State.holdEnd (s : State) (n : Nat) : State :=
  if s.rf (.intcSrc n) intcSrc_DEFER = 1 ∧ s.srcAct n = false then
    ((s.setRf (.intcSrc n) intcSrc_DEFER 0).setRf (.intcSrc n) intcSrc_PEND 1).takeover n
  else s

/-- NOW.NS has reached INTC.TMR[k].CMP: one report to source 600 + k, and CMP is set to all ones (R270). -/
def State.timerFire (s : State) (k : Nat) : State :=
  (s.setReg (.intcTmr k) 0xFFFFFFFFFFFFFFFF).report (600 + k)

/-- What a write of INTC.SRC[n] does beside its fields (R270): CNTSUB is subtracted from CNT, stopping at 0, and a pending
source is re-evaluated at once. -/
def State.srcWritten (s : State) (n : Nat) (v : Word) : State :=
  let cnt := s.rf (.intcSrc n) intcSrc_CNT
  (s.setRf (.intcSrc n) intcSrc_CNT (cnt - fld v 47 32)).takeover n

/-- What a write of INTC.DOORBELL does (R270): a report to source 616 + d for d from 0 to 23. -/
def State.doorbell (s : State) (v : Word) : State := if fld v 4 0 < 24 then s.report (616 + fld v 4 0) else s

/-! ## S-class fields -/

/-- The boundary of the S-class fields of a register: the values last written to them take effect (R9, R12). -/
def State.boundary (s : State) (r : Reg) : State :=
  let mine := s.shadow.filter (fun e => decide (e.1 = r))
  let v := mine.foldl (fun v e => match r.fields.find? (fun f => decide (f.lo = e.2.1)) with
    | some f => setFld v f.hi f.lo e.2.2
    | none => v) (s.reg r)
  if mine.isEmpty then s
  else { s.setReg r v with shadow := s.shadow.filter (fun e => decide (e.1 ≠ r)) }

/-! ## Events -/

/-- An event on its way to the coalescer (R529). -/
def State.raise (s : State) (sc ix ev aux detail : Nat) : State :=
  { s with events := s.events ++ [(⟨sc, ix, ev, aux, detail⟩ : DevEvent)] }

/-- AUX of CFG_IGNORED and CFG_REJECT (R581): 0 for a core, 1 for IMG, 2 for a Ridge-checked master, 3 for the MGT endpoints. -/
def cfgAux (q : Requester) : Nat :=
  match q with
  | .core _ _ => 0
  | .master k _ => if k = 10 then 1 else if k < 10 then 2 else 3

/-- CFG_IGNORED of a register write (R9, R581). -/
def State.cfgIgnored (s : State) (q : Requester) (r : Reg) : State := s.raise 11 r.block 0x3A (cfgAux q) r.pa

/-- CFG_REJECT of a register write (R10, R581). -/
def State.cfgReject (s : State) (q : Requester) (r : Reg) : State := s.raise 11 r.block 0x3B (cfgAux q) r.pa

/-- The sending of an event report advances time to at least t, in steps of the management clock (R270). -/
def State.advanceTo (s : State) (t : Nat) : State := { s with now := Nat.max s.now (roundUp t 10) }

/-! ## Frames that end, and frames that return to their queue -/

/-- A frame ends without a commit: source 4l is reported and egress is given a notice with the outcome (R439, R483), and the counts
LSTAT.ERR and CSTAT.DEADL (R440) take it in; its slot is freed (R412). -/
def State.endFrame (s : State) (f : Frame) (outcome : Nat) : State :=
  let s := s.satRf (.ingLstat f.lane) ingLstat_ERR 1
  let s := if outcome = 3 then s.satRf (.ingCstat f.cls) ingCstat_DEADL 1 else s
  let s := { s with egr := s.egr ++ [(⟨f.lane, none, 0, outcome, f.tag, 0, 0, f.src⟩ : Resp)]
                    slots := s.slots.filter (fun x => decide (x ≠ f.slot)) }
  s.report (4 * f.lane)

/-- redispatch of R438: the frame returns to the head of its class queue with ATTEMPT increased, unless its deadline has
passed (DEADLINE) or ATTEMPT would exceed CFG.RETRY (RETRY_LIMIT). -/
def State.redispatch (s : State) (f : Frame) (fromPair : Nat) : State :=
  if f.deadline < s.now then s.endFrame f 3
  else if s.rf .ingCfg ingCfg_RETRY < f.attempt + 1 then s.endFrame f 2
  else
    let f' := { f with attempt := f.attempt + 1, lastPair := some fromPair }
    { s with queues := tset s.queues f.cls (f' :: tget s.queues f.cls []) }

/-- The commit buffer of a pair. -/
def State.buffer (s : State) (n : Nat) : List CbEntry := tget s.cbuf n []

/-- The context an entry of the commit buffer belongs to. -/
def CbEntry.owner : CbEntry → Nat
  | .line k _ _ _ _ => k
  | .rstore k _ _ _ _ _ => k
  | .rcap k _ _ _ => k
  | .rpass k _ _ _ _ _ => k

/-- How many of the 256 entries an entry takes (R432). -/
def CbEntry.weight : CbEntry → Nat
  | .rpass _ _ _ _ _ _ => 3
  | _ => 1

/-- Entries in use. -/
def State.bufferUsed (s : State) (n : Nat) : Nat := ((s.buffer n).map CbEntry.weight).sum

/-- Drops the entries of context k (R435). -/
def State.dropBuffer (s : State) (n k : Nat) : State :=
  { s with cbuf := tset s.cbuf n ((s.buffer n).filter (fun e => decide (e.owner ≠ k))) }

/-- Discards the transaction of context k of core n (R435); outcome none redispatches the frame, some o ends it with o. -/
def State.discardTx (s : State) (n k : Nat) (outcome : Option Nat) : State :=
  let x := s.ctx n k
  if x.tx.state ≠ .active then s
  else
    let s := (s.dropBuffer n k).setCtx n k { x with tx := { x.tx with state := .discarded, late := [] } }
    match x.tx.frame, outcome with
    | none, _ => s
    | some f, none => s.redispatch f (n / 2)
    | some f, some o => s.endFrame f o

end Sys2Proof.Machine
end

