-- ==== Sys2Proof/Machine/Stores.lean ====
section
/-! DEFINITION. Writes as they become visible, the store buffers in front of memory, and what a write by one agent does to the
reservations of the others (R192, R195, R282). -/

namespace Sys2Proof.Machine

open Sys2Proof

/-- The memory behind a target. -/
def State.memOf (s : State) (t : Tgt) : Mem :=
  match t with
  | .dram => s.mem
  | .tcm u => tget s.tcms u Mem.empty

/-- Replaces the memory behind a target. -/
def State.setMemOf (s : State) (t : Tgt) (m : Mem) : State :=
  match t with
  | .dram => { s with mem := m }
  | .tcm u => { s with tcms := tset s.tcms u m }

/-- The line that holds an address. -/
def lineOf (a : Nat) : Nat := a / 64 * 64

/-- What a write of a line by another agent does to a context: its reservation on the line ends (R192), and a transaction
that has stored conditionally to the line is broken (R195). -/
def Ctx.hitBy (x : Ctx) (t : Tgt) (line : Nat) : Ctx :=
  let x := match x.resv with
    | some r => if r.tgt = t ∧ r.line = line then { x with resv := none } else x
    | none => x
  if x.tx.lines.contains (t, line) then { x with tx := { x.tx with broken := true } } else x

/-- The effect of a write of a line by an agent (a context, or none for any other agent) on every other context; FIXED of the
line's sidecar is clear again (R385). -/
def State.lineWritten (s : State) (t : Tgt) (line : Nat) (agent : Option (Nat × Nat)) : State :=
  { s with
    fixed := if t = .dram then s.fixed.filter (fun l => decide (l ≠ line)) else s.fixed
    cores := s.cores.map (fun e =>
      (e.1, { e.2 with
        c0 := if agent = some (e.1, 0) then e.2.c0 else e.2.c0.hitBy t line
        c1 := if agent = some (e.1, 1) then e.2.c1 else e.2.c1.hitBy t line })) }

/-- Writes become visible: each under its row of R59, with its effect on reservations. -/
def State.writeOps (s : State) (t : Tgt) (agent : Option (Nat × Nat)) : List WOp → State
  | [] => s
  | o :: os =>
    let s := s.setMemOf t ((s.memOf t).applyOp o).1
    (s.lineWritten t (lineOf o.addr) agent).writeOps t agent os

/-- Sets one word directly, as the hardware's own actions do, with its effect on reservations. -/
def State.putWord (s : State) (t : Tgt) (a v tag : Nat) (agent : Option (Nat × Nat)) : State :=
  let s := s.setMemOf t ((s.memOf t).writeWord a v tag)
  s.lineWritten t (lineOf a) agent

/-- An item of a lockstep pair is formed in the issue cycle of its instruction, to be compared 2 cycles later (R291). -/
def State.form (s : State) (n : Nat) (i : Item) : State :=
  if s.paired n then
    let c := s.core n
    s.setCore n { c with cmp := c.cmp ++ [⟨c.pace.last, i⟩] }
  else s

/-- The instruction under way on a P-core holds issue for m more cycles. -/
def State.moreCycles (s : State) (n m : Nat) : State :=
  let c := s.core n
  if n < 48 then s.setCore n { c with pace := { c.pace with last := c.pace.last + m } } else s

/-- The prefetch queue empties (R277): the port reads the word of the next address in the cycle after c. -/
def State.flushQueue (s : State) (n c : Nat) : State :=
  let k := s.core n
  s.setCore n { k with prefetch := [], kept := none, pace := { k.pace with port := Nat.max k.pace.port c, older := false } }

/-- A P-core switches to another context (R122): 6 cycles in which neither issues, then the refill of the queue. -/
def State.refill (s : State) (n : Nat) : State :=
  let s := s.moreCycles n 6
  if n < 48 then s.flushQueue n (s.core n).pace.last else s

/-- The TCM port of a P-core writes a store-buffer entry in its next cycle, and an instruction that waits for the entry holds issue
until then (R281, R282). -/
def State.portUsed (s : State) (n : Nat) : State :=
  let c := s.core n
  let p := Nat.max (Nat.max c.pace.port c.pace.start) c.pace.entry + 1
  if n < 48 then s.setCore n { c with pace := { c.pace with port := p, last := Nat.max c.pace.last p } } else s

/-- What the words of a store of a W-core held before, for a fetch that need not see it yet (R207). -/
def State.noteOld (s : State) (n : Nat) (e : SbEntry) : State :=
  let c := s.core n
  if n < 48 then s
  else
    let m := s.memOf e.tgt
    s.setCore n { c with oldCode := c.oldCode ++ e.ops.map (fun o => ⟨o.addr, m.word o.addr, m.tag o.addr, 0⟩) }

/-- The oldest store-buffer entry of a core leaves and becomes visible (R282). -/
def State.drainOne (s : State) (n : Nat) : State :=
  let c := s.core n
  match c.sb with
  | [] => s
  | e :: es => ((s.setCore n { c with sb := es }).noteOld n e).writeOps e.tgt (some (n, e.ctx)) e.ops

/-- Every entry leaves, in order; fuel is the number of entries. -/
def State.drainN (s : State) (n : Nat) : Nat → State
  | 0 => s
  | k + 1 => (s.drainOne n).drainN n k

/-- The store buffer of a core empties (a drain). -/
def State.drain (s : State) (n : Nat) : State := s.drainN n (s.core n).sb.length

/-- The entries of a store buffer up to the last far one. -/
def sbFar : List SbEntry → Nat
  | [] => 0
  | e :: es => if sbFar es = 0 ∧ e.tgt ≠ .dram then 0 else sbFar es + 1

/-- Every far store of a core is sent, and what stands before it in the buffer (R282, R284). -/
def State.sendFar (s : State) (n : Nat) : State := s.drainN n (sbFar (s.core n).sb)

end Sys2Proof.Machine
end

