-- ==== Sys2Proof/Machine/Packets.lean ====
section
/-! DEFINITION. The fabric as a node sends to it: packet types, routes and links, the packets of this node, and the NACK to the requesters
of services that are lost ("The Cordillera fabric and the estate", R494-R499, R516). -/

namespace Sys2Proof.Machine

open Sys2Proof

/-! ## Packet types (R495) -/

def pkLOAD : Nat := 0x01
def pkSTORE : Nat := 0x02
def pkPASS : Nat := 0x03
def pkLOOKUP : Nat := 0x04
def pkREG : Nat := 0x05
def pkOFFER : Nat := 0x06
def pkPHYSRD : Nat := 0x07
def pkPHYSWR : Nat := 0x08
def pkDATA : Nat := 0x10
def pkACK : Nat := 0x11
def pkNACK : Nat := 0x12
def pkPASSREPLY : Nat := 0x13
def pkLOOKREPLY : Nat := 0x14
def pkMDATA : Nat := 0x18
def pkFRAME : Nat := 0x19
def pkFRESP : Nat := 0x1A
def pkLOST : Nat := 0x20
def pkJOIN : Nat := 0x21
def pkECHO : Nat := 0x22

/-- The virtual channel of a packet type; none for a reserved type (R495). -/
def vcOf (typ : Nat) : Option Nat :=
  if 0x01 ≤ typ ∧ typ ≤ 0x08 then some 0
  else if 0x10 ≤ typ ∧ typ ≤ 0x14 then some 1
  else if 0x18 ≤ typ ∧ typ ≤ 0x1A then some 3
  else if 0x20 ≤ typ ∧ typ ≤ 0x22 then some 2
  else none

/-- This node's number and the size of the estate. -/
def State.node (s : State) : Nat := s.rf .cdlEst cdlEst_NODE
def State.estSize (s : State) : Nat := s.rf .cdlEst cdlEst_SIZE

/-- Link states (R487). -/
def lsDOWN : Nat := 0
def lsTRAIN : Nat := 1
def lsAUTH : Nat := 2
def lsADMITTED : Nat := 3
def lsATTACHED : Nat := 4

/-- The state of a link. -/
def State.linkState (s : State) (l : Nat) : Nat := s.rf (.cdlLstat l) cdlLstat_STATE

/-- Source 176 + 8l + k is reported (R528). -/
def State.linkReport (s : State) (l k : Nat) : State := s.report (176 + 8 * l + k)

/-! ## Routes -/

/-- flow of R498. -/
def flowOf (src addr : Nat) : Nat := Nat.xor (src * 0x9E37) (bits addr 47 21) % 65536

/-- The run of a link. -/
def State.linkRun (s : State) (l : Nat) : LinkRun := tget s.links l LinkRun.start

/-- Replaces the run of a link. -/
def State.setLink (s : State) (l : Nat) (x : LinkRun) : State := { s with links := tset s.links l x }

/-- A link that routes may use: ADMITTED, and not of a slice being quiesced (R498, R572). -/
def State.linkUsable (s : State) (l : Nat) : Bool := decide (s.linkState l = lsADMITTED) && !(s.linkQui.contains l)

/-- The link for a packet to another node, if any (R498): among the ADMITTED links of LINKS by flow, otherwise ALT. A packet
for an ATTACHED peer uses only the link to that peer. -/
def State.routeLink (s : State) (dst src addr : Nat) : Option Nat :=
  match (List.range 12).find? (fun l => decide (s.linkState l = lsATTACHED) && decide (s.rf (.cdlLstat l) cdlLstat_PEER = dst)) with
  | some l => some l
  | none =>
    let r := s.reg (.cdlRoute dst)
    if fld r 0 0 = 0 then none
    else
      let ls := (List.range 12).filter (fun l => flag r (4 + l) && s.linkUsable l)
      if ls.length ≠ 0 then ls[flowOf src addr % ls.length]?
      else if fld r 20 20 = 1 ∧ s.linkUsable (fld r 19 16) = true then some (fld r 19 16)
      else none

/-- A packet as it leaves on a link that carries no tags: each word as a Ridge-checked master reads it, INT and FLT giving their data and
any other tag zero (R57, R70). -/
def untagged (p : Pkt) : Pkt :=
  { p with
    tags := []
    payload := p.payload.zipIdx.map (fun e =>
      let t := p.tags.getD (e.2 / 8) tINT
      if t = tINT ∨ t = tFLT then e.1 else 0) }

/-- A packet leaves on a link; one whose arrival link lies in another dimension takes DL = 0 (R499), and an
ATTACHED link carries no tags (R70, R487). -/
def State.emit (s : State) (l : Nat) (arrival : Option Nat) (p : Pkt) : State :=
  let p := match arrival with
    | some a => if s.rf (.cdlLctl a) cdlLctl_DIM = s.rf (.cdlLctl l) cdlLctl_DIM then p else { p with dl := 0 }
    | none => p
  let p := if s.linkState l = lsATTACHED then untagged p else p
  let x := s.linkRun l
  { s.setLink l { x with pkts := x.pkts + 1, lastTx := s.now } with tx := s.tx ++ [(l, p)] }

/-- A packet of this node starts (R498, R499): delivered locally when it is for this node (link 12), sent on its route
otherwise; none when it is unroutable. -/
def State.send (s : State) (p : Pkt) : Option Nat × State :=
  if p.dst = s.node then (some 12, { s with loop := s.loop ++ [p] })
  else
    match s.routeLink p.dst s.node p.addr with
    | some l => (some l, s.emit l none p)
    | none => (none, s)

/-- A packet as this node makes it: TTL 31, buffer class 0 (R499). -/
def State.mkPkt (s : State) (typ dst reqid arg addr : Nat) (payload : List Byte) (tags : List Nat) : Pkt :=
  { typ := typ, vc := (vcOf typ).getD 0, dst := dst, src := s.node, ttl := 31, dl := 0, z := 0, reqid := reqid, arg := arg,
    addr := addr % 2 ^ 48, payload := payload, tags := tags }

/-- The payload bytes of words, least significant byte first. -/
def wordBytes (ws : List Nat) : List Byte := ws.flatMap (fun w => (toBytes w 8).map (BitVec.ofNat 8))

/-- The node sends a packet of its own; one that cannot be routed is lost. -/
def State.sendOwn (s : State) (p : Pkt) : State := (s.send p).2

/-- NACK to the sender of a request (R495): a reason, the owner's cause and translation reason, and a hint. -/
def State.nack (s : State) (src reqid reason cause oreason : Nat) (hint : Option Nat) : State :=
  let w := match hint with
    | some n => n % 1024 + 2 ^ 15
    | none => 0
  s.sendOwn (s.mkPkt pkNACK src reqid (reason % 16 + cause % 256 * 16 + oreason % 16 * 4096) 0 (wordBytes [w]) [tINT])

/-- The requesters of remote-PASS services that have been lost are answered NACK with reason 7 (R516), but those that are lost
themselves (R522). -/
def State.answerLost (s : State) : State :=
  let lost := s.fab.rpRun.filter (fun r => s.rpLost.contains r.num)
  let s : State := { s with rpLost := [], fab := { s.fab with rpRun := s.fab.rpRun.filter (fun r => !(s.rpLost.contains r.num)) } }
  lost.foldl (fun s r => if r.gone then s else s.nack r.src r.reqid 7 0 0 none) s

end Sys2Proof.Machine
end

