-- ==== Sys2Proof/Machine/Ops.lean ====
section
/-! DEFINITION. Taking an exception, double faults, core reset and the return from an exception ("Exceptions and
interrupts", R240-R262, R217), each as one shared operation; releasing a context. -/

namespace Sys2Proof.Machine

open Sys2Proof

/-- A cause to raise: its code (R261), EINFO, EADDR and EELEM. -/
structure Trap where
  code : Nat
  info : Nat
  addr : Nat
  elem : Nat
  deriving DecidableEq, Repr

/-- Cause codes of R261. -/
def ecRESERVED_OP : Nat := 0x01
def ecTAG_FAULT : Nat := 0x02
def ecCAP_BOUNDS : Nat := 0x03
def ecCAP_PERM : Nat := 0x04
def ecCAP_SEALED : Nat := 0x05
def ecCAP_INVALID : Nat := 0x06
def ecWINDOW_DEPTH : Nat := 0x07
def ecWINDOW_UNDER : Nat := 0x08
def ecPRIV : Nat := 0x09
def ecPRIV_RETURN : Nat := 0x0A
def ecPAGE_FAULT : Nat := 0x0B
def ecACCESS_MARK : Nat := 0x0C
def ecDIRTY_MARK : Nat := 0x0D
def ecKEY_DENY : Nat := 0x0E
def ecSE_ACCESS : Nat := 0x0F
def ecWALK_ERROR : Nat := 0x10
def ecALIGN : Nat := 0x11
def ecVLAZY : Nat := 0x12
def ecRSTACK : Nat := 0x13
def ecCOMMIT_OVERFLOW : Nat := 0x14
def ecBREAK : Nat := 0x15
def ecDEBUG_STEP : Nat := 0x16
def ecREMOTE_FAULT : Nat := 0x17
def ecCROSS_TIMEOUT : Nat := 0x18
def ecHANDLER_WATCHDOG : Nat := 0x19
def ecMC_CSPARITY : Nat := 0x30
def ecMC_POISON : Nat := 0x31
def ecMC_WALKPOISON : Nat := 0x32
def ecMC_BUS : Nat := 0x33
def ecBUSERR_ASYNC : Nat := 0x34
def ecDOUBLE : Nat := 0x3F

/-- A precise machine check, class MS (R244). -/
def isMS (code : Nat) : Bool :=
  decide (code = ecMC_CSPARITY) || decide (code = ecMC_POISON) || decide (code = ecMC_WALKPOISON) || decide (code = ecMC_BUS)

/-- PRIV with its zero EINFO and EADDR (R261). -/
def trapPRIV : Trap := ⟨ecPRIV, 0, 0, 0⟩

/-- The entry capability of R243 for a world and an interrupted level. -/
def State.entryCap (s : State) (world sup : Bool) : Cap :=
  if world then (if sup then s.cfg.entrySupS else s.cfg.entryUserS)
  else (if sup then s.cfg.entrySup else s.cfg.entryUser)

/-- The double-fault entry of R243. -/
def State.entryDoubleCap (s : State) (world : Bool) : Cap := if world then s.cfg.entryDoubleS else s.cfg.entryDouble

/-- What every entry does to the context beside STATUS: the reservation ends (R192), every earlier write is complete
(R173), and a stop on a held machine check ends. -/
def Ctx.atEntry (x : Ctx) : Ctx := { x with resv := none, flights := [], stopped := false, first := false, inRep := false, progress := none, due := none }

/-- The bank registers an entry writes (R245). -/
def Bank.capture (b : Bank) (epc : Nat) (status : Word) (eceil cause : Nat) (t : Trap) (hcap : Cap) : Bank :=
  let b := ((b.setR nEPC (word epc)).setR nESTATUS status).setR nECEIL (word eceil)
  let b := (((b.setR nECAUSE (word cause)).setR nEINFO (word t.info)).setR nEADDR (word t.addr)).setR nEELEM (word t.elem)
  { b with hcap := hcap }

/-- A machine check is held in core n (R256): a late cause of a context whose GM is 0 or whose EXL is 1, or a context stopped at a
precise one. -/
def Core.holdsMc (c : Core) : Bool :=
  c.c0.stopped || c.c1.stopped
    || c.ma.any (fun m => !(stGM (c.ctx m.ctx).status) || stEXL (c.ctx m.ctx).status)

/-- The count of MASKLIMIT runs while a machine check is held (R257): it starts when one is first held. -/
def State.holdCheck (s : State) (n : Nat) : State :=
  let c := s.core n
  s.setCore n { c with maskSince := if c.holdsMc then some (c.maskSince.getD s.now) else none }

/-- The cycles of an entry of a P-core (R246, R247): cycle 0 follows the last issue cycle, the first handler instruction issues in cycle
12, the port reads its word from cycle 7 on, and the store buffer stays off the port until cycle 10. The other entries of a pair wait
for their comparison (R291). -/
def Core.entryPace (c : Core) (n cause epc : Nat) (paired : Bool) : Core :=
  if n < 48 then
    let a := c.pace.last + 1
    { c with
      pace := { start := a, last := a + 11, port := Nat.max c.pace.port (a + 6), entry := a + 10, older := false, younger := false }
      cmp := if paired then c.cmp ++ [⟨a, .entry cause epc⟩] else c.cmp }
  else c

/-- enter of R245 with EXL clear: bank E is captured and put in use, and STATUS takes EXL 1, SUP 1, IE 0. -/
def State.enterE (s : State) (n k : Nat) (t : Trap) (pc : Nat) : State :=
  let c := s.core n
  let x := c.ctx k
  let st := x.status
  let hcap := s.entryCap (stWORLD st) (stSUP st)
  let b := c.bankE.capture pc st (2 * b2n (stWORLD st) + b2n (stSUP st)) t.code t hcap
  let st' := setFlag (setFlag (setFlag st 2 true) 0 true) 4 false
  let c := ((c.setCtx k (x.atEntry.setStatus st')).setBank 1 b).entryPace n t.code pc (s.paired n)
  (s.setCore n { c with inUse := 1, openEntry := none, prefetch := [], kept := none }).holdCheck n

/-- enter_double of R251: bank D is captured and put in use; bank E keeps every value it holds, and EXL and SUP are 1 (R73, R245).
DESIGN CHOICE, safe: an entry met with SUP 0 (after DSUP or DESCEND in the handler) records in ECEIL the 1 that the pseudocode of R251
writes, where R99 names the interrupted level. -/
def State.enterD (s : State) (n k : Nat) (t : Trap) (pc : Nat) : State :=
  let c := s.core n
  let x := c.ctx k
  let st := setFlag x.status 2 true
  let cause := ecDOUBLE + (t.code % 256) * 2 ^ 8 + (fld (c.bankE.r nECAUSE) 7 0) * 2 ^ 16
  let b := c.bankD.capture pc st (2 * b2n (stWORLD st) + 1) cause t (s.entryDoubleCap (stWORLD st))
  let c := ((c.setCtx k (x.atEntry.setStatus (setFlag st 0 true))).setBank 2 b).entryPace n cause pc (s.paired n)
  (s.setCore n { c with inUse := 2, openEntry := none, prefetch := [], kept := none }).holdCheck n

/-- Ends what a context serves when its core is lost (R537, R540): the caller of a CROSS service is to end with reason 2,
and a remote-PASS service is answered NACK with reason 7 (R516). -/
def State.loseService (s : State) (n k : Nat) : State :=
  let x := s.ctx n k
  if x.tx.service = 1 then { s with xlost := s.xlost ++ [x.tx.req] }
  else if x.tx.service = 2 ∨ x.tx.service = 3 then { s with rpLost := s.rpLost ++ [x.tx.req] }.answerLost
  else s

/-- The commands of a context that is reset lose it, and finish in the engine (R540). -/
def State.dropKcmds (s : State) (n k : Nat) : State :=
  let lose := fun (c : KCmd) =>
    if c.core = n ∧ c.ctx = k ∧ c.fate = .live then
      { c with fate := if (s.ctx n k).tx.state = .none then .orphan else .mute }
    else c
  { s with kq := s.kq.map (fun e => (e.1, e.2.map lose)), kdone := s.kdone.map (fun d => { d with cmd := lose d.cmd }) }

/-- A context as core reset leaves it, PKM included (R125, R344). -/
def State.ctxAtReset (s : State) (n k : Nat) : Ctx := Ctx.reset n k (s.coreWorld n) (s.resetEntryOf n)

/-- Core n with both contexts, both banks and the core registers as core reset leaves them (R125, R240): its store buffer,
prefetch queue and TLBs are emptied. Whether it is held is kept. -/
def State.resetCoreState (s : State) (n : Nat) : State :=
  let s := (s.dropKcmds n 0).dropKcmds n 1
  let c := s.core n
  let r := Core.reset n (s.coreWorld n) (s.resetEntryOf n)
  s.setCore n { r with
    held := c.held, off := c.off, csBad := c.csBad, csFailed := c.csFailed, quiesced := c.quiesced, resets := c.resets + 1 }

/-- The stores that wait in the store buffer of a core that is reset (R137, R292, R295): those that a pair has compared have their turn, the
others are lost. An entry formed in the last 2 cycles may have been compared since: a free value says how many were. A core outside the
pairs compares nothing, and its stores are written. -/
def State.resetStores (s : State) (n : Nat) : State :=
  let c := s.core n
  let open' := (c.cmp.filter (fun i => match i.item with
    | .store e => c.sb.contains e
    | _ => false)).length
  if open' = 0 then s.drain n
  else
    let (v, s) := s.draw
    s.drainN n (c.sb.length - open' + v % (open' + 1))

/-- The image's TCM records of a P-core are written, and every other word of its TCM is UNINIT (R588). -/
def State.tcmReload (s : State) (n : Nat) : State :=
  if 48 ≤ n then s
  else
    match tfind s.cfg.tcmRange n with
    | none => { s with tcms := tdel s.tcms n }
    | some (base, _) =>
      let recs := s.cfg.tcmImg.filter (fun e => decide (e.1 = n))
      let m := recs.foldl (fun (m : Mem) e =>
        (e.2.2.foldl (fun (p : Mem × Nat) w => (p.1.setWord p.2 w tINT, p.2 + 8)) (m, base + e.2.1)).1) Mem.empty
      { s with tcms := tset s.tcms n m }

/-- The pair of core n fails over (R252, R540): the event is reported, every transaction is discarded and its frame
redispatched, services end, both cores are reset and held, and DEP.PAIR shows the self-test. -/
def State.failPair (s : State) (n ev : Nat) : State :=
  let p := n / 2
  let s := s.raise 1 p ev 0 0
  let s := ((s.discardTx n 0 none).discardTx n 1 none)
  let s := (s.loseService n 0).loseService n 1
  let s := { s with cbuf := tset s.cbuf n [], selfTest := tset s.selfTest p s.now }.resetStores n
  let s := s.resetCoreState n
  let s := s.setCore n { s.core n with held := true }
  (s.satRf (.depPair p) depPair_MM 1).setRf (.depPair p) depPair_STATE 1

/-- The core reset of R252: of a pair, the failover with event PAIR_RESET; of another core, the reset of R125. -/
def State.coreReset (s : State) (n : Nat) : State :=
  if s.paired n then s.failPair n 0x11
  else (((((s.discardTx n 0 none).discardTx n 1 none).loseService n 0).loseService n 1).resetStores n).resetCoreState n |>.tcmReload n

/-! ## Values in flight -/

/-- The values a consumer may see at a location, newest settled one last (R171): every write whose class its distance does
not meet, and the value after the last write whose class it does meet. -/
def candidates (fl : List Flight) (loc : Loc) : List Val :=
  let es := fl.filter (fun f => decide (f.loc = loc))
  let unmet := (es.filter (fun f => decide (0 < f.left))).map Flight.val
  if unmet.isEmpty then []
  else unmet ++ ((es.filter (fun f => decide (f.left = 0))).map Flight.val).getLast?.toList

/-- How a consumer chooses among the values in flight (R172): on a P-core by the cycle in which it reads its operands (R274), on a W-core
by a free value. -/
inductive Sight where
  | cycle (c : Nat)
  | free (pick : Nat)
  deriving DecidableEq, Repr

/-- What a read sees: the present value when no write is in flight. Otherwise a P-core sees the newest value whose cycle has come
(R274), and a W-core one of the candidates, which one being UNPREDICTABLE (R171). -/
def seeVal (fl : List Flight) (loc : Loc) (cur : Val) : Sight → Val
  | .cycle c =>
    match ((fl.filter (fun f => decide (f.loc = loc))).filter (fun f => decide (f.seen ≤ c))).getLast? with
    | some f => f.val
    | none => cur
  | .free pick =>
    let cs := candidates fl loc
    if cs.isEmpty then cur else cs.getD (pick % cs.length) cur

/-- A free choice made while an instruction runs, the k-th of its operands. -/
def State.pick (s : State) (k : Nat) : Nat := Config.operandChoice s.free k

/-- How the instruction under way on core n chooses for its operand number k. -/
def State.sight (s : State) (n k : Nat) : Sight :=
  if n < 48 then .cycle (s.core n).pace.start else .free (s.pick k)

/-- How the boundary after the last instruction of core n chooses: on a P-core as in the cycle after its issue cycle. -/
def State.sightNext (s : State) (n k : Nat) : Sight :=
  if n < 48 then .cycle ((s.core n).pace.last + 1) else .free (s.pick k)

def Val.word : Val → Word
  | .w x => x
  | _ => 0
def Val.cap : Val → Cap
  | .c x => x
  | _ => Cap.null
def Val.vec : Val → VReg
  | .v x => x
  | _ => 0
def Val.bool : Val → Bool
  | .b x => x
  | _ => false

/-- A 64-bit state register of a context as its next instruction sees it (R117, R171). -/
def State.seenSr (s : State) (n k num : Nat) : Word :=
  let x := s.ctx n k
  (seeVal x.flights (.sr num) (.w (x.srv num)) (s.sight n (64 + num))).word

/-- STATUS as it governs the instruction under way of a context (R117). -/
def State.seenStatus (s : State) (n k : Nat) : Word := s.seenSr n k nSTATUS

/-- STATUS as it governs a context at the boundary it stands at (R117). -/
def State.nextStatus (s : State) (n k : Nat) : Word :=
  let x := s.ctx n k
  (seeVal x.flights (.sr nSTATUS) (.w (x.srv nSTATUS)) (s.sightNext n (64 + nSTATUS))).word

/-- A register of a bank as the next instruction of a context sees it. -/
def State.seenBank (s : State) (n k b num : Nat) : Word :=
  (seeVal (s.ctx n k).flights (.bank b num) (.w (((s.core n).bank b).r num)) (s.sight n (64 + num))).word

/-- The bank in use as the next instruction of a context sees it. -/
def State.seenInUse (s : State) (n k : Nat) : Nat :=
  (seeVal (s.ctx n k).flights (.core 99) (.w (word (s.core n).inUse)) (s.sight n 99)).word.toNat

/-- A context is at an instruction boundary: it waits for nothing, or in a CROSS or KCMD wait (R244). -/
def Ctx.atBoundary (x : Ctx) : Bool :=
  match x.wait with
  | .none => true
  | .cross _ _ _ => true
  | .kcmd _ _ => true
  | _ => false

/-! ## The routines that the sequencer runs (R308) -/

/-- The routines that MPROG names (R312). -/
def rtCLEARTAG : Nat := 0x01
def rtCLEARTAGP : Nat := 0x02
def rtCPYT : Nat := 0x03
def rtSAVEL : Nat := 0x04
def rtSAVEH : Nat := 0x05
def rtLOADL : Nat := 0x06
def rtLOADH : Nat := 0x07
def rtVSPILL : Nat := 0x08
def rtVFILL : Nat := 0x09
def rtCROSS : Nat := 0x10
def rtKCMD : Nat := 0x11

/-- The other routines, under numbers of this model: PASS, RET of a PASS record, XREPLY, HANDLER_END, exception entry, REP of any
instruction but CPYT, CROSS issue, KCMD command formation, the translation walk, and the starts of a handler, a CROSS service and a
remote-PASS service. -/
def rtPASS : Nat := 0x20
def rtRET : Nat := 0x21
def rtXREPLY : Nat := 0x22
def rtHEND : Nat := 0x23
def rtENTRY : Nat := 0x24
def rtREP : Nat := 0x25
def rtXISSUE : Nat := 0x26
def rtKFORM : Nat := 0x27
def rtWALK : Nat := 0x28
def rtHSTART : Nat := 0x29
def rtXSTART : Nat := 0x2A
def rtRPSTART : Nat := 0x2B

/-- A routine that is resumable (R308). -/
def resumableRoutine (r : Nat) : Bool := decide (1 ≤ r) && decide (r ≤ 9) || decide (r = rtCROSS) || decide (r = rtKCMD) || decide (r = rtREP)

/-- The value of MPROG that records progress of a routine at an instruction (R312). -/
def mprogWord (routine pc wait prog : Nat) : Word :=
  word (routine * 2 ^ 56 + wait * 2 ^ 48 + bits pc 17 2 * 2 ^ 32 + prog % 2 ^ 32)

/-- The MC_CSPARITY of a routine whose control-store words fail in both copies (R322), if the routine has one. -/
def State.csTrap (s : State) (n : Nat) (routine : Option Nat) : Option Trap :=
  match routine with
  | none => none
  | some r =>
    ((s.core n).csBad.find? (fun b => decide (b.routine = r))).map (fun b =>
      ⟨ecMC_CSPARITY, b.nano % 1024 + 2 ^ 16 * b2n b.isNano + 2 ^ 17 * b2n b.resumable, b.micro % 8192, 0⟩)

/-- CS_DUAL is reported and DUAL of the core is set, that of the core whose store holds the word (R322). -/
def State.csMark (s : State) (n : Nat) (t : Trap) : State :=
  let c := match (s.core n).csBad.find? (fun b => decide (b.micro % 8192 = t.addr) && decide (b.nano % 1024 = t.info % 1024)) with
    | some b => b.core
    | none => n
  (s.raise 0 c 0x09 0 0).setRf (.mcsCore c) mcsCore_DUAL 1

/-- A fault of the entry routine itself (R251): EXL, SUP and IE stand as the entry sets them when bank D is entered. -/
def State.entryFault (s : State) (n k : Nat) (t : Trap) (pc : Nat) : State :=
  let x := s.ctx n k
  (s.setCtx n k (x.setStatus (setFlag (setFlag (setFlag x.status 2 true) 0 true) 4 false))).enterD n k t pc

/-- An entry with its control store: a word bad in both copies makes a lockstep pair fail over (R322); on another core a fault of the
entry into bank E enters as R251 states, and one of the entry into bank D resets the core (R252). -/
def State.enterBy (s : State) (n k : Nat) (t : Trap) (pc : Nat) (double : Bool) : State :=
  match s.csTrap n (some rtENTRY) with
  | none => if double then s.enterD n k t pc else s.enterE n k t pc
  | some c =>
    let s := s.csMark n c
    if s.paired n then s.failPair n 0x10
    else if double then s.coreReset n
    else s.entryFault n k c pc

/-- Exception entry with EXL clear (R245). -/
def State.enterExc (s : State) (n k : Nat) (t : Trap) (pc : Nat) : State := s.enterBy n k t pc false

/-- Raises a cause in context k of core n, pc being what EPC records (R244, R245, R251, R252, R256), under the STATUS and the bank in use
that govern the instruction (R117). While the other context of the core holds EXL, the context stops at the instruction and holds
the cause (R124). While GM is 0 a precise machine check is held, and the count of MASKLIMIT starts. -/
def State.raiseTrap (s : State) (n k : Nat) (t : Trap) (pc : Nat) : State :=
  let c := s.core n
  let x := c.ctx k
  let st := s.seenStatus n k
  if isMS t.code && !(stGM st) then
    (s.setCtx n k { x with stopped := true }).holdCheck n
  else if stEXL (c.ctx (other k)).status then s.setCtx n k { x with due := some (t.code, t.info, t.addr, t.elem) }
  else if stEXL st then
    if s.seenInUse n k = 2 then s.coreReset n else s.enterBy n k t pc true
  else s.enterExc n k t pc

/-- Clears EXL and releases the bank in use, the bank registers keeping their values (R240). -/
def State.releaseBank (s : State) (n k : Nat) : State :=
  let c := s.core n
  let x := c.ctx k
  if stEXL x.status then
    s.setCore n { (c.setCtx k (x.setStatus (setFlag x.status 2 false))) with inUse := 0 }
  else s

/-- The clearing of R139 and R316: a context that becomes IDLE at HANDLER_END, XREPLY or an abort release. CTXID, PKM.LO
and PKM.HI are kept, and so is STATUS, whose EXL the release of the bank has cleared (R73 names no change of SUP here). -/
def Ctx.cleared (x : Ctx) : Ctx :=
  let keep := [(nSTATUS, x.status), (nCTXID, x.srv nCTXID), (nPKMLO, x.srv nPKMLO), (nPKMHI, x.srv nPKMHI)]
  { st := .idle, g := [], ring := [], caps := [], vec := [], preds := [], sr := keep, csr := [], resv := none, flights := [],
    wait := .none, reply := none, kstatus := [], waitElem := 0, tx := Tx.none, serving := none, first := false, stopped := false, due := none, inRep := false,
    progress := none }

/-- A P-core context leaves RUN: the other context runs when it is READY, and no switch occurs while EXL is set (R122). A
W-core has no such switch (R123). -/
def State.switchAway (s : State) (n k : Nat) : State :=
  let c := s.core n
  let o := c.ctx (other k)
  if n < 48 ∧ o.st = .ready ∧ stEXL (c.ctx k).status = false ∧ stEXL o.status = false then
    (s.setCore n (c.setCtx (other k) { o with st := .run })).refill n
  else s

/-- Context k of core n is released to IDLE (R139): EXL is cleared with the bank in use, the registers are cleared, and a
pending late bus error of the context becomes an event (R259). -/
def State.releaseCtx (s : State) (n k : Nat) : State :=
  let s := s.releaseBank n k
  let c := s.core n
  let late := c.ma.filter (fun m => decide (m.ctx = k) && decide (m.code = ecBUSERR_ASYNC))
  let c := { (c.setCtx k (c.ctx k).cleared) with ma := c.ma.filter (fun m => decide (m.ctx ≠ k)) }
  let s := s.setCore n c
  let s := late.foldl (fun s m => s.raise 0 n 0x15 k m.addr) (s.holdCheck n)
  (s.dropKcmds n k).switchAway n k

/-- The state in which a context leaves IDLE or WAIT: on a P-core it runs only when the other context does not, and no switch occurs while
the other context holds EXL (R122). -/
def State.wakeState (s : State) (n k : Nat) : CtxState :=
  let o := s.ctx n (other k)
  if n < 48 ∧ (o.st = .run ∨ (o.st ≠ .idle ∧ stEXL o.status = true)) then .ready else .run

/-- Context k of core n leaves WAIT, or IDLE with work. A P-core that starts to run it fills its prefetch queue again. -/
def State.wake (s : State) (n k : Nat) : State :=
  let st := s.wakeState n k
  let s := s.setCtx n k { s.ctx n k with st := st }
  if st = .run then s.refill n else s

/-- eret of R217: none when a check raises PRIV (the cause is the answer), otherwise the state after it, the prefetch queue flushed in
the cycle that R254 gives. -/
def State.eret (s : State) (n k : Nat) : Except Trap State :=
  let c := s.core n
  let x := c.ctx k
  let st := s.seenStatus n k
  let bank := s.seenInUse n k
  if !(stSUP st) || !(stEXL st) || decide (bank = 2) then .error trapPRIV
  else
    let es := s.seenBank n k 1 nESTATUS
    let ceil := c.bankE.r nECEIL
    if (stSUP es && !(flag ceil 0)) || (stWORLD es != flag ceil 1) then .error ⟨ecPRIV_RETURN, 0, 0, 0⟩
    else
      let st' := setFlag (setFlag (setFlag (setFlag x.status 0 (stSUP es)) 3 (stGM es)) 4 (stIE es)) 2 false
      let epc := (s.seenBank n k 1 nEPC).toNat
      let x := { x with resv := none, flights := [], first := true }
      let x := (x.setStatus st').setCap 15 ((x.cap 15).setCursor epc)
      .ok (((s.setCore n { (c.setCtx k x) with inUse := 0, openEntry := none }).holdCheck n).flushQueue n (c.pace.last - 1))

end Sys2Proof.Machine
end

