-- ==== Sys2Proof/Machine/Operands.lean ====
section
/-! DEFINITION. Operands: reading and writing the registers an instruction names, the distance classes (R169-R173), the
window mapping (R108-R111), and the immediate of R147. -/

namespace Sys2Proof.Machine

open Sys2Proof

/-- The address of the last word of the instruction (R141). -/
def Env.endAddr (E : Env) : Nat := E.pc + E.len - 4

/-! ## Values in flight -/

/-- The cycles after the issue cycle from which a P-core sees a result of distance class d (R274): none for the ALU class, whose cascade
path reaches the younger of the same pair; 1 for a predicate; 2 for the classes that end in EX. -/
def seenAfter (d : Nat) : Nat := Nat.min d 2

/-- The writes in flight after a write of a class of distance d to a location that held old, by an instruction whose issue cycle on a
P-core is c. -/
def pushFlight (fl : List Flight) (loc : Loc) (old new : Val) (d c : Nat) : List Flight :=
  let present := fl.any (fun f => decide (f.loc = loc))
  if d = 0 then (if present then fl ++ [⟨loc, new, 0, c⟩] else fl)
  else (if present then fl else fl ++ [⟨loc, old, 0, 0⟩]) ++ [⟨loc, new, d + 1, c + seenAfter d⟩]

/-- One instruction slot has run (R169). When every write has settled, nothing is in flight. -/
def ageFlights (fl : List Flight) : List Flight :=
  let fl := fl.map (fun f => { f with left := f.left - 1 })
  if fl.all (fun f => decide (f.left = 0)) then [] else fl

/-- Records a write of distance class d in context k of core n. -/
def State.fly (s : State) (E : Env) (loc : Loc) (old new : Val) (d : Nat) : State :=
  let x := s.ctx E.n E.k
  if d = 0 ∧ x.flights.isEmpty then s
  else s.setCtx E.n E.k { x with flights := pushFlight x.flights loc old new d (s.core E.n).pace.last }

/-- Completes every write in flight of a context. -/
def State.settle (s : State) (n k : Nat) : State := s.setCtx n k { s.ctx n k with flights := [] }

/-! ## State registers as an instruction sees them -/

/-- A 64-bit state register of the context, as this instruction sees it (R117, R171). -/
def seeSr (s : State) (E : Env) (num : Nat) : Word :=
  let x := s.ctx E.n E.k
  (seeVal x.flights (.sr num) (.w (x.srv num)) (s.sight E.n (64 + num))).word

/-- A capability state register of the context, as this instruction sees it. -/
def seeCsr (s : State) (E : Env) (num : Nat) : Cap :=
  let x := s.ctx E.n E.k
  (seeVal x.flights (.csr num) (.c (x.csrv num)) (s.sight E.n (64 + num))).cap

/-- A core-wide state register, as this instruction sees it. -/
def seeCoreSr (s : State) (E : Env) (num : Nat) : Word :=
  let x := s.ctx E.n E.k
  (seeVal x.flights (.core num) (.w ((s.core E.n).srv num)) (s.sight E.n (64 + num))).word

/-- STATUS as this instruction sees it. -/
def seeStatus (s : State) (E : Env) : Word := seeSr s E nSTATUS

/-- The level of the context as this instruction sees it. -/
def seeSup (s : State) (E : Env) : Bool := stSUP (seeStatus s E)

/-- The bank whose registers the general specifiers name, 0 for none (R108). -/
def seeBank (s : State) (E : Env) : Nat :=
  if stEXL (seeStatus s E) then
    let c := s.core E.n
    (seeVal (c.ctx E.k).flights (.core 99) (.w (word c.inUse)) (s.sight E.n 99)).word.toNat
  else 0

/-! ## General registers -/

/-- The ring register behind window register w[m] (R111). -/
def ringIndex (wbase wdepth m : Nat) : Nat :=
  let slot := (wbase + wdepth) % 18
  if m < 16 then 16 * slot + m else 16 * ((slot + 1) % 18) + (m - 16)

/-- The register a 5-bit general specifier names (R108). -/
def gprLoc (s : State) (E : Env) (r : Nat) : Loc :=
  let b := seeBank s E
  if b ≠ 0 then .e b r
  else if r < 8 then .g r
  else .ring (ringIndex (fld (seeSr s E nWBASE) 4 0) (fld (seeSr s E nWDEPTH) 4 0) (r - 8))

/-- The value a general location holds. -/
def State.gloc (s : State) (n k : Nat) (l : Loc) : Word :=
  match l with
  | .g r => tget (s.ctx n k).g r 0
  | .ring i => tget (s.ctx n k).ring i 0
  | .e b r => tget ((s.core n).bank b).e r 0
  | _ => 0

/-- Writes a general location. -/
def State.setGloc (s : State) (n k : Nat) (l : Loc) (v : Word) : State :=
  match l with
  | .g r => let x := s.ctx n k; s.setCtx n k { x with g := tset x.g r v }
  | .ring i => let x := s.ctx n k; s.setCtx n k { x with ring := tset x.ring i v }
  | .e b r =>
    let c := s.core n
    s.setCore n (c.setBank b { c.bank b with e := tset (c.bank b).e r v })
  | _ => s

/-- Reads general register r as operand number i of the instruction. -/
def rdG (s : State) (E : Env) (i r : Nat) : Word :=
  let l := gprLoc s E r
  (seeVal (s.ctx E.n E.k).flights l (.w (s.gloc E.n E.k l)) (s.sight E.n i)).word

/-- Writes general register r with a result of distance class d. -/
def wrG (s : State) (E : Env) (r : Nat) (v : Word) (d : Nat) : State :=
  let l := gprLoc s E r
  let old := s.gloc E.n E.k l
  (s.fly E l (.w old) (.w v) d).setGloc E.n E.k l v

/-! ## Predicates -/

/-- Predicate p: p0 reads as true (R109). -/
def Ctx.pred (x : Ctx) (p : Nat) : Bool := if p = 0 then true else tget x.preds p false

/-- Reads predicate p as operand number i. -/
def rdP (s : State) (E : Env) (i p : Nat) : Bool :=
  let x := s.ctx E.n E.k
  if p = 0 then true else (seeVal x.flights (.p p) (.b (x.pred p)) (s.sight E.n i)).bool

/-- Writes predicate p, of the predicate class; a write to p0 is discarded (R109). -/
def wrP (s : State) (E : Env) (p : Nat) (v : Bool) (d : Nat) : State :=
  if p = 0 then s
  else
    let s := s.fly E (.p p) (.b ((s.ctx E.n E.k).pred p)) (.b v) d
    let x := s.ctx E.n E.k
    s.setCtx E.n E.k { x with preds := tset x.preds p v }

/-! ## Capability registers -/

/-- Reads capability register c as operand number i. c15 yields the program-counter capability in force with its cursor at
the address of the instruction (R110, R157, R241). -/
def rdC (s : State) (E : Env) (i c : Nat) : Cap :=
  if c = 15 then { s.pcc E.n E.k with cursor := word E.pc }
  else
    let x := s.ctx E.n E.k
    (seeVal x.flights (.c c) (.c (x.cap c)) (s.sight E.n i)).cap

/-- Writes capability register c with a result of distance class d. -/
def wrC (s : State) (E : Env) (c : Nat) (v : Cap) (d : Nat) : State :=
  let s := s.fly E (.c c) (.c ((s.ctx E.n E.k).cap c)) (.c v) d
  s.setCtx E.n E.k ((s.ctx E.n E.k).setCap c v)

/-! ## Vector registers -/

/-- Vector register v of a context. -/
def Ctx.vreg (x : Ctx) (v : Nat) : VReg := tget x.vec v 0

/-- Reads vector register v as operand number i. -/
def rdV (s : State) (E : Env) (i v : Nat) : VReg :=
  let x := s.ctx E.n E.k
  (seeVal x.flights (.v v) (.v (x.vreg v)) (s.sight E.n i)).vec

/-- Writes vector register v with a result of distance class d. -/
def wrV (s : State) (E : Env) (v : Nat) (w : VReg) (d : Nat) : State :=
  let s := s.fly E (.v v) (.v ((s.ctx E.n E.k).vreg v)) (.v w) d
  let x := s.ctx E.n E.k
  s.setCtx E.n E.k { x with vec := tset x.vec v w }

/-! ## Immediates -/

/-- The immediate of R147: the field of width k, alone or under the 20 payload bits of a WIDE prefix. -/
def immOf (wide : Option Nat) (field k : Nat) : Int :=
  match wide with
  | none => signExtend field k
  | some p => signExtend (p * 2 ^ k + field) (20 + k)

/-- The width of that immediate. -/
def immWidth (wide : Option Nat) (k : Nat) : Nat := if wide.isSome then 20 + k else k

/-- VSTATE.VL as this instruction sees it. -/
def seeVL (s : State) (E : Env) : Nat := fld (seeSr s E nVSTATE) 14 8

end Sys2Proof.Machine
end

