-- ==== Sys2Proof/Machine/Flags.lean ====
section
/-! DEFINITION. The conditions that compare instructions write to predicates, and the shifts and divisions of the register
instructions (R177, R179, R180). The device has no flags register: a predicate is the only flag an instruction writes. -/

namespace Sys2Proof.Machine

open Sys2Proof

/-- a = b -/
def cmpEq (a b : Word) : Bool := decide (a = b)
/-- a ≠ b -/
def cmpNe (a b : Word) : Bool := decide (a ≠ b)
/-- signed(a) < signed(b) -/
def cmpLt (a b : Word) : Bool := decide (signed a < signed b)
/-- signed(a) ≥ signed(b) -/
def cmpGe (a b : Word) : Bool := decide (signed b ≤ signed a)
/-- a < b, unsigned -/
def cmpLtu (a b : Word) : Bool := decide (a.toNat < b.toNat)
/-- a ≥ b, unsigned -/
def cmpGeu (a b : Word) : Bool := decide (b.toNat ≤ a.toNat)
/-- (a AND b) ≠ 0 -/
def cmpTst (a b : Word) : Bool := decide (a &&& b ≠ 0)

/-- wrap(a << n) -/
def shl (a : Word) (n : Nat) : Word := a <<< n
/-- a >> n -/
def shr (a : Word) (n : Nat) : Word := a >>> n
/-- wrap(signed(a) >> n), arithmetic -/
def sar (a : Word) (n : Nat) : Word := wrap (signed a / 2 ^ n)
/-- a rotated right by n -/
def rotr (a : Word) (n : Nat) : Word := a.rotateRight n

/-- Quotient rounded toward zero, signed (R180): a divisor of zero gives all ones, and −2^63 by −1 gives −2^63. -/
def divSigned (a b : Word) : Word :=
  if b = 0 then 0xFFFFFFFFFFFFFFFF else wrap ((signed a).tdiv (signed b))
/-- Quotient, unsigned; a divisor of zero gives all ones (R180). -/
def divUnsigned (a b : Word) : Word := if b = 0 then 0xFFFFFFFFFFFFFFFF else word (a.toNat / b.toNat)
/-- Remainder with the sign of the dividend; a divisor of zero gives a (R180). -/
def remSigned (a b : Word) : Word := if b = 0 then a else wrap ((signed a).tmod (signed b))
/-- Remainder, unsigned; a divisor of zero gives a (R180). -/
def remUnsigned (a b : Word) : Word := if b = 0 then a else word (a.toNat % b.toNat)

end Sys2Proof.Machine
end

