-- ==== Sys2Proof/Machine/Heat.lean ====
section
/-! DEFINITION. Where DRAM data lies, the heat of frames and the samples of plots, which every access to DRAM may change
("Stacked memory and placement", R384, R399-R401; R517). -/

namespace Sys2Proof.Machine

open Sys2Proof

/-! ## Where data lies (R384) -/

/-- The pseudo-channel of a frame of the visible map. -/
def pcOfFrame (f : Nat) : Nat := Nat.xor (f % 128) (f / 128 % 128)

/-- home of R384: pseudo-channel, slot, line and word of a DRAM address; the system area window lies above slot 49,151. -/
def home (a : Nat) : Nat × Nat × Nat × Nat :=
  let o := if 0x1800000000 ≤ a then a - 0x1800000000 else a
  let f := o / 2 ^ 14
  (pcOfFrame f, f / 128 + (if 0x1800000000 ≤ a then 49152 else 0), bits a 13 6, bits a 5 3)

/-- The DRAM address of line i of a pseudo-channel, in slot order: the inverse of home. -/
def lineAt (pc i : Nat) : Nat :=
  let slot := i / 256
  let (base, sl) := if slot < 49152 then (0, slot) else (0x1800000000, slot - 49152)
  base + (sl * 128 + Nat.xor pc (sl % 128)) * 2 ^ 14 + (i % 256) * 64

/-- Slots of a pseudo-channel: 49,152 visible frames and 1,638 of the system area. -/
def pcSlots : Nat := 50790

/-- The stack that holds a physical address. -/
def stackOf (pa : Nat) : Nat := (home pa).1 / 32

/-- The compute die of a stack, of pair k, and of core n. -/
def dieOfStack (st : Nat) : Nat := st / 2
def dieOfPair (k : Nat) : Nat := k / 12
def dieOfCore (n : Nat) : Nat := if n < 48 then dieOfPair (n / 2) else (n - 48) / 32

/-- The states of a pseudo-channel (R394). -/
def pcSERVICE : Nat := 0
def pcDRAINING : Nat := 1
def pcRETIRED : Nat := 2
def pcFENCED : Nat := 3
def State.pcState (s : State) (pc : Nat) : Nat := s.rf (.memPcstat pc) memPcstat_STATE

/-! ## Curves and heat (R399-R401) -/

/-- curve of R400 from its points, below which the first value and above which the last one holds. -/
def curveFrom (x x0 y0 : Nat) : List (Nat × Nat) → Nat
  | [] => y0
  | (x1, y1) :: ps =>
    if x ≤ x1 then (((y0 : Int) + Int.tdiv (((y1 : Int) - y0) * (x - x0)) (x1 - x0)) : Int).toNat
    else curveFrom x x1 y1 ps

/-- curve of R400. -/
def curve (c : List (Nat × Nat)) (x : Nat) : Nat :=
  match c with
  | [] => 0
  | (x0, y0) :: ps => if x ≤ x0 then y0 else curveFrom x x0 y0 ps

/-- The image's curve of an index, if it gives one (R563). -/
def State.curveOf (s : State) (i : Nat) : Option (List (Nat × Nat)) := tfind s.cfg.curves i

/-- The heat record of a frame. -/
def State.heatOf (s : State) (f : Nat) : Nat × Nat := tget s.heat f (0, 0)

/-- The load of a pseudo-channel: the heat of its frames. -/
def State.pcLoad (s : State) (pc : Nat) : Nat :=
  (s.heat.map (fun e => if pcOfFrame e.1 = pc then e.2.1 + e.2.2 else 0)).sum

/-- The pseudo-channels in SERVICE. -/
def State.pcsInService (s : State) : List Nat := (List.range 128).filter (fun p => decide (s.pcState p = pcSERVICE))

/-- Which move the evaluation of a frame starts (R401): true an affinity move, false a balance move. -/
def State.evalFrame (s : State) (f : Nat) : Option Bool :=
  let (h0, h1) := s.heatOf f
  let die := dieOfStack (pcOfFrame f / 32)
  let own := if die = 0 then h0 else h1
  let oth := if die = 0 then h1 else h0
  let aff := match s.curveOf 0 with
    | none => false
    | some c => decide (own + curve c (own + oth) ≤ oth)
  let bal := match s.curveOf 1 with
    | none => false
    | some c =>
      let ps := s.pcsInService
      let total := (ps.map s.pcLoad).sum
      if total = 0 then false
      else
        let v := curve c (256 * s.pcLoad (pcOfFrame f) * ps.length / total)
        decide (v ≠ 0) && decide (v ≤ own + oth)
  if aff then some true else if bal then some false else none

/-- A frame is evaluated; a move it calls for waits to be started. -/
def State.considerFrame (s : State) (f : Nat) : State :=
  match s.evalFrame f with
  | none => s
  | some k => { s with pleCand := s.pleCand.filter (fun e => decide (e.1 ≠ f)) ++ [(f, k)] }

/-- One access to a visible frame counts toward a die, with probability 1/16 (R399), which a free value decides. -/
def State.heatHit (s : State) (f die : Nat) : State :=
  let (v, s) := s.draw
  if v % 16 ≠ 0 then s
  else
    let (h0, h1) := s.heatOf f
    let h := if die = 0 then (satAdd h0 1 255, h1) else (h0, satAdd h1 1 255)
    let s := { s with heat := tset s.heat f h }
    let hit := if die = 0 then h.1 else h.2
    if hit % 16 = 0 then s.considerFrame f else s

/-- An access of core n to a physical address is sampled (R399). -/
def State.touch (s : State) (n pa : Nat) : State :=
  if pa < 0x1800000000 then s.heatHit (pa / 2 ^ 14) (dieOfCore n) else s

/-! ## Samples of plots (R517) -/

/-- The core whose table registers stand for the device's, which every core holds alike: the lowest-numbered one that is neither
held in reset nor switched off. -/
def State.tableCore (s : State) : Nat :=
  ((List.range 112).find? (fun n => !(s.core (s.unit n)).held && !(s.core (s.unit n)).off)).getD 0

/-- The table registers of the device. -/
def State.tableN (s : State) : Nat := fld ((s.core s.tableCore).srv nIPTSIZE) 22 0
def State.tableBase (s : State) : Nat := fld ((s.core s.tableCore).srv nIPTBASE) 43 21 * 2 ^ 21
def State.tableSeed (s : State) : Nat := fld ((s.core s.tableCore).srv nIPTHASH) 34 0

/-- The samples of a plot. -/
def State.plotStatOf (s : State) (p : Nat) : PlotStat := tget s.plotStat p ⟨0, [], none⟩

/-- RT: the count of the top node. -/
def PlotStat.rt (x : PlotStat) : Nat :=
  match x.top with
  | none => 0
  | some t => tget x.cnt t 0

/-- RT has changed: at a multiple of 16 the plot may be offered to T. -/
def State.considerPlot (s : State) (p : Nat) : State :=
  let x := s.plotStatOf p
  match s.curveOf 2, x.top with
  | some c, some _ =>
    if x.rt ≠ 0 ∧ x.rt % 16 = 0 ∧ s.rf .pleCtl pleCtl_EN = 1 ∧ x.l + curve c (x.rt + x.l) ≤ x.rt then
      { s with offers := s.offers.filter (fun q => decide (q ≠ p)) ++ [p] }
    else s
  | _, _ => s

/-- One access in 16 to an owned plot is sampled: by this node (none) or by a requester. -/
def State.plotHitBy (s : State) (p : Nat) (node : Option Nat) : State :=
  let (v, s) := s.draw
  if v % 16 ≠ 0 then s
  else
    let x := s.plotStatOf p
    match node with
    | none => { s with plotStat := tset s.plotStat p { x with l := x.l + 1 } }
    | some d =>
      let k := tget x.cnt d 0 + 1
      let top := if x.top = none ∨ x.rt < k then some d else x.top
      let s := { s with plotStat := tset s.plotStat p { x with cnt := tset x.cnt d k, top := top } }
      if top = some d then s.considerPlot p else s

/-- The owned plot of the page in a frame, as its table entry names it. -/
def State.plotOfFrame (s : State) (f : Nat) : Option Nat :=
  if f < s.tableN then
    let w := s.mem.word (s.tableBase + 32 * f)
    let p := bits w 33 0 / 128
    if bit w 63 = true ∧ bit w 62 = false ∧ s.ownMap.contains p = true then some p else none
  else none

/-- An admitted access of a Ridge-checked master to DRAM is sampled: the heat of the frame toward its own die, and L of its
plot. -/
def State.touchMaster (s : State) (pa : Nat) : State :=
  if pa < 0x1800000000 then
    let s := s.heatHit (pa / 2 ^ 14) (dieOfStack (stackOf pa))
    match s.plotOfFrame (pa / 2 ^ 14) with
    | none => s
    | some p => s.plotHitBy p none
  else s

end Sys2Proof.Machine
end

