-- ==== Sys2Proof/Machine/Ridge.lean ====
section
/-! DEFINITION. The Ridge table: which entry decides an access of a Ridge-checked master, what it admits, the stale
entries a check cache may still apply, and what a denial records ("The Ridge table and the interconnect"). -/

namespace Sys2Proof.Machine

open Sys2Proof

/-- Master identifiers of R355. -/
def mWALK : Nat := 0
def mPLE : Nat := 1
def mING : Nat := 2
def mEGR : Nat := 3
def mJC : Nat := 4
def mHOST : Nat := 5
def mFAB : Nat := 6
def mDBG : Nat := 7
def mKEY : Nat := 8
def mMCS : Nat := 9
def mIMG : Nat := 10

/-- The device mode (SYS.MODE.MODE, R568): 0 SELFTEST, 1 CONFIGURE, 2 SERVICE, 3 RECONFIG, 4 DEGRADED, 5 LOCKDOWN. -/
def State.mode (s : State) : Nat := s.rf .sysMode sysMode_MODE

/-- The device serves: SERVICE, RECONFIG or DEGRADED. -/
def State.serving (s : State) : Bool := decide (2 ≤ s.mode) && decide (s.mode ≤ 4)

/-- The clock of a clock domain runs (R597). -/
def State.clkOn (s : State) (n : Nat) : Bool := !(s.pllOff.contains n)

/-- A power domain is on. -/
def State.domainOn (s : State) (d : Nat) : Bool := decide (s.rf (.pwrDom d) pwrDom_STATE = 1)

/-- Ingress and egress work: the device serves and their clock runs (R594, R597). -/
def State.ingOn (s : State) : Bool := s.serving && s.clkOn 4

/-- The key engine works (R594, R597). -/
def State.keyOn (s : State) : Bool := s.serving && s.clkOn 3

/-- The host link carries accesses: it is not held in reset, the reference clock it uses is present, its PLL has lock, and the device is
neither in SELFTEST nor in LOCKDOWN (R595, R597, R615). -/
def State.hostUp (s : State) : Bool :=
  !s.hostHeld && s.ref100 && s.clkOn 10 && decide (s.mode ≠ 0) && decide (s.mode ≠ 5)

/-- The backed part of the physical map below register space: DRAM data and the backed system area (R20). -/
def backedDram (a : Nat) : Bool := decide (a < 0x18CCC00000)

/-- Register space: the assigned block codes 0x00-0x13 (R20). -/
def isRegSpace (a : Nat) : Bool := decide (0x0F0000000000 ≤ a) && decide (a < 0x0F0014000000)

/-- Everything backed (R20). -/
def backed (a : Nat) : Bool := backedDram a || isRegSpace a

/-- The system area window (R20, R43). -/
def inSysWindow (a : Nat) : Bool := decide (0x1800000000 ≤ a) && decide (a < 0x1900000000)

/-- The physical address lies in the sealed region (R104). -/
def State.inSealed (s : State) (a : Nat) : Bool :=
  decide (s.cfg.sealedBase ≤ a) && decide (a < s.cfg.sealedBase + s.cfg.sealedSize)

/-- The ways of system-cache slice i in which the lines of a world are allocated and found: those that the image gives the sealed world, and
the rest (R102). A line of the sealed region, or one that a sealed-world access reaches, goes to sealed ways. The ways are coherent with
memory (R16), so the state holds no line of them apart from memory. -/
def State.waysOf (s : State) (i : Nat) (sealed' : Bool) : Nat :=
  let w := tget s.cfg.ways i 0 % 2 ^ 24
  if sealed' then w else 2 ^ 24 - 1 - w

/-- The ways of slice i in which an access of a core of a world to an address allocates its line (R102). -/
def State.allocWays (s : State) (i : Nat) (world : Bool) (a : Nat) : Nat := s.waysOf i (world || s.inSealed a)

/-- The physical address lies in the key store, the 64 MiB at the start of the sealed region ("The key engine"). -/
def State.inKeyStore (s : State) (a : Nat) : Bool :=
  decide (0 < s.cfg.sealedSize) && decide (s.cfg.sealedBase ≤ a) && decide (a < s.cfg.sealedBase + 0x4000000)

/-- One entry of the table as a check uses it. -/
structure RdgEntry where
  base  : Nat
  limit : Nat
  attr  : Word
  deriving DecidableEq, Repr

/-- The fields of an entry from its three registers (R362). -/
def rdgEntryOf (base limit attr : Word) : RdgEntry :=
  ⟨fld base 43 6 * 64, fld limit 44 6 * 64, attr⟩

/-- Entry e as written. -/
def State.rdgEntry (s : State) (e : Nat) : RdgEntry :=
  rdgEntryOf (s.reg (.rdgBase e)) (s.reg (.rdgLimit e)) (s.reg (.rdgAttr e))

/-- The first stale copy of entry e, counting from number k, that the port holds: copy j is held when bit j of pick is set. -/
def staleCopy (pick e : Nat) : Nat → List (Nat × Word × Word × Word) → Option RdgEntry
  | _, [] => none
  | k, (i, b, l, a) :: r => if i = e ∧ bit pick k = true then some (rdgEntryOf b l a) else staleCopy pick e (k + 1) r

/-- Entry e as a check sees it: as written, or as it stood in a copy kept since the last epoch advance, of those the port
still holds (R368). -/
def State.rdgSeen (s : State) (pick e : Nat) : RdgEntry := (staleCopy pick e 0 s.rdgStale).getD (s.rdgEntry e)

/-- The numbers of the entries whose ATTR is listed or stale: no other entry can have V = 1. -/
def State.rdgListed (s : State) : List Nat :=
  s.regs.filterMap (fun e => match e.1 with | .rdgAttr i => some i | _ => none) ++ s.rdgStale.map (fun e => e.1)

/-- Entry covers address a (R363). -/
def RdgEntry.covers (r : RdgEntry) (a : Nat) : Bool := flag r.attr 0 && decide (r.base ≤ a) && decide (a < r.limit)

/-- The lowest-numbered covering entry of a list of entry numbers. -/
def State.rdgFirst (s : State) (pick a : Nat) (es : List Nat) : Option Nat :=
  es.foldl (fun best e =>
    if (s.rdgSeen pick e).covers a then
      (match best with
       | none => some e
       | some b => if e < b then some e else some b)
    else best) none

/-- What the table decides of an access: denied, or admitted with the SE attribute of the deciding entry (R363, R364,
R367, R371). Register space is SE whatever the table holds (R27). -/
def State.rdgDecide (s : State) (pick master func : Nat) (write : Bool) (a : Nat) : Option Bool :=
  if s.mode < 2 then
    if (master = mIMG ∨ master = mMCS ∨ (master = mDBG ∧ s.mode = 1)) ∧ backed a = true then some (isRegSpace a) else none
  else
    match s.rdgFirst pick a s.rdgListed with
    | none => none
    | some e =>
      let r := s.rdgSeen pick e
      let world := flag r.attr 5
      let lock := flag r.attr 3
      let admits := bit (fld r.attr 26 16) master
        && (if master = mHOST then bit (fld r.attr 47 32) func else true)
        && (if write then flag r.attr 2 else flag r.attr 1)
        && (if world then decide (master = mKEY) || decide (master = mMCS) || decide (master = mIMG) else true)
        && !(decide (master = mDBG) && (lock || world))
        && !(s.inSealed a && !world)
      if admits then some (flag r.attr 4 || isRegSpace a) else none

/-- Records a denial that is not a debug one: RDG_DENY, RDG.LASTDENY and source 593 (R358, R371, R377). -/
def State.rdgDeny (s : State) (master func : Nat) (write : Bool) (a : Nat) : State :=
  let w := b2n write * 2 ^ 63 + (master % 16) * 2 ^ 56 + (if master = mHOST then func % 16 else 0) * 2 ^ 52 + a % 2 ^ 44
  ((s.setReg .rdgLastdeny (word w)).raise 10 master 0x38 0 a).report 593

/-- Checks one access of a master at its first byte (R366): none when denied, with the denial recorded; otherwise the SE
attribute. While stale copies are held, a free value says which ones the port applies (R368). An admitted access to DRAM is
sampled (R399, R517). -/
def State.ridge (s : State) (master func : Nat) (write : Bool) (a : Nat) : Option Bool × State :=
  let (pick, s) := if s.rdgStale.isEmpty then (0, s) else
    let (v, s) := s.draw
    (v % 2 ^ s.rdgStale.length, s)
  match s.rdgDecide pick master func write a with
  | some se => (some se, s.touchMaster a)
  | none => (none, if master = mDBG then s else s.rdgDeny master func write a)

/-- The checks of a list of accesses of a master, by direction and address, in order: whether all are admitted; the first denial ends
them. -/
def State.ridgeAll (s : State) (master : Nat) : List (Bool × Nat) → Bool × State
  | [] => (true, s)
  | (w, a) :: r =>
    match s.ridge master 0 w a with
    | (none, s) => (false, s)
    | (some _, s) => s.ridgeAll master r

/-- The lines that n bytes from address a touch (R366). -/
def linesFrom (a n : Nat) : List Nat :=
  if n = 0 then [] else (List.range ((a + n - 1) / 64 + 1 - a / 64)).map (fun i => (a / 64 + i) * 64)

/-- The bytes of a master read of n bytes at a, line by line: each line is checked at its first byte, a denied or
unreadable part reads as zero (R358, R57). The answer is the bytes, whether no part met an error response, and the state. DESIGN CHOICE,
safe: the accesses by which ingress and egress move a frame or a ring word are no 8-byte register accesses, so any that lies in
register space is answered with a bus error (R28 gives no width for them). -/
def State.masterReadBytes (s : State) (master func a n : Nat) : Nat → List Nat × Bool × State
  | 0 => ([], true, s)
  | fuel + 1 =>
    if n = 0 then ([], true, s)
    else
      let c := min n (64 - a % 64)
      let (r, s) := s.ridge master func false a
      let here := match r with
        | none => List.replicate c 0
        | some _ =>
          if backedDram a then
            (List.range c).map (fun i => byteOf (s.mem.masterRead ((a + i) / 8 * 8)).1 ((a + i) % 8))
          else List.replicate c 0
      let ok := r.isSome && backedDram a && (List.range c).all (fun i => (s.mem.masterRead ((a + i) / 8 * 8)).2)
      let (rest, ok', s) := s.masterReadBytes master func (a + c) (n - c) fuel
      (here ++ rest, ok && ok', s)

end Sys2Proof.Machine
end

