-- ==== Sys2Proof/Machine/Visible.lean ====
section
/-! DEFINITION. Memory as all agents see it, the store buffers in front of it, and what a write by one agent does to the
reservations of the others (R66, R192, R195, R204, R282-R284). -/

namespace Sys2Proof.Machine

open Sys2Proof

/-- The late bus errors of a context become due (R258). -/
def State.maDue (s : State) (n k : Nat) : State :=
  let c := s.core n
  s.setCore n { c with ma := c.ma.map (fun m => if m.ctx = k then { m with due := true } else m) }

/-- Store-buffer entries of a core: two on a P-core (R282), 96 on a W-core (R299). -/
def sbSize (n : Nat) : Nat := if n < 48 then 2 else 96

/-- Room for one more entry of context k in the store buffer of core n: the oldest leaves when it is full. While both contexts of a W-core
run, neither takes the quarter that the other is guaranteed (R300): its own oldest entries leave first. -/
def State.sbRoom (s : State) (n k : Nat) : State :=
  let c := s.core n
  let mine := c.sb.filter (fun e => decide (e.ctx = k))
  if 48 ≤ n ∧ c.c0.st = .run ∧ c.c1.st = .run ∧ sbSize n - sbSize n / 4 ≤ mine.length then
    s.drainN n (c.sb.findIdx (fun e => decide (e.ctx = k)) + 1)
  else if sbSize n ≤ c.sb.length then (s.drainOne n).portUsed n
  else s

/-- A store enters the store buffer, one entry for each line it touches; the oldest entries leave first when too few are
free (R282). -/
def State.enqueue (s : State) (n k : Nat) (t : Tgt) : List (Nat × List WOp) → State
  | [] => s
  | (line, ops) :: rest =>
    let s := s.sbRoom n k
    let c := s.core n
    ((s.setCore n { c with sb := c.sb ++ [⟨k, t, line, ops⟩] }).form n (.store ⟨k, t, line, ops⟩)).enqueue n k t rest

/-- Groups consecutive word writes by line. -/
def groupByLine : List WOp → List (Nat × List WOp)
  | [] => []
  | o :: os =>
    match groupByLine os with
    | (l, ops) :: rest => if l = lineOf o.addr then (l, o :: ops) :: rest else (lineOf o.addr, [o]) :: (l, ops) :: rest
    | [] => [(lineOf o.addr, [o])]

/-- The memory of a target as context k of core n sees it: on a P-core every entry of the store buffer merges over it, the
newer prevailing (R283, R284); on a W-core those that its own context put there (R204). -/
def State.viewMem (s : State) (n k : Nat) (t : Tgt) : Mem :=
  (s.core n).sb.foldl (fun m e => if e.tgt = t ∧ (n < 48 ∨ e.ctx = k) then m.applyOps e.ops else m) (s.memOf t)

/-- The buffered words of context k in a target, as word writes (R432, R433). -/
def State.cbOps (s : State) (n k : Nat) (t : Tgt) : List WOp :=
  (s.buffer n).flatMap (fun e => match e with
    | .line k' t' _ _ ws => if k' = k ∧ t' = t then ws.map (fun w => (⟨w.addr, w.mask, w.data, w.kind⟩ : WOp)) else []
    | _ => [])

/-- The memory of a target as context k sees it with its commit buffer merged over it (R187, R433). -/
def State.ctxMem (s : State) (n k : Nat) (t : Tgt) : Mem := (s.viewMem n k t).applyOps (s.cbOps n k t)

/-- The eight tags of a line. -/
def lineTags (m : Mem) (l : Nat) : List Nat := (List.range 8).map (fun i => m.tag (l + 8 * i))

/-- Memory with the eight tags of a line replaced. -/
def Mem.setTags (m : Mem) (l : Nat) (ts : List Nat) : Mem :=
  (List.range 8).foldl (fun m i => m.setWord (l + 8 * i) (m.word (l + 8 * i)) (ts.getD i 0)) m

/-- The memory of a target against which a store of context k is checked: a line that the context holds in its commit buffer has the tags
it had when it took its entry, under the words written since (R433). -/
def State.checkMem (s : State) (n k : Nat) (t : Tgt) : Mem :=
  ((s.buffer n).foldl (fun (m : Mem) e => match e with
    | .line k' t' a ts _ => if k' = k ∧ t' = t then m.setTags a ts else m
    | _ => m) (s.viewMem n k t)).applyOps (s.cbOps n k t)

/-! ## Writes of Ridge-checked masters -/

/-- Writes of n bytes by a master, line by line, each checked at its first byte (R58-R59, R366); the answer says whether
every part was written. -/
def State.masterWriteBytes (s : State) (master func a : Nat) : List Nat → Nat → Bool × State
  | _, 0 => (true, s)
  | bs, fuel + 1 =>
    if bs.isEmpty then (true, s)
    else
      let c := min bs.length (64 - a % 64)
      let (r, s) := s.ridge master func true a
      let here := bs.take c
      let v := ofBytes here
      let (ok, s) :=
        match r with
        | none => (false, s)
        | some _ =>
          if backedDram a then
            let ops := dataOps a v c tINT 9
            ops.foldl (fun (acc : Bool × State) (o : WOp) =>
              let (m, ok) := acc.2.mem.masterWrite o.addr o.data o.mask
              (acc.1 && ok, if ok then ({ acc.2 with mem := m }).lineWritten .dram (lineOf o.addr) none else acc.2)) (true, s)
          else (false, s)
      let (ok', s) := s.masterWriteBytes master func (a + c) (bs.drop c) fuel
      (ok && ok', s)

end Sys2Proof.Machine
end

