-- ==== Sys2Proof/Machine/Translate.lean ====
section
/-! DEFINITION. Translation: the hashed inverted page table, the walk, the TLB of a core, page rights, protection keys,
marks and the SE attribute ("Translation and protection keys", R329-R349). -/

namespace Sys2Proof.Machine

open Sys2Proof

/-- The kinds of access of R339. -/
def kLOAD : Nat := 0
def kSTORE : Nat := 1
def kFETCH : Nat := 2
def kRMW : Nat := 3

/-- IPT.SIZE.N (R331). -/
def iptN (s : State) (E : Env) : Nat := fld (seeCoreSr s E nIPTSIZE) 22 0
/-- The physical address of entry 0 (R331). -/
def iptBase (s : State) (E : Env) : Nat := fld (seeCoreSr s E nIPTBASE) 43 21 * 2 ^ 21
/-- IPT.HASH.SEED (R331). -/
def iptSeed (s : State) (E : Env) : Nat := fld (seeCoreSr s E nIPTHASH) 34 0

/-- ipt_hash of R335. -/
def iptHash (seed n : Nat) (space : Bool) (vpn : Nat) : Nat :=
  let k := Nat.xor (b2n space * 2 ^ 34 + vpn) seed
  let h := Nat.xor (Nat.xor k (k >>> 13)) (k >>> 23)
  if n = 0 then 0 else h % n

/-- One entry of the table, by its four words (R333). -/
structure IptEntry where
  w0 : Nat
  w1 : Nat
  w2 : Nat
  w3 : Nat
  deriving DecidableEq, Repr

def IptEntry.v (e : IptEntry) : Bool := bit e.w0 63
def IptEntry.space (e : IptEntry) : Bool := bit e.w0 62
def IptEntry.pin (e : IptEntry) : Bool := bit e.w0 61
def IptEntry.se (e : IptEntry) : Bool := bit e.w0 60
def IptEntry.a (e : IptEntry) : Bool := bit e.w0 59
def IptEntry.d (e : IptEntry) : Bool := bit e.w0 58
def IptEntry.contig (e : IptEntry) : Nat := bits e.w0 57 55
def IptEntry.pkey (e : IptEntry) : Nat := bits e.w0 54 49
def IptEntry.r (e : IptEntry) : Bool := bit e.w0 48
def IptEntry.w (e : IptEntry) : Bool := bit e.w0 47
def IptEntry.x (e : IptEntry) : Bool := bit e.w0 46
def IptEntry.mv (e : IptEntry) : Bool := bit e.w0 45
def IptEntry.vpn (e : IptEntry) : Nat := bits e.w0 33 0
def IptEntry.next (e : IptEntry) : Nat := bits e.w1 22 0
def IptEntry.lk (e : IptEntry) : Bool := bit e.w2 63
def IptEntry.anchor (e : IptEntry) : Nat := bits e.w2 22 0

/-- A reserved field of word 0 or word 1 is non-zero, or a sealed entry names a page beyond its space (R336). -/
def IptEntry.reserved (e : IptEntry) : Bool :=
  decide (bits e.w0 44 34 ≠ 0) || decide (bits e.w1 63 23 ≠ 0) || (e.space && decide (bits e.w0 33 26 ≠ 0))

/-- A word as the walker reads it: INT and FLT give their data, any other good tag reads as zero (R334). -/
def walkWord (m : Mem) (a : Nat) : Nat := (m.masterRead a).1

/-- read_entry of R336. -/
def readIpt (m : Mem) (a : Nat) : IptEntry := ⟨walkWord m a, walkWord m (a + 8), walkWord m (a + 16), walkWord m (a + 24)⟩

/-- A cause of translation: PAGE_FAULT, WALK_ERROR, MC_WALKPOISON or a mark, with the fields of EINFO that R339 gives it
beside the capability register. -/
structure TrCause where
  code   : Nat
  reason : Nat
  entry  : Nat
  probes : Nat
  pkey   : Nat
  deriving DecidableEq, Repr

/-- How a translation ends: an entry to use, a cause, or a wait on MV of an entry (R354). -/
inductive TrRes where
  | ok (e : TlbEntry)
  | cause (c : TrCause)
  | wait (entry : Nat)
  deriving DecidableEq, Repr

/-- probe of R336: the entry read as master WALK, or the cause. -/
def probe (s : State) (E : Env) (i probes : Nat) : Except TrCause IptEntry × State :=
  let a := iptBase s E + 32 * i
  let (r, s) := s.ridge mWALK 0 false a
  match r with
  | none => (.error ⟨ecWALK_ERROR, 0, i, probes, 0⟩, s)
  | some true => (.error ⟨ecWALK_ERROR, 1, i, probes, 0⟩, s)
  | some false =>
    if !(backed a) then (.error ⟨ecWALK_ERROR, 5, i, probes, 0⟩, s)
    else
      let bad := [a, a + 8, a + 16, a + 24].any (fun w => decide (s.mem.tag w = tPOISON) || decide (7 ≤ s.mem.tag w))
      if bad then (.error ⟨ecMC_WALKPOISON, 0, i, probes, 0⟩, s)
      else (.ok (readIpt s.mem a), s)

/-- The memory of a frame is one the space must not reach, or the key store (R106, R445): the sealed space reaches only the
sealed region, the open space never; and no core reaches the key store. -/
def State.regionBreach (s : State) (space : Bool) (a : Nat) : Bool := (space != s.inSealed a) || s.inKeyStore a

/-- The TLB entry install places for walked entry i (R341). -/
def tlbOf (space : Bool) (vpn i : Nat) (e : IptEntry) : TlbEntry :=
  let c := e.contig
  let g := 2 ^ c
  if c ≠ 0 ∧ i % g = vpn % g then
    ⟨space, vpn - vpn % g, g, i - i % g, e.r, e.w, e.x, e.pkey, e.se, e.d, i⟩
  else ⟨space, vpn, 1, i, e.r, e.w, e.x, e.pkey, e.se, e.d, i⟩

/-- The chain of a walk from pointer f on, p probes made (R336); a matched entry has its A mark checked by the caller. -/
def walkChain (s : State) (E : Env) (space : Bool) (vpn last : Nat) : Nat → Nat → Nat → (TrRes × Option IptEntry × Nat) × State
  | 0, _, p => ((.cause ⟨ecPAGE_FAULT, 1, last, p, 0⟩, none, p), s)
  | fuel + 1, f, p =>
    if f = 0 then ((.cause ⟨ecPAGE_FAULT, 0, last, p, 0⟩, none, p), s)
    else if p = 16 then ((.cause ⟨ecPAGE_FAULT, 1, last, p, 0⟩, none, p), s)
    else if iptN s E ≤ f - 1 then ((.cause ⟨ecWALK_ERROR, 2, last, p, 0⟩, none, p), s)
    else
      match probe s E (f - 1) (p + 1) with
      | (.error c, s) => ((.cause c, none, p + 1), s)
      | (.ok e, s) =>
        if e.v && (e.space == space) && decide (e.vpn = vpn) then
          if e.mv then ((.wait (f - 1), none, p + 1), s)
          else if e.reserved then ((.cause ⟨ecWALK_ERROR, 3, f - 1, p + 1, 0⟩, none, p + 1), s)
          else if s.regionBreach space ((f - 1) * 2 ^ 14) then
            ((.cause ⟨ecPAGE_FAULT, 4, f - 1, p + 1, e.pkey⟩, none, p + 1), s)
          else ((.ok (tlbOf space vpn (f - 1) e), some e, p + 1), s)
        else walkChain s E space vpn (f - 1) fuel e.next (p + 1)

/-- walk of R336: the result, the entry matched and the probes made. -/
def walk (s : State) (E : Env) (space : Bool) (vpn : Nat) : (TrRes × Option IptEntry × Nat) × State :=
  let h := iptHash (iptSeed s E) (iptN s E) space vpn
  match probe s E h 1 with
  | (.error c, s) => ((.cause c, none, 1), s)
  | (.ok e, s) => walkChain s E space vpn h 17 e.anchor 1

/-- The TLB entry of a core that translates a page (R341). -/
def tlbFind (es : List TlbEntry) (space : Bool) (vpn : Nat) : Option TlbEntry :=
  es.find? (fun e => (e.space == space) && decide (e.vpn ≤ vpn) && decide (vpn < e.vpn + e.count))

/-- The first-level TLB of a core for an access of a kind (R341): that of instructions for a fetch, that of data otherwise. -/
def Core.tlb1 (c : Core) (kind : Nat) : List TlbEntry := if kind = kFETCH then c.tlbI else c.tlbD

/-- The entry for a page that a TLB still holds and uses. It surely uses the one installed last, for the page that was walked. Any other
entry may have been replaced since, the replacement being the device's own (R341, R350), and a page of a hinted group may be translated
as its own entry gives (R342): a free choice says whether the held entry is used. -/
def State.tlbUse (s : State) (es : List TlbEntry) (space : Bool) (vpn salt : Nat) : Option TlbEntry :=
  match tlbFind es space vpn with
  | none => none
  | some e =>
    if es.head? = some e ∧ e.frame + (vpn - e.vpn) = e.entry then some e
    else if s.pick (salt + vpn) % 2 = 0 then some e
    else none

/-- The translation of a page that core n holds and uses for an access of a kind (R341): from the first-level TLB, or else from the
second, which true tells. -/
def State.tlbSee (s : State) (n kind : Nat) (space : Bool) (vpn : Nat) : Option (TlbEntry × Bool) :=
  let c := s.core n
  match s.tlbUse (c.tlb1 kind) space vpn 1000 with
  | some e => some (e, false)
  | none => (s.tlbUse c.tlb space vpn 2000).map (fun e => (e, true))

/-- An entry translates a page of a space. -/
def TlbEntry.hits (e : TlbEntry) (space : Bool) (vpn : Nat) : Bool :=
  (e.space == space) && decide (e.vpn ≤ vpn) && decide (vpn < e.vpn + e.count)

/-- The entries of a core's three TLBs that satisfy a test stay; the others are removed. -/
def Core.tlbKeep (c : Core) (keep : TlbEntry → Bool) : Core :=
  { c with tlb := c.tlb.filter keep, tlbI := c.tlbI.filter keep, tlbD := c.tlbD.filter keep }

/-- Removes the entries of a page from the TLBs of core n, hinted entries whole (R219). -/
def State.tlbDropPage (s : State) (n : Nat) (space : Bool) (vpn : Nat) : State :=
  s.setCore n ((s.core n).tlbKeep (fun e => !(e.hits space vpn)))

/-- The entries of a test are removed from the TLBs of every core that sel names. -/
def State.tlbDropWhere (s : State) (sel : Nat → Bool) (gone : TlbEntry → Bool) : State :=
  { s with cores := s.cores.map (fun e => if sel e.1 then (e.1, e.2.tlbKeep (fun x => !(gone x))) else e) }

/-- A translation enters a first-level TLB of 64 entries, the newest first. -/
def Core.tlbFill1 (c : Core) (kind : Nat) (e : TlbEntry) : Core :=
  if kind = kFETCH then { c with tlbI := (e :: c.tlbI).take 64 } else { c with tlbD := (e :: c.tlbD).take 64 }

/-- The set of an entry in the second-level TLB of 512 sets. PRESUMED, safe: the low bits of its page number; nothing a program sees
depends on it, since a free choice says whether a held entry is still used. -/
def TlbEntry.set (e : TlbEntry) : Nat := e.vpn % 512

/-- A translation enters the second-level TLB, whose sets hold 8 entries, the newest first (R341). -/
def Core.tlbFill2 (c : Core) (e : TlbEntry) : Core :=
  let mine := c.tlb.filter (fun x => decide (x.set = e.set))
  { c with tlb := e :: (match mine[7]? with
      | some x => c.tlb.erase x
      | none => c.tlb) }

/-- Installs a walked translation (R341). -/
def State.tlbInstall (s : State) (n kind : Nat) (e : TlbEntry) : State := s.setCore n (((s.core n).tlbFill2 e).tlbFill1 kind e)

/-- What speculative accesses of a W-core may have brought into its TLBs before an instruction (R304). A free value says whether there was
one, and names the page and the kind; a walk that ends in a cause or a wait is abandoned and leaves nothing. -/
def State.speculate (s : State) (E : Env) : State :=
  if E.n < 48 ∨ iptN s E = 0 then s
  else
    let (v, s) := s.draw
    let space := decide (v / 4 % 2 = 1)
    let vpn := v / 8 % 2 ^ 34
    if v % 2 = 0 ∨ (space = true ∧ (s.ctx E.n E.k).world = false) then s
    else
      match walk s E space vpn with
      | ((.ok e, some w, _), s') => if w.a && !e.se then s'.tlbInstall E.n (if v / 2 % 2 = 0 then kLOAD else kFETCH) e else s
      | _ => s

/-- The two rights bits of a protection key (R344). -/
def keyRights (lo hi : Word) (k : Nat) : Nat :=
  if k < 32 then fld lo (2 * k + 1) (2 * k) else fld hi (2 * (k - 32) + 1) (2 * (k - 32))

/-- The rights of a key allow an access of a kind (R344). -/
def keyAllows (r kind : Nat) : Bool :=
  if kind = kFETCH then decide (r = 1) || decide (r = 3)
  else if kind = kLOAD then decide (r ≠ 0)
  else decide (2 ≤ r)

/-- The page rights allow an access of a kind (R340). -/
def TlbEntry.allows (e : TlbEntry) (kind : Nat) : Bool :=
  if kind = kFETCH then e.x else if kind = kLOAD then e.r else if kind = kSTORE then e.w else e.r && e.w

/-- EINFO of a translation cause (R339). -/
def trInfo (c : TrCause) (capNo : Nat) (space : Bool) (kind : Nat) : Nat :=
  c.entry * 2 ^ 41 + capNo * 2 ^ 24 + c.probes * 2 ^ 13 + c.pkey * 2 ^ 7 + b2n space * 2 ^ 6 + kind * 2 ^ 4 + c.reason

/-- What an access does at step 6 of R52 for one address: a physical address with the page's SE attribute, a cause to raise, or a wait
on MV with the EINFO of a cause of the wait, less its reason. -/
inductive Step6 where
  | pa (a : Nat) (se : Bool)
  | trap (t : Trap)
  | wait (entry info : Nat)
  deriving DecidableEq, Repr

/-- The translation of a page that the table registers map: from a TLB, the second-level one filling the first, or by a walk, with the
cycles of either; the walk routine reads the control store (R308, R322). -/
def State.lookUp (s : State) (E : Env) (kind : Nat) (space : Bool) (vpn : Nat) :
    Except Trap ((TrRes × Option IptEntry × Nat) × State) :=
  match s.tlbSee E.n kind space vpn with
  | some (e, second) =>
    .ok ((.ok e, none, 0), if second then (s.setCore E.n ((s.core E.n).tlbFill1 kind e)).moreCycles E.n 2 else s)
  | none =>
    match s.csTrap E.n (some rtWALK) with
    | some t => .error t
    | none =>
      let (r, s) := walk (s.tlbDropPage E.n space vpn) E space vpn
      .ok (r, s.moreCycles E.n (7 + 2 * r.2.2))

/-- The checks of R340 on one address in the space of a capability: TLB or walk, page rights, protection key, the SE bar,
the accessed mark and the dirty mark, in that order. bar says whether an SE page bars the access (R349). -/
def translate (s : State) (E : Env) (space : Bool) (va kind capNo : Nat) (bar : Bool) : Step6 × State :=
  let n := E.n
  let vpn := va >>> 14
  if iptN s E = 0 then
    -- R332: translation bypassed
    let cause := fun (r : Nat) => Step6.trap ⟨ecPAGE_FAULT, trInfo ⟨ecPAGE_FAULT, r, 0, 0, 0⟩ capNo space kind, va, 0⟩
    if 0x1800000000 ≤ va then (cause 0, s)
    else if s.regionBreach space va then (cause 4, s)
    else
      let rights := keyRights (seeSr s E nPKMLO) (seeSr s E nPKMHI) 0
      if !(keyAllows rights kind) then (cause 3, s) else (.pa va false, s)
  else
    match s.lookUp E kind space vpn with
    | .error t => (.trap t, s)
    | .ok ((res, walked, probes), s) =>
    match res with
    | .wait entry => (.wait entry (trInfo ⟨ecWALK_ERROR, 0, entry, probes, 0⟩ capNo space kind), s)
    | .cause c => (.trap ⟨c.code, trInfo c capNo space kind, va, 0⟩, s)
    | .ok e =>
      let raise := fun (code reason : Nat) =>
        Step6.trap ⟨code, trInfo ⟨code, reason, e.entry, probes, e.pkey⟩ capNo space kind, va, 0⟩
      let rights := keyRights (seeSr s E nPKMLO) (seeSr s E nPKMHI) e.pkey
      let aMissing := match walked with
        | some w => !w.a
        | none => false
      let s' := if walked.isSome && !aMissing then s.tlbInstall n kind e else s
      if !(e.allows kind) then (raise ecPAGE_FAULT 2, s')
      else if !(keyAllows rights kind) then (raise ecPAGE_FAULT 3, s')
      else if e.se && (bar || decide (kind = kFETCH)) then (.trap ⟨ecSE_ACCESS, capNo * 2 ^ 24, va, 0⟩, s')
      else if aMissing then (raise ecACCESS_MARK 0, s.tlbDropPage n space vpn)
      else if (kind = kSTORE ∨ kind = kRMW) ∧ e.d = false then (raise ecDIRTY_MARK 0, s.tlbDropPage n space vpn)
      else (.pa ((e.frame + (vpn - e.vpn)) * 2 ^ 14 + va % 2 ^ 14) e.se, s')

end Sys2Proof.Machine
end

