-- ==== Sys2Proof/Machine/Plots.lean ====
section
/-! DEFINITION. Which node owns a plot: the plot cache, the own map and the registrar ("The Cordillera fabric and the estate", R500-R504,
R511). -/

namespace Sys2Proof.Machine

open Sys2Proof

/-- The next request number. -/
def State.newReq (s : State) : Nat × State := (s.cdlReq % 65536, { s with cdlReq := (s.cdlReq + 1) % 65536 })

/-- CDL.CFG.RTMO in nanoseconds. -/
def State.rtmo (s : State) : Nat := s.rf .cdlCfg cdlCfg_RTMO * 1000

/-- PLOT_TTL in nanoseconds. -/
def State.plotTtl (s : State) : Nat := s.rf .cdlCfg cdlCfg_PLOTTTL * 1000

/-! ## Plots -/

/-- The plot of a global address: 2 MiB each. -/
def plotOf (va : Nat) : Nat := va % 2 ^ 48 / 2 ^ 21

/-- registrar of R500. -/
def State.registrarOf (s : State) (p : Nat) : Nat :=
  let m := p * 0x9E3779B1 % 2 ^ 32
  (m >>> 16) % (if s.estSize = 0 then 1 else s.estSize)

/-- The node to ask for a plot: its registrar, or the backup when the registrar is lost (R500, R502). -/
def State.askNode (s : State) (p : Nat) : Nat :=
  let r := s.registrarOf p
  match tfind s.nodes r with
  | some (_, true) => (r + 1) % (if s.estSize = 0 then 1 else s.estSize)
  | _ => r

/-- The plot cache without the entry of a plot. -/
def State.plotForget (s : State) (p : Nat) : State :=
  { s with plotCache := s.plotCache.filter (fun e => decide (e.plot ≠ p)) }

/-- The set of a plot in the plot cache of 4,096 sets (R503). PRESUMED, safe: the low bits of its number; R504 makes a missing entry cost
time alone. -/
def plotSet (p : Nat) : Nat := p % 4096

/-- An entry has expired; a self entry never does (R503). -/
def State.expired (s : State) (e : PlotEntry) : Bool :=
  match e.expiry with
  | some t => decide (t ≤ s.now)
  | none => false

/-- The entry that leaves the set of a plot for another: none while a way is free, otherwise an expired one, otherwise the least recently
used (R503). DEDUCED, safe: never a self entry, which leaves only when the node loses its plot. -/
def State.plotVictim (s : State) (p : Nat) : Option PlotEntry :=
  let mine := s.plotCache.filter (fun e => decide (plotSet e.plot = plotSet p))
  if mine.length < 16 then none
  else
    match mine.find? (fun e => s.expired e) with
    | some e => some e
    | none => (mine.filter (fun e => e.expiry.isSome)).getLast?

/-- An entry is written, the newest first, in its set of 16 ways; it is not kept when only self entries hold the set (R503). -/
def State.plotLearn (s : State) (p owner : Nat) : State :=
  let s := s.plotForget p
  let e : PlotEntry := ⟨p, owner, if owner = s.node then none else some (s.now + s.plotTtl)⟩
  match s.plotVictim p with
  | some v => { s with plotCache := e :: s.plotCache.erase v }
  | none =>
    if (s.plotCache.filter (fun e => decide (plotSet e.plot = plotSet p))).length < 16 then { s with plotCache := e :: s.plotCache } else s

/-- The owner the plot cache names (R503). -/
def State.plotHit (s : State) (p : Nat) : Option Nat :=
  (s.plotCache.find? (fun e => decide (e.plot = p) && (match e.expiry with
    | some t => decide (s.now < t)
    | none => true))).map PlotEntry.owner

/-- The entry of a plot becomes the most recently used. -/
def State.plotUse (s : State) (p : Nat) : State :=
  match s.plotCache.find? (fun e => decide (e.plot = p)) with
  | some e => { s with plotCache := e :: s.plotCache.filter (fun x => decide (x.plot ≠ p)) }
  | none => s

/-- Who owns the plot of an address, as R502 finds it: this node, another node, or a LOOKUP is needed. -/
inductive Owner where
  | here
  | node (n : Nat)
  | ask
  deriving DecidableEq, Repr

/-- Steps 1 to 4 of R502 for an access in the global space. While translation is bypassed (R332) an access is made
at its physical address, and no plot is looked up. -/
def plotOwner (s : State) (E : Env) (kind va : Nat) : Owner × State :=
  let p := plotOf va
  if iptN s E = 0 then (.here, s)
  else if (s.tlbSee E.n kind false (va >>> 14)).isSome then (.here, s.plotHitBy p none)
  else
    match s.plotHit p with
    | some o => if o = s.node then (.here, (s.plotUse p).plotHitBy p none) else (.node o, s.plotUse p)
    | none =>
      if s.ownMap.contains p then (.here, ((s.addRf .cdlPstat cdlPstat_MISSES 1).plotLearn p s.node).plotHitBy p none)
      else (.ask, s.addRf .cdlPstat cdlPstat_MISSES 1)

/-- The words of a payload. -/
def payloadWord (bs : List Byte) (i : Nat) : Nat := ofBytes ((bs.drop (8 * i)).take 8 |>.map BitVec.toNat)

/-- EINFO of REMOTE_FAULT (R511). -/
def remoteInfo (oreason capNo node reason cause : Nat) : Nat :=
  oreason % 16 * 2 ^ 32 + capNo % 16 * 2 ^ 24 + node % 1024 * 2 ^ 12 + reason % 16 * 2 ^ 8 + cause % 256

end Sys2Proof.Machine
end

