-- ==== Sys2Proof/Machine/Seq.lean ====
section
/-! DEFINITION. The words of a control store and the step of its sequencer: the fields of a micro word and of a nanoword, their parity
bits, the conditions and the next micro address ("Micro-routines and the control store", R317-R321). What the datapath does in a step is
CTRL of the nanoword, whose encoding belongs to each release (R317); the routines themselves have the behaviour that their own rules
state (R325). -/

namespace Sys2Proof.Machine

open Sys2Proof

/-- The fields of a micro word (R317). -/
def microNANO (w : Nat) : Nat := bits w 23 14
def microMODE (w : Nat) : Nat := bits w 13 11
def microNEXT (w : Nat) : Nat := bits w 10 0

/-- The fields of a nanoword (R317). -/
def nanoLEN (w : Nat) : Nat := bits w 143 142
def nanoNC (w : Nat) : Nat := bits w 141 139
def nanoCSEL (w k : Nat) : Nat := bits w (123 + 5 * k) (119 + 5 * k)
def nanoCTRL (w : Nat) : Nat := bits w 118 4

/-- The cycles that a step takes (R317). -/
def nanoCycles (w : Nat) : Nat := nanoLEN w + 1

/-- The ones among the low n bits of a number. -/
def onesOf (w : Nat) : Nat → Nat
  | 0 => 0
  | n + 1 => b2n (w.testBit n) + onesOf w n

/-- The parity bit of byte i of a word: with it the byte holds an odd number of ones (R317). -/
def parityBit (w i : Nat) : Bool := onesOf (w / 256 ^ i) 8 % 2 == 0

/-- The parity bits that MCS generates beside a word of n bytes (R324). -/
def parityBits (w n : Nat) : List Bool := (List.range n).map (fun i => parityBit w i)

/-- One copy of a word, as its store holds it: the word and a parity bit for each byte. -/
structure CsCopy where
  word   : Nat
  parity : List Bool
  deriving DecidableEq, Repr

/-- A word as MCS writes it, in either copy (R324, R327). -/
def csWritten (w n : Nat) : CsCopy := ⟨w, parityBits w n⟩

/-- A copy passes the parity check of its bytes. -/
def CsCopy.good (c : CsCopy) : Bool := decide (c.parity = parityBits c.word c.parity.length)

/-- The word that a step uses of its two copies: a good one; none when both fail (R321, R322). -/
def csUsed (a b : CsCopy) : Option Nat := if a.good then some a.word else if b.good then some b.word else none

/-- The conditions that a branch can ask for (R319), as they stand in a step. -/
structure SeqView where
  checkFailed  : Bool
  causeStaged  : Bool
  acceptable   : Bool
  dataPresent  : Bool
  exhausted    : Bool
  lineBoundary : Bool
  exl          : Bool
  sup          : Bool
  world        : Bool
  otherNode    : Bool
  handler      : Bool
  bufferFull   : Bool
  tag          : Nat
  capValid     : Bool
  capSealed    : Bool
  mprogMatch   : Bool
  replyPresent : Bool
  probeHit     : Bool
  emptySlot    : Bool
  probeLimit   : Bool
  denied       : Bool
  deriving DecidableEq, Repr

/-- cond of R318: the condition that a select names; none for a reserved select (R319). -/
def SeqView.cond (v : SeqView) (select : Nat) : Option Bool :=
  [false, true, v.checkFailed, v.causeStaged, v.acceptable, v.dataPresent, v.exhausted, v.lineBoundary, v.exl, v.sup, v.world, v.otherNode,
    v.handler, v.bufferFull, decide (v.tag = tCAPLO), decide (v.tag = tCAPHI), decide (v.tag = tRETREC), decide (v.tag = tPOISON),
    decide (v.tag = tUNINIT), v.capValid, v.capSealed, v.mprogMatch, v.replyPresent, v.probeHit, v.emptySlot, v.probeLimit, v.denied][select]?

/-- The condition bits that a branch ORs into its target: bit k is the condition that CSEL[k] names, for k below NC (R318). -/
def branchBits (v : SeqView) (nano : Nat) : Nat :=
  ((List.range (nanoNC nano)).map (fun k => b2n ((v.cond (nanoCSEL nano k)).getD false) * 2 ^ k)).sum

/-- next_address of R318: the micro address after the step at m, none at END. The modes 5 to 7 are reserved, and the image loader rejects
them (R320). -/
def nextAddress (v : SeqView) (m micro nano : Nat) : Option Nat :=
  let quarter := m / 2048 % 4 * 2048
  match microMODE micro with
  | 0 => some ((m + 1) % 8192)
  | 1 => some (quarter + microNEXT micro)
  | 2 => some (Nat.lor (quarter + microNEXT micro) (branchBits v nano))
  | 4 => some (microNEXT micro * 4)
  | _ => none

/-- The sequencer within a routine: the micro address of its step and the cycles it has taken. -/
structure Sequencer where
  at'    : Nat
  cycles : Nat
  deriving DecidableEq, Repr

/-- One step of the sequencer over the words of a store (R318): its cycles are added, and it goes on at the next address or ends. -/
def Sequencer.step (micro nano : Nat → Nat) (v : SeqView) (q : Sequencer) : Sequencer × Bool :=
  let w := micro q.at'
  let d := nano (microNANO w)
  match nextAddress v q.at' w d with
  | some a => (⟨a, q.cycles + nanoCycles d⟩, true)
  | none => (⟨q.at', q.cycles + nanoCycles d⟩, false)

end Sys2Proof.Machine
end

