-- ==== Sys2Proof/Machine/Mcs.lean ====
section
/-! DEFINITION. The control store of a core as block MCS keeps it: corrections, loads and their results ("Micro-routines and
the control store", R321-R328). -/

namespace Sys2Proof.Machine

open Sys2Proof

/-- MCS.CORE[n].QUI (R326): the core is quiesced in a slice, held in reset, or kept after a failed read-back (R327). -/
def State.coreQui (s : State) (n : Nat) : Bool :=
  let c := s.core (s.unit n)
  c.held || (c.quiesced && decide (c.c0.st = .idle) && decide (c.c1.st = .idle)) || c.csFailed

/-- The cores that a load of core n loads: both cores of a lockstep pair (R326). -/
def State.loadCores (s : State) (n : Nat) : List Nat := if s.paired n then [n / 2 * 2, n / 2 * 2 + 1] else [n]

/-- A write of n to MCS.LOADREQ (R326): accepted when the block is idle and every core to be loaded is quiesced. -/
def State.loadReq (s : State) (v : Word) : State :=
  let n := fld v 6 0
  if n < 112 ∧ s.rf .mcsStat mcsStat_BUSY = 0 ∧ s.coreQui n = true then
    (s.setRf .mcsStat mcsStat_BUSY 1).setRf .mcsStat mcsStat_LASTCORE n
  else s

/-- One word of a section as MCS reads it: a Ridge-checked read (R355). -/
def State.mcsWord (s : State) (a : Nat) : Option Nat × State :=
  let (bs, ok, s) := s.masterReadBytes mMCS 0 a 8 2
  (if ok then some (ofBytes bs) else none, s)

/-- The control store that a section gives (R324): its start table, its micro words and its nanowords, f giving the bytes of the
section. -/
def sectionStore (f : Nat → Nat) : CStore :=
  let num := fun (a n : Nat) => ofBytes ((List.range n).map (fun j => f (a + j)))
  { version := num 4 4
    starts := (List.range 64).map (fun i => num (0x40 + 2 * i) 2)
    micro := (List.range 8192).map (fun i => num (0x1000 + 4 * i) 4)
    nano := (List.range 1024).map (fun i => num (0x9000 + 32 * i) 18) }

/-- The bytes of the staged section at a, read as master MCS line by line (R355, R366, R57); none when a line is denied or has no memory
behind it, or a word of it cannot be read. -/
def State.readSection (s : State) (a : Nat) : Option CStore × State :=
  let (bs, ok, s) := s.masterReadBytes mMCS 0 a 0x11000 (0x11000 / 64 + 2)
  (if ok then some (sectionStore (fun i => bs.getD i 0)) else none, s)

/-- Core n holds a release (R323, R327): both copies of every word are written, and its error records start afresh. -/
def State.csInstall (s : State) (n : Nat) (c : Option CStore) : State :=
  let v := match c with
    | none => 0
    | some c => c.version
  let u := s.unit n
  let s := s.setCore u { s.core u with csBad := [], csFailed := false }
  let s := { s with cstore := match c with
    | none => tdel s.cstore n
    | some c => tset s.cstore n c }
  s.setReg (.mcsCore n) (word v)

/-- The read-back of a load fails (R327): the cores keep QUI = 1, and each is reported. -/
def State.csFail (s : State) (n : Nat) : State :=
  let u := s.unit n
  (s.loadCores n).foldl (fun s c => s.raise 0 c 0x0A 0 0) (s.setCore u { s.core u with csFailed := true })

/-- A load of core n from a section at address a (R326, R327): the error code and the state. readback says whether every word
reads back as written; the section is then the active one (R328). DESIGN CHOICE, safe: a section that MCS cannot read counts as one whose
FORMAT is invalid. -/
def State.csLoad (s : State) (n a : Nat) (readback : Bool) : Nat × State :=
  if !(inSysWindow a) then (2, s)
  else if (s.core (s.unit n)).off then (4, s)
  else
    match s.mcsWord a with
    | (none, s) => (1, s)
    | (some w, s) =>
      if bits w 7 0 ≠ 1 ∨ bits w 31 8 ≠ 0 ∨ bits w 63 32 = 0 then (1, s)
      else if !readback then (3, s.csFail n)
      else
        match s.readSection a with
        | (none, s) => (1, s)
        | (some x, s) => (0, (s.loadCores n).foldl (fun s c => s.csInstall c (some x)) { s with csActive := some a })

/-- Core n is loaded again, from the active staged section, or from the boot release when none is active (R323, R328). A free value says
whether every word reads back as written. -/
def State.csAgain (s : State) (n : Nat) : State :=
  let (v, s) := s.draw
  match s.csActive with
  | some a => (s.csLoad n a (decide (v % 2 = 0))).2
  | none => if v % 2 = 0 then (s.loadCores n).foldl (fun s c => s.csInstall c none) s else s.csFail n

end Sys2Proof.Machine
end

