-- ==== Sys2Proof/Machine/Drbg.lean ====
section
/-! DEFINITION. The two DRBG instances of the key engine and their entropy sources ("The key engine", R459). -/

namespace Sys2Proof.Machine

open Sys2Proof

/-! ## Status codes (R451) -/

def ksOK : Nat := 0x00
def ksVERIFY_FAIL : Nat := 0x01
def ksFORMAT : Nat := 0x02
def ksSTALE : Nat := 0x03
def ksKEYTYPE : Nat := 0x04
def ksLENGTH : Nat := 0x05
def ksSTORE_FULL : Nat := 0x06
def ksENTROPY : Nat := 0x07
def ksAUTH_FAIL : Nat := 0x08
def ksPOLICY : Nat := 0x09
def ksUNAVAILABLE : Nat := 0x0A
def ksENGINE_FAULT : Nat := 0x0B

/-! ## The DRBG (R459) -/

/-- Entropy sources that pass their health tests. -/
def State.sources (s : State) : Nat := s.rf .keyDrbg keyDrbg_SRC0 + s.rf .keyDrbg keyDrbg_SRC1

/-- The instance of a world has reached its reseed limit: 2^16 requests or 1 s. -/
def State.drbgStale (s : State) (w : Bool) : Bool :=
  let d := tget s.drbgN (b2n w) (0, 0)
  decide (2 ^ 16 ≤ d.1) || decide (d.2 + 1000000000 ≤ s.now)

/-- The instance of a world reseeds; without a source it cannot, and source 134 is reported (R464). -/
def State.reseed (s : State) (w : Bool) : State :=
  if s.sources = 0 then s.report 134
  else { s.addRf .keyDrbg keyDrbg_RESEEDS 1 with drbgN := tset s.drbgN (b2n w) (0, s.now) }

/-- DRBG.HEALTHY: both instances within their reseed limits. -/
def State.drbgHealth (s : State) : State :=
  s.setRf .keyDrbg keyDrbg_HEALTHY (b2n (!(s.drbgStale false) && !(s.drbgStale true)))

/-- A request for output: the number of the output, or none when the instance cannot produce it. -/
def State.drbgUse (s : State) (w : Bool) : Option Nat × State :=
  let s := if s.drbgStale w && decide (s.sources ≠ 0) then s.reseed w else s
  if s.drbgStale w then (none, s.drbgHealth)
  else
    let d := tget s.drbgN (b2n w) (0, 0)
    let id := s.free
    (some id, { s with drbgN := tset s.drbgN (b2n w) (d.1 + 1, d.2), free := s.free + 1 }.drbgHealth)

/-- The first n bytes of output id. -/
def drbgBytes (id n : Nat) : List Byte := (List.range n).map (fun i => Config.drbg id i)

/-- Entropy source i is excluded (R459, R464). -/
def State.entropyFail (s : State) (i : Nat) : State :=
  let f := if i = 0 then keyDrbg_SRC0 else keyDrbg_SRC1
  (s.setRf .keyDrbg f 0).report (135 + i)

end Sys2Proof.Machine
end

