-- ==== Sys2Proof/Machine/Jc.lean ====
section
/-! DEFINITION. The journal and its cartridges: sealing, appends, acknowledgement and durability, the slots and their states,
attestation, wear, replacement, stalls and read-out ("Journal cartridges and egress", R465-R481, R485; R618). -/

namespace Sys2Proof.Machine

open Sys2Proof

/-! ## Slots and rings -/

/-- Slot states (R485). -/
def jsABSENT : Nat := 0
def jsATTEST : Nat := 1
def jsREFUSED : Nat := 2
def jsRESILVER : Nat := 3
def jsMIRROR : Nat := 4
def jsFAILED : Nat := 5

/-- The state of slot j. -/
def State.jcState (s : State) (j : Nat) : Nat := s.rf (.jcSlot j) jcSlot_STATE

/-- What the journal records of slot j. -/
def State.jrun (s : State) (j : Nat) : JSlot := tget s.jslot j ⟨0, 0, 0, 0, 0⟩

/-- Bytes of a ring: 8 TiB less the label (R473). -/
def ringSize : Nat := 2 ^ 43 - 2 ^ 20

/-- What an entry knows of its append to slot j, and whether the slot acknowledged it. -/
def JEntry.sent (e : JEntry) (j : Nat) : Option JSent := if j = 0 then e.sent0 else e.sent1
def JEntry.ack (e : JEntry) (j : Nat) : Bool := if j = 0 then e.ack0 else e.ack1

/-- The entry sent to slot j. -/
def JEntry.setSent (e : JEntry) (j : Nat) (x : JSent) : JEntry :=
  if j = 0 then { e with sent0 := some x } else { e with sent1 := some x }

/-- The entry as if never sent to slot j. -/
def JEntry.unsend (e : JEntry) (j : Nat) : JEntry :=
  if j = 0 then { e with sent0 := none, ack0 := false } else { e with sent1 := none, ack1 := false }

/-- The entry acknowledged by slot j. -/
def JEntry.setAck (e : JEntry) (j : Nat) : JEntry := if j = 0 then { e with ack0 := true } else { e with ack1 := true }

/-- Ring bytes in use on the cartridge of slot j (R473): from the oldest entry whose SEQ exceeds RELSEQ to the point where the
ring goes on. -/
def State.ringUsed (s : State) (j : Nat) (c : Cart) : Nat :=
  let rel := (s.reg .jcRel).toNat
  let held := (c.ents.filter (fun e => decide (rel < e.seq))).map (fun e => (e.seq, e.off))
  let flying := s.staged.filterMap (fun e => match e.sent j with
    | some x => if e.ack j then none else some (e.seq, x.off)
    | none => none)
  match held ++ flying with
  | [] => 0
  | x :: xs =>
    let first := xs.foldl (fun (b : Nat × Nat) e => if e.1 < b.1 then e else b) x
    let u := (c.wpos + ringSize - first.2) % ringSize
    if u = 0 then ringSize else u

/-- Ring bytes free on the cartridge of slot j. -/
def State.ringFree (s : State) (j : Nat) (c : Cart) : Nat := ringSize - s.ringUsed j c

/-- The slots in a state, among those with a cartridge. -/
def State.slotsIn (s : State) (st : Nat) : List Nat :=
  [0, 1].filter (fun j => decide (s.jcState j = st) && (tfind s.carts j).isSome)

/-- The highest durable SEQ after a scan of the staged entries in SEQ order (R469): each must be acknowledged by every slot of
the list. -/
def durScan (mirrors : List Nat) (dur : Nat) : List JEntry → Nat
  | [] => dur
  | e :: es =>
    if e.seq ≤ dur then durScan mirrors dur es
    else if mirrors.all (fun j => e.ack j) then durScan mirrors e.seq es
    else dur

/-- The ring of a slot in MIRROR has no room for the next entry to append (R473). -/
def State.ringFull (s : State) : Bool :=
  (s.slotsIn jsMIRROR).any (fun j => match tfind s.carts j, s.staged.find? (fun e => (e.sent j).isNone) with
    | some c, some e => decide (s.ringFree j c < e.bytes.length)
    | _, _ => false)

/-- Bytes staged and not durable (R485). -/
def State.notDurable (s : State) : Nat :=
  ((s.staged.filter (fun e => decide ((s.reg .jcDur).toNat < e.seq))).map (fun (e : JEntry) => e.bytes.length)).sum

/-- Brings the journal up to date: STALL with source 153 (R479), DURSEQ (R469), FREE with source 152 (R473), and the entries
that leave staging. -/
def State.jcUpdate (s : State) : State :=
  if !s.serving then s else
  let mirrors := s.slotsIn jsMIRROR
  let stall := mirrors.isEmpty || s.ringFull || s.jcQuiet
  let was := s.rf .jcStat jcStat_STALL
  let s := s.setRf .jcStat jcStat_STALL (b2n stall)
  let s := if stall && decide (was = 0) then s.report 153 else s
  let s := if stall then s else s.setReg .jcDur (word (durScan mirrors (s.reg .jcDur).toNat s.staged))
  let dur := (s.reg .jcDur).toNat
  let copies := s.slotsIn jsRESILVER
  let s := { s with staged := s.staged.filter (fun e =>
    decide (dur < e.seq) || copies.any (fun j => (e.sent j).isSome && !(e.ack j))) }
  let gib := (mirrors.filterMap (fun (j : Nat) => (tfind s.carts j).map (s.ringFree j))).foldl Nat.min ringSize / 2 ^ 30
  if mirrors.isEmpty then s.setRf .jcFree jcFree_GIB 0
  else
    let old := s.rf .jcFree jcFree_GIB
    let s := s.setRf .jcFree jcFree_GIB gib
    if gib = 0 && old != 0 then s.report 152 else s

/-- Slot j takes a state and reason (R485). -/
def State.jcSet (s : State) (j st reason : Nat) : State :=
  (s.setRf (.jcSlot j) jcSlot_STATE st).setRf (.jcSlot j) jcSlot_REASON reason

/-- The label of the cartridge in slot j, rewritten by a function. -/
def State.setLabel (s : State) (j : Nat) (f : CartLabel → CartLabel) : State :=
  match tfind s.carts j with
  | none => s
  | some c => { s with carts := tset s.carts j { c with label := c.label.map f } }

/-- A copy whose source leaves MIRROR starts again from the entry after RELSEQ when a slot is in MIRROR again (R478). -/
def State.copyRestart (s : State) (j : Nat) : State :=
  if s.jcState j = jsRESILVER then
    { s with jslot := tset s.jslot j { s.jrun j with copyNext := (s.reg .jcRel).toNat + 1 } }
  else s

/-- Slot j becomes FAILED with a reason, and source 144 + 16j + 4 is reported (R468). -/
def State.jcFail (s : State) (j reason : Nat) : State :=
  (((s.jcSet j jsFAILED reason).report (144 + 16 * j + 4)).copyRestart (1 - j)).jcUpdate

/-- Slot j is refused with a reason (R475). -/
def State.jcRefuse (s : State) (j reason : Nat) : State := (s.jcSet j jsREFUSED reason).report (144 + 16 * j + 2)

/-- Slot j enters MIRROR: COMPLETE is set (R472). -/
def State.jcMirror (s : State) (j : Nat) : State :=
  let s := (s.jcSet j jsMIRROR 0).setLabel j (fun l => { l with complete := true })
  { s with jslot := tset s.jslot j { s.jrun j with lastAck := s.now } }

/-- Slot j enters RESILVER: COMPLETE is cleared, its ring goes on where that of the source slot does, and the copy begins after
RELSEQ and ends before the first entry that will be appended (R472, R477). -/
def State.jcResilver (s : State) (j : Nat) : State :=
  let s := (s.jcSet j jsRESILVER 0).setLabel j (fun l => { l with complete := false })
  let stop := match s.staged.find? (fun e => (e.sent j).isNone) with
    | some e => e.seq
    | none => (s.reg .jcSeq).toNat
  let s := match tfind s.carts j, (s.slotsIn jsMIRROR).filterMap (fun i => tfind s.carts i) with
    | some c, m :: _ => { s with carts := tset s.carts j { c with wpos := m.wpos } }
    | _, _ => s
  { s with jslot := tset s.jslot j { s.jrun j with copyNext := (s.reg .jcRel).toNat + 1, copyEnd := stop } }

/-! ## Sealing and appending -/

/-- n bytes of a list, missing ones being zero. -/
def fitBytes (n : Nat) (l : List Byte) : List Byte := (List.range n).map (fun i => l.getD i 0)

/-- The n bytes of a number, most significant first. -/
def bigEndian (x n : Nat) : List Byte := ((toBytes x n).reverse).map (BitVec.ofNat 8)

/-- The 16-byte header of an entry (R465). -/
def State.jcHeader (s : State) (r : JRec) : List Byte :=
  let w1 := s.salt % 2 ^ 32 * 2 ^ 32 + s.node % 1024 * 2 ^ 22 + r.bytes.length / 16 % 512 * 2 ^ 13 + r.format % 256 * 2 ^ 5
    + r.attempt % 4 * 2 ^ 3 + 1
  ((toBytes r.seq 8) ++ (toBytes w1 8)).map (BitVec.ofNat 8)

/-- The nonce of an entry (R466): SALT and SEQ, big-endian. -/
def jcNonce (salt seq : Nat) : List Byte := bigEndian salt 4 ++ bigEndian seq 8

/-- The key that seals journal records (R460, R466). -/
def State.jcKey (s : State) : List Byte := Config.derive s.devKey 3 (s.reg .sysSerial)

/-- The oldest record taken is sealed and staged (R465, R466). -/
def State.sealOne (s : State) (r : JRec) (rest : List JRec) : State :=
  let n := r.bytes.length
  let head := s.jcHeader r
  let body := (r.bytes.drop 16).take (n - 32)
  let ct := fitBytes (n - 16) (Config.gcmSeal s.jcKey (jcNonce s.salt r.seq) head body)
  { s with sealing := rest, staged := s.staged ++ [(⟨r.seq, head ++ ct, none, none, false, false⟩ : JEntry)] }

/-- RECORD_SEALING (R466). -/
def execRecordSealing (s : State) : Host.Outcome State Fault Refusal :=
  match s.sealing with
  | [] => .next s
  | r :: rest => .next (s.sealOne r rest).jcUpdate

/-- Sends the staged entries that slot j has not been sent, in SEQ order, as one append; an entry for which the ring has no
room stops it (R470, R473). -/
def State.appendTo (s : State) (j a : Nat) : Nat → State
  | 0 => s
  | fuel + 1 =>
    match tfind s.carts j, s.staged.find? (fun e => (e.sent j).isNone) with
    | some c, some e =>
      if s.ringFree j c < e.bytes.length then s
      else
        let s := { s with
          staged := s.staged.map (fun (x : JEntry) => if x.seq = e.seq then x.setSent j ⟨a, c.wpos, s.now⟩ else x)
          carts := tset s.carts j { c with wpos := (c.wpos + e.bytes.length) % ringSize
                                           written := c.written + e.bytes.length } }
        s.appendTo j a fuel
    | _, _ => s

/-- Bytes staged that some slot in MIRROR or RESILVER has not been sent. -/
def State.unsent (s : State) : Nat :=
  ((s.staged.filter (fun e => (s.slotsIn jsMIRROR ++ s.slotsIn jsRESILVER).any (fun j => (e.sent j).isNone))).map
    (fun e => e.bytes.length)).sum

/-- APPEND (R470): 4 µs after the last append, or once 64 KiB is staged, staged entries go to each slot in MIRROR or
RESILVER. -/
def execAppend (s : State) : Host.Outcome State Fault Refusal :=
  if s.unsent = 0 then .next s
  else
    let s := if 65536 ≤ s.unsent then s else s.advanceTo (s.jcLast + 4000)
    let a := s.jcAppends + 1
    let s := { s with jcAppends := a, jcLast := s.now }
    .next ((s.slotsIn jsMIRROR ++ s.slotsIn jsRESILVER).foldl (fun s j => s.appendTo j a s.staged.length) s).jcUpdate

/-- Two entries of a ring share a byte of it. -/
def ringShares (a b : RingEnt) : Bool :=
  decide ((a.off + ringSize - b.off) % ringSize < b.bytes.length) || decide ((b.off + ringSize - a.off) % ringSize < a.bytes.length)

/-- An entry written to a ring overwrites those whose bytes it takes (R473). -/
def ringPut (l : List RingEnt) (e : RingEnt) : List RingEnt := l.filter (fun x => !(ringShares x e)) ++ [e]

/-- The append numbered a is acknowledged by slot j: its entries stand on the cartridge (R469, R471). -/
def State.ackAppend (s : State) (j a : Nat) : State :=
  let mine := s.staged.filter (fun e => (match e.sent j with
    | some x => decide (x.append = a)
    | none => false) && !(e.ack j))
  let s := match tfind s.carts j with
    | none => s
    | some c => { s with carts := tset s.carts j { c with
        ents := mine.foldl (fun l (e : JEntry) => match e.sent j with
          | some x => ringPut l ⟨e.seq, x.off, e.bytes⟩
          | none => l) c.ents } }
  { s with
    staged := s.staged.map (fun (e : JEntry) => if mine.any (fun (x : JEntry) => decide (x.seq = e.seq)) then e.setAck j else e)
    jslot := tset s.jslot j { s.jrun j with lastAck := s.now } }

/-- The numbers of the appends to slot j that are outstanding. -/
def State.outstanding (s : State) (j : Nat) : List Nat :=
  (s.staged.filterMap (fun e => match e.sent j with
    | some x => if e.ack j then none else some x.append
    | none => none)).eraseDups

/-- When the oldest append that slot j has not answered was sent. -/
def State.oldestSent (s : State) (j : Nat) : Option Nat :=
  (s.staged.filterMap (fun e => match e.sent j with
    | some x => if e.ack j then none else some x.time
    | none => none)).min?

/-- A slot that owes an answer has been silent since then (R468, R479): since its last acknowledgement, or since the oldest append
that it has not answered was sent, whichever is later (DEDUCED). -/
def State.silentSince (s : State) (j : Nat) : Option Nat := (s.oldestSent j).map (Nat.max (s.jrun j).lastAck)

/-- CARTRIDGE_ACK (R469): the cartridge in slot j completes the append numbered a. An acknowledgement of a slot in MIRROR ends
a stall for silence (R479). -/
def execCartridgeAck (j a : Nat) (s : State) : Host.Outcome State Fault Refusal :=
  if 2 ≤ j then .refused .illFormed
  else if !((s.outstanding j).contains a) || !(decide (s.jcState j = jsMIRROR) || decide (s.jcState j = jsRESILVER)) then
    .next s
  else
    let s := s.ackAppend j a
    let s := if s.jcState j = jsMIRROR then { s with jcQuiet := false } else s
    .next s.jcUpdate

/-- The latest acknowledgement of a slot in MIRROR. -/
def State.lastMirrorAck (s : State) : Nat := (s.slotsIn jsMIRROR).foldl (fun m j => Nat.max m (s.jrun j).lastAck) 0

/-- JOURNAL_STALL (R479): no slot in MIRROR acknowledges an outstanding append for 1 ms. -/
def execJournalStall (s : State) : Host.Outcome State Fault Refusal :=
  let silent := (s.slotsIn jsMIRROR).filterMap s.silentSince
  if s.jcQuiet then .next s
  else match silent.min? with
    | none => .next s
    | some t =>
      let s := s.advanceTo (Nat.max t s.lastMirrorAck + 1000000)
      .next ({ s with jcQuiet := true }.jcUpdate)

/-- SLOT_UNANSWERED (R468): slot j gives no acknowledgement for 1 ms while another slot in MIRROR acknowledged within that
time. -/
def execSlotUnanswered (j : Nat) (s : State) : Host.Outcome State Fault Refusal :=
  if 2 ≤ j then .refused .illFormed
  else
    if s.jcState j ≠ jsMIRROR ∧ s.jcState j ≠ jsRESILVER then .next s
    else match s.silentSince j with
      | none => .next s
      | some t =>
        if s.jcState (1 - j) = jsMIRROR ∧ t < (s.jrun (1 - j)).lastAck then .next ((s.advanceTo (t + 1000000)).jcFail j 11)
        else .next s

/-- MEDIA_ERROR (R468): a media error of the cartridge in slot j fails the slot. -/
def execMediaError (j : Nat) (s : State) : Host.Outcome State Fault Refusal :=
  if 2 ≤ j then .refused .illFormed
  else if s.jcState j ≠ jsMIRROR ∧ s.jcState j ≠ jsRESILVER then .next s
  else .next (s.jcFail j 12)

/-! ## Insertion, attestation and start-up -/

/-- The cartridge ports are out of reset: the 100 MHz reference is present (R614), and the device is not in LOCKDOWN
(R576). -/
def State.portsRun (s : State) (j : Nat) : Bool := s.ref100 && s.clkOn 11 && s.domainOn (87 + j) && decide (s.mode ≠ 5)

/-- CARTRIDGE_INSERT (R618): CART_PRSNT_N[j] goes low with a cartridge; 50 ms later the slot is powered, and after two steps
of 100 ms it enters ATTEST. -/
def execCartridgeInsert (j : Nat) (c : Cart) (s : State) : Host.Outcome State Fault Refusal :=
  if 2 ≤ j then .refused .illFormed
  else if (tfind s.carts j).isSome then .next s
  else
    let s := s.advanceTo (s.now + 250000000)
    let s := ({ s with carts := tset s.carts j c }.setRf (.jcSlot j) jcSlot_PRESENT 1).report (144 + 16 * j)
    .next (if s.portsRun j then s.jcSet j jsATTEST 0 else s)

/-- CARTRIDGE_REMOVE (R618, R477, R478): the cartridge leaves slot j; a slot in MIRROR becomes FAILED with REASON 10, any other
ABSENT. Appends it had not acknowledged are not on it. -/
def execCartridgeRemove (j : Nat) (s : State) : Host.Outcome State Fault Refusal :=
  if 2 ≤ j then .refused .illFormed
  else if (tfind s.carts j).isNone then .next s
  else
    let mirror := decide (s.jcState j = jsMIRROR)
    let s := { s with carts := tdel s.carts j, staged := s.staged.map (fun (e : JEntry) => e.unsend j) }
    let s := (s.setRf (.jcSlot j) jcSlot_PRESENT 0).report (144 + 16 * j + 5)
    .next (if mirror then s.jcFail j 10 else (s.jcSet j jsABSENT 0).jcUpdate)

/-- 24 PB, the rated bytes written (R475). -/
def ratedBytes : Nat := 24 * 10 ^ 15

/-- The reason for which R475 refuses a cartridge, if any. -/
def State.attestReason (s : State) (c : Cart) : Option Nat :=
  if c.root ≠ s.cartRoot ∨ s.cartRoot.all (fun b => decide (b = 0)) = true then some 1
  else if c.signs = false then some 2
  else if s.revoked.contains c.serial then some 3
  else if c.model = false then some 4
  else if ratedBytes < c.written then some 5
  else none

/-- The label of a cartridge belongs to another device (R472). -/
def State.foreignLabel (s : State) (c : Cart) : Bool :=
  match c.label with
  | none => false
  | some l => decide (l.serial ≠ s.reg .sysSerial)

/-- The highest SEQ whose entry a cartridge holds complete (R472). -/
def cartTop (c : Cart) : Nat := c.ents.foldl (fun m e => Nat.max m e.seq) 0

/-- A blank cartridge is labelled for this device, its ring empty (R472). -/
def State.labelBlank (s : State) (j : Nat) : State :=
  match tfind s.carts j with
  | some c =>
    if c.label.isNone then
      { s with carts := tset s.carts j { c with label := some ⟨s.reg .sysSerial, (s.reg .jcRel).toNat, true⟩, ents := [], wpos := 0 } }
    else s
  | none => s

/-- The cartridge in slot j is blank. -/
def State.blank (s : State) (j : Nat) : Bool :=
  match tfind s.carts j with
  | some c => c.label.isNone
  | none => true

/-- The label of the cartridge in slot j has COMPLETE set, or it has none. -/
def State.completeOrBlank (s : State) (j : Nat) : Bool :=
  match tfind s.carts j with
  | some c => (match c.label with
    | some l => l.complete
    | none => true)
  | none => false

/-- The highest SEQ of the cartridge in slot j. -/
def State.slotTop (s : State) (j : Nat) : Nat := ((tfind s.carts j).map cartTop).getD 0

/-- The table of R472 over the slots whose cartridges are attested: those that enter MIRROR and those that enter RESILVER, where
one whose COMPLETE is clear enters instead. -/
def State.jcTable (s : State) (js : List Nat) : List Nat × List Nat :=
  let own := js.filter (fun j => !(s.blank j))
  let blank := js.filter (fun j => s.blank j)
  let (mir, res) := match own with
    | [] => (blank, [])
    | [i, j] => if s.slotTop i = s.slotTop j then (own, []) else if s.slotTop i < s.slotTop j then ([j], [i]) else ([i], [j])
    | _ => (own, blank)
  (mir.filter (fun j => s.completeOrBlank j), res ++ mir.filter (fun j => !(s.completeOrBlank j)))

/-- The slots of attested cartridges are set by that table, blank cartridges being labelled first. -/
def State.jcPlace (s : State) (js : List Nat) : State :=
  let (mir, res) := s.jcTable js
  let s := js.foldl (fun s j => s.labelBlank j) s
  let s := mir.foldl (fun s j => s.jcMirror j) s
  res.foldl (fun s j => s.jcResilver j) s

/-- A cartridge that passed R475 takes its place (R472): refused when another device labelled it; resilvered when a slot is in
MIRROR; otherwise placed with the other attested cartridges. -/
def State.jcAttested (s : State) (j : Nat) : State :=
  match tfind s.carts j with
  | none => s
  | some c =>
    let s := s.report (144 + 16 * j + 1)
    if s.foreignLabel c then s.jcRefuse j 7
    else if (s.slotsIn jsMIRROR).isEmpty then
      let o := 1 - j
      let s := if s.jcState o = jsRESILVER ∧ (tfind s.carts o).isSome then s.jcPlace (if o < j then [o, j] else [j, o])
        else s.jcPlace [j]
      s.jcUpdate
    else ((s.labelBlank j).jcResilver j).jcUpdate

/-- ATTESTATION (R475): the chain, the challenge signature and the conditions on the cartridge in slot j are verified. While
the device is in CONFIGURE the slots are placed together when it enters SERVICE (R472). A port held in reset is waited for (R601). -/
def execAttestation (j : Nat) (s : State) : Host.Outcome State Fault Refusal :=
  if 2 ≤ j then .refused .illFormed
  else if s.jcState j ≠ jsATTEST ∨ s.serving = false ∨ s.portsRun j = false then .next s
  else
    match tfind s.carts j with
    | none => .next s
    | some c =>
      let s := ((s.advanceTo ((s.jrun j).heldTo)).drbgUse true).2
      match s.attestReason c with
      | some r => .next (s.jcRefuse j r)
      | none => .next (s.jcAttested j)

/-- ATTESTATION_TIMEOUT (R475): the cartridge in slot j does not answer an attestation command within 1 s. -/
def execAttestationTimeout (j : Nat) (s : State) : Host.Outcome State Fault Refusal :=
  if 2 ≤ j then .refused .illFormed
  else if s.jcState j ≠ jsATTEST ∨ s.portsRun j = false then .next s
  else .next ((s.advanceTo (Nat.max s.now ((s.jrun j).heldTo) + 1000000000)).jcRefuse j 6)

/-- The seated cartridges show PRESENT. -/
def State.showSeated (s : State) : State :=
  [0, 1].foldl (fun s j => if (tfind s.carts j).isSome then s.setRf (.jcSlot j) jcSlot_PRESENT 1 else s) s

/-- The start-up of R472 and R467: every seated cartridge is attested, the slots are set, RELSEQ is taken from a label, SEQ
goes on above the highest found, and DURSEQ is one below it. -/
def State.jcStart (s : State) : State :=
  let s := s.showSeated
  let seated := [0, 1].filter (fun j => (tfind s.carts j).isSome && s.portsRun j && !(s.retired.contains (8, j)))
  let s := [0, 1].foldl (fun s j =>
    if s.retired.contains (8, j) = true ∧ (tfind s.carts j).isSome = true then s.jcSet j jsFAILED 8 else s) s
  let s := seated.foldl (fun s j => match tfind s.carts j with
    | none => s
    | some c =>
      let s := (s.jcSet j jsATTEST 0).drbgUse true |>.2
      match s.attestReason c with
      | some r => s.jcRefuse j r
      | none => let s := s.report (144 + 16 * j + 1)
                if s.foreignLabel c then s.jcRefuse j 7 else s) s
  let s := s.jcPlace (seated.filter (fun j => decide (s.jcState j = jsATTEST)))
  let mirrors := s.slotsIn jsMIRROR
  let rel := mirrors.foldl (fun m j => Nat.max m (((tfind s.carts j).bind (fun c => c.label.map CartLabel.relseq)).getD 0)) 0
  let seq := (mirrors.map s.slotTop).foldl Nat.max 0 + 2 ^ 20
  (((s.setReg .jcRel (word rel)).setReg .jcSeq (word seq)).setReg .jcDur (word (seq - 1))).jcUpdate

/-- LABEL_REWRITE (R472): at most once a second while RELSEQ advances, the label of slot j takes RELSEQ. -/
def execLabelRewrite (j : Nat) (s : State) : Host.Outcome State Fault Refusal :=
  if 2 ≤ j then .refused .illFormed
  else if s.jcState j ≠ jsMIRROR ∧ s.jcState j ≠ jsRESILVER then .next s
  else
    match (tfind s.carts j).bind Cart.label with
    | none => .next s
    | some l =>
      let rel := (s.reg .jcRel).toNat
      if rel ≤ l.relseq then .next s
      else
        let s := s.advanceTo ((s.jrun j).lastLabel + 1000000000)
        let s := { s with jslot := tset s.jslot j { s.jrun j with lastLabel := s.now } }
        .next (s.setLabel j (fun l => { l with relseq := rel }))

/-! ## Wear -/

/-- WEAR_READ (R476): every 10 s the count of each attested cartridge is read. The weights of the 24-hour average of the append
rate are not stated: the rate is a free value. -/
def State.wearRead (s : State) (j : Nat) : State :=
  match tfind s.carts j with
  | none => s
  | some c =>
    if s.jcState j < jsRESILVER then s
    else
      let (r, s) := s.draw
      let days := if r = 0 then 0xFFFF else (ratedBytes - c.written) / r / 86400
      let days := if 65534 < days then 0xFFFF else days
      let old := s.rf (.jcWear j) jcWear_EOLDAYS
      let s := s.setRf (.jcWear j) jcWear_EOLDAYS days
      let s := s.setRf (.jcWear j) jcWear_PCT (Nat.min 255 (c.written * 100 / ratedBytes))
      let s := s.setRf (.jcWear j) jcWear_WRITTEN (c.written / 10 ^ 9)
      let warn := s.rf .jcCfg jcCfg_WARNDAYS
      let s := if days < warn ∧ warn ≤ old then s.report (144 + 16 * j + 6) else s
      let s := if days < 7 ∧ 7 ≤ old then s.report (144 + 16 * j + 7) else s
      if (ratedBytes * 110 ≤ c.written * 100 ∨ c.spareOut = true) ∧ s.jcState j ≠ jsFAILED then
        (s.jcFail j 8).raise 8 j 0x48 0 0
      else s

/-- The command WEAR_READ: 10 s have passed. -/
def execWearRead (s : State) : Host.Outcome State Fault Refusal :=
  if s.serving = false then .next s
  else .next (((s.advanceTo (s.now + 10000000000)).wearRead 0).wearRead 1)

/-! ## Replacement -/

/-- A write of 1 to JC.SLOT[j].RELEASE (R477, R485): outstanding writes complete, the label is rewritten (R472), and the slot
is FAILED with REASON 9; otherwise ignored. -/
def State.jcRelease (s : State) (j : Nat) : State :=
  if s.jcState j = jsMIRROR ∨ s.jcState j = jsRESILVER then
    let s := (s.outstanding j).foldl (fun s a => s.ackAppend j a) s
    (s.setLabel j (fun l => { l with relseq := (s.reg .jcRel).toNat })).jcFail j 9
  else s

/-- The entry that a copy to slot j takes next from a cartridge. -/
def nextToCopy (c : Cart) (r : JSlot) : Option RingEnt :=
  c.ents.foldl (fun (b : Option RingEnt) e =>
    if r.copyNext ≤ e.seq ∧ e.seq < r.copyEnd then
      match b with
      | none => some e
      | some x => if e.seq < x.seq then some e else some x
    else b) none

/-- The entry that the copy to slot j takes next, and none when there is no source or nothing is left. -/
def State.copyEntry (s : State) (j : Nat) : Option RingEnt :=
  match tfind s.carts (1 - j) with
  | some m => if s.jcState (1 - j) = jsMIRROR then nextToCopy m (s.jrun j) else none
  | none => none

/-- RESILVER (R477): the copy to slot j moves on by one entry, at the offset where the entry stands, reading no faster than
CFG.RESRATE. -/
def execResilver (j : Nat) (s : State) : Host.Outcome State Fault Refusal :=
  if 2 ≤ j then .refused .illFormed
  else if s.jcState j ≠ jsRESILVER then .next s
  else
    match tfind s.carts j, s.copyEntry j with
    | some c, some e =>
      let s := s.advanceTo (s.now + e.bytes.length * 10 / Nat.max 1 (s.rf .jcCfg jcCfg_RESRATE))
      .next { s with carts := tset s.carts j { c with ents := c.ents.filter (fun x => decide (x.seq ≠ e.seq)) ++ [e]
                                                      written := c.written + e.bytes.length }
                     jslot := tset s.jslot j { s.jrun j with copyNext := e.seq + 1 } }
    | _, _ => .next s

/-- RESILVER_COMPLETE (R477): nothing is left to copy to slot j, which becomes MIRROR; source 144 + 16j + 3. -/
def execResilverComplete (j : Nat) (s : State) : Host.Outcome State Fault Refusal :=
  if 2 ≤ j then .refused .illFormed
  else if s.jcState j ≠ jsRESILVER ∨ s.jcState (1 - j) ≠ jsMIRROR ∨ (s.copyEntry j).isSome = true
      ∨ (tfind s.carts j).isNone = true then .next s
  else .next ((s.jcMirror j).report (144 + 16 * j + 3)).jcUpdate

/-- A write of JC.REL.RELSEQ (R485): a value below the current one is ignored, one above DURSEQ acts as DURSEQ. -/
def State.jcRelseq (s : State) (old v : Word) : State :=
  let d := s.reg .jcDur
  let x := if d.toNat < v.toNat then d else v
  (s.setReg .jcRel (if x.toNat < old.toNat then old else x)).jcUpdate

/-! ## Read-out -/

/-- An entry as the read-out writes it (R474): opened when its tag verifies. -/
def State.openEntryBytes (s : State) (e : RingEnt) : List Byte :=
  let n := e.bytes.length
  let head := e.bytes.take 16
  let salt := ofBytes (((e.bytes.drop 12).take 4).map BitVec.toNat)
  match Config.gcmOpen s.jcKey (jcNonce salt e.seq) head (e.bytes.drop 16) with
  | some pt => head ++ fitBytes (n - 32) pt ++ List.replicate 16 0
  | none => head ++ List.replicate (n - 32) 0 ++ e.bytes.drop (n - 16)

/-- The entries of a list in SEQ order, by insertion. -/
def insertEnt (e : RingEnt) : List RingEnt → List RingEnt
  | [] => [e]
  | x :: xs => if e.seq ≤ x.seq then e :: x :: xs else x :: insertEnt e xs

/-- The entries of the ring from SEQ on, in order. -/
def cartFrom (c : Cart) (seq : Nat) : List RingEnt :=
  (c.ents.filter (fun e => decide (seq ≤ e.seq))).foldr insertEnt []

/-- Entries written to the buffer, count at most, until its end: RESULT and the state (R474). -/
def State.readOut (s : State) (a stop : Nat) : Nat → List RingEnt → Nat × State
  | _, [] => (0, s)
  | 0, _ => (0, s)
  | count + 1, e :: es =>
    if stop < a + e.bytes.length then (1, s)
    else
      let bs := (s.openEntryBytes e).map BitVec.toNat
      let s := (s.masterWriteBytes mJC 0 a bs (bs.length / 64 + 2)).2
      s.readOut (a + bs.length) stop count es

/-- A write of JC.RDCTL.GO (R474): made while BUSY is 0, it starts a read-out. -/
def State.jcGo (s : State) : State :=
  if s.rf .jcRdctl jcRdctl_BUSY = 1 then s else s.setRf .jcRdctl jcRdctl_BUSY 1

/-- READ_OUT_COMPLETE (R474): the read-out runs from a slot in MIRROR and ends; source 154. -/
def execReadOutComplete (s : State) : Host.Outcome State Fault Refusal :=
  if s.rf .jcRdctl jcRdctl_BUSY = 0 then .next s
  else
    let seq := (s.reg .jcRdseq).toNat
    let a := fld (s.reg .jcRdbuf) 43 12 * 4096
    let stop := a + s.rf .jcRdctl jcRdctl_KIB * 1024
    let (r, s) := match (s.slotsIn jsMIRROR).filterMap (fun j => tfind s.carts j) with
      | [] => (3, s)
      | c :: _ =>
        if c.ents.any (fun e => decide (e.seq = seq)) then s.readOut a stop (s.rf .jcRdctl jcRdctl_COUNT) (cartFrom c seq)
        else (2, s)
    .next (((s.setRf .jcRdctl jcRdctl_BUSY 0).setRf .jcRdctl jcRdctl_RESULT r).report 154)

end Sys2Proof.Machine
end

