-- ==== Sys2Proof/Machine/Ing.lean ====
section
/-! DEFINITION. Ingress: lanes and their rings, landing, the format cache, the parser, the field record and the dispatch rules
("Ingress, parsing, dispatch and commit", R407-R426, R440, R441). -/

namespace Sys2Proof.Machine

open Sys2Proof

/-! ## Lanes -/

/-- A frame of a lane ends before it holds a slot: a notice with the outcome, source 4l, and the count of LSTAT.ERR (R439). -/
def State.endLane (s : State) (l outcome tag : Nat) : State :=
  let s := s.satRf (.ingLstat l) ingLstat_ERR 1
  { s with egr := s.egr ++ [(⟨l, none, 0, outcome, tag, 0, 0, tag⟩ : Resp)] }.report (4 * l)

/-- Descriptors of the ring of lane l (R408). -/
def State.laneRing (s : State) (l : Nat) : Nat := 2 ^ (s.rf (.ingLring l) ingLring_SIZE + 4)

/-- HEAD and TAIL of lane l, modulo the ring. -/
def State.laneHead (s : State) (l : Nat) : Nat := s.rf (.ingLptr l) ingLptr_HEAD % s.laneRing l
def State.laneTail (s : State) (l : Nat) : Nat := s.rf (.ingLptr l) ingLptr_TAIL % s.laneRing l

/-- HEAD of lane l advances. -/
def State.laneAdvance (s : State) (l : Nat) : State := s.setRf (.ingLptr l) ingLptr_HEAD ((s.laneHead l + 1) % s.laneRing l)

/-- Function f may ring lane l (R410). -/
def State.mayRing (s : State) (f l : Nat) : Bool :=
  decide (s.rf (.hostFn f) hostFn_EN = 1) && bit (s.rf (.hostFn f) hostFn_LANES) l
    && decide (s.rf (.ingLcfg l) ingLcfg_SRC = 0) && decide (s.rf (.ingLcfg l) ingLcfg_FUNC = f)

/-- LANE_DOORBELL (R410): function f writes v at offset 0x1000 + 8l of its BAR0. -/
def execLaneDoorbell (f l : Nat) (v : Word) (s : State) : Host.Outcome State Fault Refusal :=
  if 16 ≤ f ∨ 16 ≤ l then .refused .illFormed
  else if !s.hostUp then .next s
  else if s.mayRing f l then .next (s.setRf (.ingLptr l) ingLptr_TAIL (fld v 11 0 % s.laneRing l))
  else .next (s.report (545 + 2 * f))

/-- Words of 8 bytes, little-endian. -/
def wordsLE (bs : List Nat) (n : Nat) : List Nat := (List.range n).map (fun i => ofBytes ((bs.drop (8 * i)).take 8))

/-- The zero fields of a ring descriptor (R408). -/
def ringZeros (ws : List Nat) : Bool :=
  let w0 := ws.getD 0 0
  let w1 := ws.getD 1 0
  decide (bits w0 62 44 = 0) && decide (bits w0 5 0 = 0) && decide (bits w1 63 25 = 0) && decide (bits w1 15 13 = 0)
    && (ws.drop 3).all (fun w => decide (w = 0))

/-- RING_DESCRIPTOR_READ (R409): lane l reads the descriptor at HEAD; a failed one ends the frame, and HEAD passes it. -/
def execRingDescriptorRead (l : Nat) (s : State) : Host.Outcome State Fault Refusal :=
  if 16 ≤ l then .refused .illFormed
  else if s.ingOn = false ∨ s.rf (.ingLcfg l) ingLcfg_EN = 0 ∨ s.rf (.ingLcfg l) ingLcfg_SRC = 1 ∨ (tfind s.lanes l).isSome = true
      ∨ s.laneHead l = s.laneTail l then .next s
  else
    let a := fld (s.reg (.ingLring l)) 43 6 * 64 + 64 * s.laneHead l
    let (bs, ok, s) := s.masterReadBytes mING 0 a 64 2
    let ws := wordsLE bs 8
    let w0 := ws.getD 0 0
    let w1 := ws.getD 1 0
    let tag := ws.getD 2 0
    let len := bits w1 12 0
    if !ok || !(bit w0 63) || !(ringZeros ws) then .next (((s.endLane l 7 tag).report (4 * l + 1)).laneAdvance l)
    else if len = 0 ∨ 4096 < len then .next (((s.endLane l 6 tag).report (4 * l + 1)).laneAdvance l)
    else
      let fmt := if bit w1 24 then bits w1 23 16 else s.rf (.ingLcfg l) ingLcfg_DEFFMT
      .next { s with lanes := tset s.lanes l ⟨a, w0, bits w0 43 6 * 64, len, fmt, tag, s.now⟩ }

/-- The free frame slots. -/
def State.freeSlots (s : State) : List Nat := (List.range 4096).filter (fun i => !(s.slots.contains i))

/-- The physical address of frame slot i (R411). -/
def State.slotPa (s : State) (i : Nat) : Nat := s.rf .ingImem ingImem_BASE * 2 ^ 26 + i * 0x4000

/-- A frame lands in a free slot; which one is not stated: a free value chooses (R409, R412). -/
def State.land (s : State) (l tag fmt : Nat) (bs : List Nat) : State :=
  let (v, s) := s.draw
  let free := s.freeSlots
  let slot := free.getD (v % Nat.max 1 free.length) 0
  let s := { s with slots := s.slots ++ [slot] }
  let s := (s.masterWriteBytes mING 0 (s.slotPa slot) bs (bs.length / 64 + 2)).2
  let s := s.addRf (.ingLstat l) ingLstat_FRAMES 1
  { s with parseQ := s.parseQ ++ [(⟨l, slot, tag, s.now, fmt, bs⟩ : PFrame)] }

/-- FRAME_LANDING (R409 steps 3 to 5): the frame of lane l is read and lands; OWN = 0 is written back, and HEAD advances. -/
def execFrameLanding (l : Nat) (s : State) : Host.Outcome State Fault Refusal :=
  if 16 ≤ l then .refused .illFormed
  else
    match tfind s.lanes l with
    | none => .next s
    | some j =>
      if s.ingOn = false ∨ s.freeSlots.isEmpty = true then .next s
      else
        let s := { s with lanes := tdel s.lanes l }
        let (bs, ok, s) := s.masterReadBytes mING 0 j.addr j.len (j.len / 64 + 2)
        if !ok then .next (((s.endLane l 7 j.tag).report (4 * l + 1)).laneAdvance l)
        else
          let s := s.land l j.tag j.fmt bs
          let s := (s.masterWriteBytes mING 0 j.desc (toBytes (j.word0 % 2 ^ 63) 8) 2).2
          .next (s.laneAdvance l)

/-- LANE_STALL (R409): lane l has waited 1 ms for a free slot. -/
def execLaneStall (l : Nat) (s : State) : Host.Outcome State Fault Refusal :=
  if 16 ≤ l then .refused .illFormed
  else
    match tfind s.lanes l with
    | none => .next s
    | some j =>
      if s.freeSlots.isEmpty = false then .next s
      else .next ((s.advanceTo (j.since + 1000000)).report (4 * l + 3))

/-! ## Formats -/

/-- The fields of a descriptor (R414). -/
def dOP (w : Nat) : Nat := bits w 63 58
def dCOND (w : Nat) : Nat := bits w 57 50
def dENC (w : Nat) : Nat := bits w 49 48
def dUNIT (w : Nat) : Bool := bit w 47
def dPFX (w : Nat) : Nat := bits w 46 44
def dKEY (w : Nat) : Bool := bit w 43
def dKSLOT (w : Nat) : Nat := bits w 42 40
def dLEN (w : Nat) : Nat := bits w 36 24
def dARG (w : Nat) : Nat := bits w 23 0

/-- The OP codes. -/
def opFIX : Nat := 1
def opVAR : Nat := 2
def opBITMAP : Nat := 3
def opTLV : Nat := 4
def opTAG : Nat := 5

/-- Descriptor i of a format, the earlier ones being given, is valid (R414, R417). -/
def descOk (ds : List Nat) (i w : Nat) : Bool :=
  let op := dOP w
  decide (1 ≤ op) && decide (op ≤ 5) && decide (dCOND w ≤ 192) && decide (bits w 39 37 = 0)
    && (if op = opVAR then decide (dENC w ≤ 2) else if op = opBITMAP then decide (dENC w ≤ 1) else decide (dENC w = 0))
    && (if op = opVAR then decide (1 ≤ dPFX w) && decide (dPFX w ≤ 3) else decide (dPFX w = 0))
    && (if op = opFIX then decide (1 ≤ dLEN w) && decide (dLEN w ≤ 4096) else if op = opVAR then true else decide (dLEN w = 0))
    && (if op = opTLV then
          decide (bits w 7 0 < i) && (let o := dOP (ds.getD (bits w 7 0) 0)
            decide (o = opFIX) || decide (o = opVAR) || decide (o = opTAG))
        else if op = opTAG then decide (0 < i) && (let o := dOP (ds.getD (i - 1) 0); decide (o = opTLV) || decide (o = opTAG))
        else decide (dARG w = 0))

/-- The words of a format pass the checks of R417: N, V and the header, the descriptors, the zero words, one BITMAP at most. -/
def formatOk (ws : List Nat) : Bool :=
  let h := ws.getD 0 0
  let n := bits h 7 0
  let ds := (ws.drop 1).take n
  bit h 8 && decide (1 ≤ n) && decide (n ≤ 192) && decide (h >>> 9 = 0) && (ws.drop (n + 1)).all (fun w => decide (w = 0))
    && ds.zipIdx.all (fun e => descOk ds e.2 e.1)
    && decide ((ds.filter (fun w => decide (dOP w = opBITMAP))).length ≤ 1)

/-- A format of a bank is fetched and checked (R413, R417): it becomes resident, the least recently used leaving, or is
rejected until the next bank switch, which alone lets it be fetched again. DESIGN CHOICE, unsafe: R422 leaves open what a frame
parsed while its bank is being edited sees; it sees the copy made resident, or else the whole format as memory holds it in this step. -/
def State.fetchFormat (s : State) (bank f : Nat) : State :=
  if s.fbad.contains f then s
  else
  let a := fld (s.reg (.ingFbase bank)) 43 19 * 2 ^ 19 + 0x800 * f
  let (bs, ok, s) := s.masterReadBytes mING 0 a 0x800 33
  let ws := wordsLE bs 256
  if ok && formatOk ws then
    { s with fcache := ((f, (ws.drop 1).take (bits (ws.getD 0 0) 7 0)) :: s.fcache.filter (fun e => decide (e.1 ≠ f))).take 64 }
  else { s with fcache := s.fcache.filter (fun e => decide (e.1 ≠ f)), fbad := f :: s.fbad }

/-- The value last written to an S-class field that has not taken effect, or the one in force. -/
def State.lastWritten (s : State) (r : Reg) (f : Fd) : Nat :=
  match s.shadow.find? (fun e => decide (e.1 = r) && decide (e.2.1 = f.lo)) with
  | some (_, _, v) => v
  | none => s.rf r f

/-- The frame at the head of the parse stage begins: a change of FACT takes effect and empties the format cache (R421). -/
def State.parseBegin (s : State) : State :=
  match s.pbank with
  | some _ => s
  | none =>
    let old := s.rf .ingBank ingBank_FACT
    let new := s.lastWritten .ingBank ingBank_FACT
    let s := { s with shadow := s.shadow.filter (fun e => !(decide (e.1 = Reg.ingBank) && decide (e.2.1 = ingBank_FACT.lo))) }
    let s := s.setRf .ingBank ingBank_FACT new
    let s := if new = old then s else { s with fcache := [], fbad := [] }
    { s with pbank := some new }

/-- FORMAT_FETCH (R417, R420): the format of the frame at the head of the parse stage is not resident and is fetched. -/
def execFormatFetch (s : State) : Host.Outcome State Fault Refusal :=
  match s.parseQ with
  | [] => .next s
  | p :: _ =>
    let s' := s.parseBegin
    if s'.ingOn = false ∨ (s'.fcache.any (fun e => decide (e.1 = p.fmt))) = true ∨ s'.fbad.contains p.fmt = true then
      .next s
    else
      let s := s'.fetchFormat (s'.pbank.getD 0) p.fmt
      .next (if s.fbad.contains p.fmt then s else s.report (4 * p.lane + 2))

/-! ## The parser -/

/-- The bytes of a frame at an offset. -/
def fbyte (f : List Nat) (i : Nat) : Nat := f.getD i 0

/-- A big-endian number of n bytes at an offset. -/
def fbig (f : List Nat) (o : Nat) : Nat → Nat
  | 0 => 0
  | n + 1 => fbig f o n * 256 + fbyte f (o + n)

/-- A decimal number of n ASCII digits at an offset (R414). -/
def fascii (f : List Nat) (o : Nat) : Nat → Option Nat
  | 0 => some 0
  | n + 1 =>
    let c := fbyte f (o + n)
    match fascii f o n with
    | some v => if 0x30 ≤ c ∧ c ≤ 0x39 then some (v * 10 + (c - 0x30)) else none
    | none => none

/-- A decimal number of n packed-BCD bytes at an offset. -/
def fbcd (f : List Nat) (o : Nat) : Nat → Option Nat
  | 0 => some 0
  | n + 1 =>
    let c := fbyte f (o + n)
    match fbcd f o n with
    | some v => if c / 16 < 10 ∧ c % 16 < 10 then some (v * 100 + c / 16 * 10 + c % 16) else none
    | none => none

/-- The value of an ASCII hex character. -/
def hexOf (c : Nat) : Option Nat :=
  if 0x30 ≤ c ∧ c ≤ 0x39 then some (c - 0x30)
  else if 0x41 ≤ c ∧ c ≤ 0x46 then some (c - 0x41 + 10)
  else if 0x61 ≤ c ∧ c ≤ 0x66 then some (c - 0x61 + 10)
  else none

/-- A number of n ASCII hex characters at an offset. -/
def fhex (f : List Nat) (o : Nat) : Nat → Option Nat
  | 0 => some 0
  | n + 1 =>
    match fhex f o n, hexOf (fbyte f (o + n)) with
    | some v, some d => some (v * 16 + d)
    | _, _ => none

/-- The elements of a scope [o, stop): tag, offset and length of each value; none on a parse error (R415, R416). -/
def elements (f : List Nat) (stop : Nat) : Nat → Nat → Option (List (Nat × Nat × Nat))
  | 0, _ => some []
  | fuel + 1, o =>
    if stop ≤ o then some []
    else if fbyte f o = 0 then elements f stop fuel (o + 1)
    else
      let b0 := fbyte f o
      let b1 := fbyte f (o + 1)
      let b2 := fbyte f (o + 2)
      let tagLen : Option (Nat × Nat) :=
        if b0 % 32 ≠ 31 then some (b0, 1)
        else if stop ≤ o + 1 then none
        else if b1 < 0x80 then some (b0 * 256 + b1, 2)
        else if stop ≤ o + 2 then none
        else if b2 < 0x80 then some (b0 * 65536 + b1 * 256 + b2, 3)
        else none
      match tagLen with
      | none => none
      | some (tag, n) =>
        let q := o + n
        let l0 := fbyte f q
        let lenForm : Option (Nat × Nat) :=
          if stop ≤ q then none
          else if l0 < 0x80 then some (l0, 1)
          else if l0 = 0x81 then some (fbyte f (q + 1), 2)
          else if l0 = 0x82 then some (fbig f (q + 1) 2, 3)
          else none
        match lenForm with
        | none => none
        | some (len, m) =>
          if stop < q + m + len then none
          else (elements f stop fuel (q + m + len)).map (fun r => (tag, q + m, len) :: r)

/-- An entry of the field record (R419). -/
structure PEntry where
  st    : Nat
  len   : Nat
  units : Nat
  off   : Nat
  deriving DecidableEq, Repr

/-- The entry of an absent descriptor. -/
def PEntry.absent : PEntry := ⟨0, 0, 0, 0⟩

/-- The word of an entry. -/
def PEntry.word (e : PEntry) : Nat := e.st * 2 ^ 62 + e.len % 2 ^ 13 * 2 ^ 32 + e.units % 2 ^ 13 * 2 ^ 16 + e.off % 2 ^ 13

/-- The parser's state: the cursor, the presence map (bit n in bit n - 1), the keys, the entries so far, the scope of the last
TLV (none: absent), and the index of a failing descriptor. -/
structure PState where
  cur   : Nat
  pres  : Nat
  keys  : List Nat
  keyp  : Nat
  ents  : List PEntry
  scope : Option (List (Nat × Nat × Nat))
  err   : Option Nat
  deriving DecidableEq, Repr

/-- The parser before the first descriptor. -/
def PState.start : PState := ⟨0, 0, List.replicate 8 0, 0, [], none, none⟩

/-- A key word: the first 8 bytes of the content, big-endian from bit 63, padded with zeros (R415). -/
def keyOfField (f : List Nat) (off len : Nat) : Nat :=
  (List.range 8).foldl (fun v i => v * 256 + (if i < len then fbyte f (off + i) else 0)) 0

/-- A descriptor found its field: the entry, the key it fills, the cursor. -/
def PState.found (p : PState) (f : List Nat) (w : Nat) (e : PEntry) (cur : Nat) : PState :=
  let p := { p with ents := p.ents ++ [e], cur := cur }
  if dKEY w then
    { p with keys := p.keys.set (dKSLOT w) (keyOfField f e.off e.len), keyp := Nat.lor p.keyp (2 ^ dKSLOT w) }
  else p

/-- A parse error at descriptor i (R416). -/
def PState.fail (p : PState) (i : Nat) : PState := { p with ents := p.ents ++ [⟨2, 0, 0, 0⟩], err := some i }

/-- The presence bits of one 64-bit part of a bitmap at an offset, the most significant bit being the lowest-numbered. -/
def bitmapPart (f : List Nat) (hex : Bool) (o : Nat) : Option Nat :=
  let v := if hex then fhex f o 16 else some (fbig f o 8)
  v.map (fun x => (List.range 64).foldl (fun m i => if x.testBit (63 - i) then m + 2 ^ i else m) 0)

/-- The parts of a bitmap from part k on: the presence map and the offset after it; none on an error. -/
def bitmapParts (f : List Nat) (hex : Bool) (part : Nat) : Nat → Nat → Nat → Option (Nat × Nat)
  | 0, o, pres => some (pres, o)
  | more + 1, o, pres =>
    let n := if hex then 16 else 8
    if f.length < o + n then none
    else
      match bitmapPart f hex o with
      | none => none
      | some m =>
        let pres := pres + m * 2 ^ (64 * part)
        if m.testBit 0 then bitmapParts f hex (part + 1) more (o + n) pres else some (pres, o + n)

/-- The units of a VAR prefix (R414, R415). -/
def prefixUnits (f : List Nat) (w o : Nat) : Option Nat :=
  if dENC w = 0 then some (fbig f o (dPFX w)) else if dENC w = 1 then fascii f o (dPFX w) else fbcd f o (dPFX w)

/-- One descriptor (R415, R416). -/
def parseOne (f : List Nat) (p : PState) (i w : Nat) : PState :=
  let op := dOP w
  let absent : PState := { p with ents := p.ents ++ [PEntry.absent] }
  if p.err.isSome then absent
  else if dCOND w ≠ 0 && !(p.pres.testBit (dCOND w - 1)) then (if op = opTLV then { absent with scope := none } else absent)
  else if op = opFIX then
    let n := if dUNIT w then (dLEN w + 1) / 2 else dLEN w
    if f.length < p.cur + n then p.fail i else p.found f w ⟨1, n, dLEN w, p.cur⟩ (p.cur + n)
  else if op = opVAR then
    if f.length < p.cur + dPFX w then p.fail i
    else
      match prefixUnits f w p.cur with
      | none => p.fail i
      | some u =>
        let n := if dUNIT w then (u + 1) / 2 else u
        let o := p.cur + dPFX w
        if u = 0 ∨ dLEN w < u ∨ f.length < o + n then p.fail i else p.found f w ⟨1, n, u, o⟩ (o + n)
  else if op = opBITMAP then
    let hex := decide (dENC w = 1)
    match bitmapParts f hex 0 3 p.cur 0 with
    | none => p.fail i
    | some (pres, o) =>
      let n := o - p.cur
      let units := if hex then n * 4 else n * 8
      { p with pres := pres }.found f w ⟨1, n, units, p.cur⟩ o
  else if op = opTLV then
    let e := p.ents.getD (bits w 7 0) PEntry.absent
    if e.st ≠ 1 then { absent with scope := none }
    else
      match elements f (e.off + e.len) (e.len + 1) e.off with
      | none => p.fail i
      | some els => { p with scope := some els }.found f w ⟨1, e.len, els.length, e.off⟩ p.cur
  else
    match p.scope with
    | none => absent
    | some els =>
      match els.find? (fun e => decide (e.1 = dARG w)) with
      | none => absent
      | some (_, o, n) => p.found f w ⟨1, n, n, o⟩ p.cur

/-- Every descriptor of a format in order. -/
def parseAll (f : List Nat) (p : PState) (i : Nat) : List Nat → PState
  | [] => p
  | w :: ws => parseAll f (parseOne f p i w) (i + 1) ws

/-- Bytes in TLV scopes of a parsed frame (R418). -/
def tlvBytes (ds : List Nat) (p : PState) : Nat :=
  ((ds.zip p.ents).filter (fun e => decide (dOP e.1 = opTLV) && decide (e.2.st = 1))).foldl (fun n e => n + e.2.len) 0

/-- Parser cycles of a frame's parse (R418): two, and one for every 4 bytes that the cursor passes and every 4 bytes of the TLV scopes. -/
def parseCycles (ds : List Nat) (p : PState) : Nat := 2 + (p.cur + 3) / 4 + (tlvBytes ds p + 3) / 4

/-- Nanoseconds of that many parser cycles, at 1.25 GHz ("Clock domains"), rounded up. -/
def parserNs (cycles : Nat) : Nat := (4 * cycles + 4) / 5

/-- The field record of a parsed frame (R419). -/
def fieldRecord (fmt bank lane : Nat) (f : List Nat) (p : PState) : List Nat :=
  let w0 := fmt % 256 + p.ents.length % 256 * 2 ^ 8 + f.length % 2 ^ 13 * 2 ^ 16 + lane % 16 * 2 ^ 32 + bank % 2 * 2 ^ 36
    + b2n p.err.isSome * 2 ^ 37 + p.err.getD 0 % 256 * 2 ^ 40 + p.keyp % 256 * 2 ^ 48
  [w0, p.pres % 2 ^ 64, p.pres / 2 ^ 64 % 2 ^ 64, p.pres / 2 ^ 128 % 2 ^ 64, 0, 0, 0, 0] ++ p.keys ++ p.ents.map PEntry.word

/-! ## Dispatch rules -/

/-- The index of rule i of format f in a bank (R423). -/
def ruleIx (bank f i : Nat) : Nat := 4096 * bank + 16 * f + i

/-- A rule matches the keys (R424). -/
def State.ruleMatches (s : State) (r : Nat) (keys : List Nat) : Bool :=
  let w := s.reg (.ingRuleW0 r)
  let key := fun (i : Nat) => word (keys.getD i 0)
  flag w 0 && decide (key (fld w 3 1) &&& s.reg (.ingRuleMaska r) = s.reg (.ingRuleVala r))
    && decide (key (fld w 6 4) &&& s.reg (.ingRuleMaskb r) = s.reg (.ingRuleValb r))

/-- A change of RACT takes effect for the next frame to begin rule matching (R421). -/
def State.ruleBegin (s : State) : State :=
  let new := s.lastWritten .ingBank ingBank_RACT
  let s := { s with shadow := s.shadow.filter (fun e => !(decide (e.1 = Reg.ingBank) && decide (e.2.1 = ingBank_RACT.lo))) }
  s.setRf .ingBank ingBank_RACT new

/-- A parsed frame is matched and enters its class queue, or ends NO_RULE (R424, R425); in DEGRADED a class below DEGPRIO takes
no new frame (R574). A queue is in landing order. -/
def State.matchRule (s : State) (q : PFrame) (p : PState) (reclen : Nat) : State :=
  let s := s.ruleBegin
  let bank := s.rf .ingBank ingBank_RACT
  let f : Frame := { lane := q.lane, slot := q.slot, flen := q.bytes.length, tag := q.tag, landed := q.landed, src := q.tag,
                     pasid := 0, fmt := q.fmt, reclen := reclen, keys := p.keys, rule := 0, cls := 0, ka := 0, kb := 0, desc := 0,
                     deadline := 2 ^ 64 - 1, attempt := 0, lastPair := none }
  match (List.range 16).find? (fun i => s.ruleMatches (ruleIx bank q.fmt i) p.keys) with
  | none => s.endFrame f 5
  | some i =>
    let w := s.reg (.ingRuleW0 (ruleIx bank q.fmt i))
    let cls := fld w 13 8
    let c := s.reg (.ingClass cls)
    if flag c 0 = false ∨ (s.mode = 4 ∧ fld c 10 8 < s.degPrio) then s.endFrame f 5
    else
      let dl := fld w 31 16
      let f := { f with
        rule := 16 * q.fmt + i, cls := cls, ka := fld w 3 1, kb := fld w 6 4
        desc := fld (s.reg (.ingRuleDesc (ruleIx bank q.fmt i))) 63 7 * 128
        deadline := if dl = 0 then 2 ^ 64 - 1 else q.landed + dl * 1000 }
      { s with queues := tset s.queues cls (tget s.queues cls [] ++ [f]) }

/-- PARSE (R415-R425): the parser executes the descriptors of its first frame's format in the cycles of R418, which begin with the step,
writes the field record into the slot, and the rules are matched; the frame of a rejected format ends NO_FORMAT. -/
def execParse (s : State) : Host.Outcome State Fault Refusal :=
  match s.parseQ with
  | [] => .next s
  | q :: rest =>
    if s.ingOn = false then .next s
    else
      let s := s.parseBegin
      let bank := s.pbank.getD 0
      if s.fbad.contains q.fmt then
        let f : Frame := { lane := q.lane, slot := q.slot, flen := q.bytes.length, tag := q.tag, landed := q.landed, src := q.tag,
                           pasid := 0, fmt := q.fmt, reclen := 0, keys := [], rule := 0, cls := 0, ka := 0, kb := 0, desc := 0,
                           deadline := 0, attempt := 0, lastPair := none }
        .next ({ s with parseQ := rest, pbank := none }.endFrame f 4)
      else
        match s.fcache.find? (fun e => decide (e.1 = q.fmt)) with
        | none => .next s
        | some (_, ds) =>
          let p := parseAll q.bytes PState.start 0 ds
          let rec' := fieldRecord q.fmt bank q.lane q.bytes p
          let bs := rec'.flatMap (fun w => toBytes w 8)
          let s := { s with parseQ := rest, pbank := none
                            fcache := (q.fmt, ds) :: s.fcache.filter (fun e => decide (e.1 ≠ q.fmt)) }
          let s := s.advanceTo (s.now + parserNs (parseCycles ds p))
          let s := (s.masterWriteBytes mING 0 (s.slotPa q.slot + 0x1000) bs (bs.length / 64 + 2)).2
          .next (s.matchRule q p bs.length)

/-! ## Deadlines of redispatch and idleness -/

/-- A frame of lane l is in flight: landing, in the parser, queued or served. -/
def State.laneBusy (s : State) (l : Nat) : Bool :=
  (tfind s.lanes l).isSome || s.parseQ.any (fun p => decide (p.lane = l))
    || s.queues.any (fun e => e.2.any (fun f => decide (f.lane = l)))
    || s.egr.any (fun r => decide (r.lane = l))
    || s.cores.any (fun e => [e.2.c0, e.2.c1].any (fun x => match x.tx.frame with
      | some f => decide (f.lane = l)
      | none => false))

/-- A handler of class q runs. -/
def State.classRuns (s : State) (q : Nat) : Bool :=
  s.cores.any (fun e => [e.2.c0, e.2.c1].any (fun x => match x.tx.frame with
    | some f => decide (f.cls = q)
    | none => false))

end Sys2Proof.Machine
end

