-- ==== Sys2Proof/Machine/Egr.lean ====
section
/-! DEFINITION. Egress: the release of responses and notices into completion rings and onto the fabric ("Journal cartridges and
egress", R482-R484; "The Cordillera fabric and the estate", R524). -/

namespace Sys2Proof.Machine

open Sys2Proof

/-- The rule of R483: a response is released once its ticket is durable, a notice at once (its wait is 0). -/
def State.respReady (s : State) (r : Resp) : Bool := decide (r.wait ≤ (s.reg .jcDur).toNat)

/-- The response writes no descriptor: length 0, and not a notice (R483). -/
def Resp.silent (r : Resp) : Bool := decide (r.outcome = 0) && decide (r.len = 0)

/-- Removes the first response equal to r. -/
def State.egrDrop (s : State) (r : Resp) : State := { s with egr := s.egr.erase r }

/-- The frame slot of a response is freed (R412). -/
def State.egrFree (s : State) (r : Resp) : State :=
  match r.slot with
  | none => s
  | some i => { s with slots := s.slots.filter (fun x => decide (x ≠ i)) }

/-- Descriptors of the completion ring of lane l. -/
def State.compRing (s : State) (l : Nat) : Nat := 2 ^ (s.rf (.egrCring l) egrCring_SIZE + 4)
def State.compHead (s : State) (l : Nat) : Nat := s.rf (.egrCptr l) egrCptr_HEAD % s.compRing l
def State.compTail (s : State) (l : Nat) : Nat := s.rf (.egrCptr l) egrCptr_TAIL % s.compRing l

/-- HEAD of the completion ring of lane l advances. -/
def State.compAdvance (s : State) (l : Nat) : State := s.setRf (.egrCptr l) egrCptr_HEAD ((s.compHead l + 1) % s.compRing l)

/-- The bytes of a response, zeros standing for denied ones, and whether none was denied (R484). -/
def State.respBytes (s : State) (r : Resp) : List Nat × Bool × State :=
  match r.slot with
  | none => ([], true, s)
  | some i => s.masterReadBytes mEGR 0 (s.slotPa i + 0x2000) r.len (r.len / 64 + 2)

/-- FRESP packets of a response (R524): up to 2,048 bytes each, MORE in every one but the last; a notice has no payload. -/
def State.frespAll (s : State) (r : Resp) : Nat → List Nat → State
  | 0, _ => s
  | fuel + 1, bs =>
    let here := bs.take 2048
    let rest := bs.drop 2048
    let p := s.mkPkt pkFRESP (bits r.src 9 0) (bits r.src 31 16) (r.outcome % 16 + (if rest.isEmpty then 0 else 2 ^ 15)) 0
      (here.map (BitVec.ofNat 8)) (List.replicate ((here.length + 7) / 8) tINT)
    let s := (s.send p).2
    if rest.isEmpty then s else s.frespAll r fuel rest

/-- The zero fields of a completion descriptor (R482). -/
def compZeros (ws : List Nat) : Bool :=
  decide (bits (ws.getD 0 0) 62 44 = 0) && decide (bits (ws.getD 0 0) 11 0 = 0) && decide (bits (ws.getD 1 0) 63 20 = 0)
    && decide (bits (ws.getD 1 0) 15 13 = 0) && (ws.drop 4).all (fun w => decide (w = 0))

/-- A response or notice of host lane l completes the descriptor at HEAD (R484). -/
def State.complete64 (s : State) (l : Nat) (r : Resp) : State :=
  let a := fld (s.reg (.egrCring l)) 43 6 * 64 + 64 * s.compHead l
  let (bs, ok, s) := s.masterReadBytes mEGR 0 a 64 2
  let ws := wordsLE bs 8
  let w0 := ws.getD 0 0
  if !ok || !(bit w0 63) || !(compZeros ws) then (s.report (65 + 2 * l)).compAdvance l
  else
    let (data, whole, s) := s.respBytes r
    let s := (s.masterWriteBytes mEGR 0 (bits w0 43 12 * 4096) data (data.length / 64 + 2)).2
    let words := toBytes (r.len % 2 ^ 13 + r.outcome % 16 * 2 ^ 16) 8 ++ toBytes r.tag 8 ++ toBytes r.seq 8
    let s := (s.masterWriteBytes mEGR 0 (a + 8) words 2).2
    let s := (s.masterWriteBytes mEGR 0 a (toBytes (w0 % 2 ^ 63) 8) 2).2
    let s := if whole then s else s.report (65 + 2 * l)
    let s := ((s.egrDrop r).egrFree r).addRf (.egrCstat l) egrCstat_DONE 1
    (s.report (64 + 2 * l)).compAdvance l

/-- The first response of lane l that may be released. -/
def State.nextResp (s : State) (l : Nat) : Option Resp := s.egr.find? (fun r => decide (r.lane = l) && s.respReady r)

/-- The lane answers on the fabric. -/
def State.fabricLane (s : State) (l : Nat) : Bool := decide (s.rf (.ingLcfg l) ingLcfg_SRC = 1)

/-- RESPONSE_RELEASE (R483, R484): egress releases the first response of lane l that may go. -/
def execResponseRelease (l : Nat) (s : State) : Host.Outcome State Fault Refusal :=
  if 16 ≤ l then .refused .illFormed
  else if s.ingOn = false then .next s
  else
    match s.nextResp l with
    | none => .next s
    | some r =>
      if s.fabricLane l then
        let (data, _, s) := s.respBytes r
        .next (((s.frespAll r 3 data).egrDrop r).egrFree r)
      else if r.silent then .next ((s.egrDrop r).egrFree r)
      else if s.compHead l = s.compTail l then .next s
      else .next (s.complete64 l r)

/-- RESPONSE_BUFFER_WAIT (R484): a response of lane l has waited 1 ms for a posted buffer. -/
def execResponseBufferWait (l : Nat) (s : State) : Host.Outcome State Fault Refusal :=
  if 16 ≤ l then .refused .illFormed
  else
    match s.nextResp l with
    | none => .next s
    | some r =>
      if s.ingOn = false ∨ s.fabricLane l = true ∨ r.silent = true ∨ s.compHead l ≠ s.compTail l then
        .next s
      else .next ((s.advanceTo (s.now + 1000000)).report (65 + 2 * l))

/-- POST_BUFFER (R484): function f writes v at offset 0x1080 + 8l of its BAR0, under the conditions of R410. -/
def execPostBuffer (f l : Nat) (v : Word) (s : State) : Host.Outcome State Fault Refusal :=
  if 16 ≤ f ∨ 16 ≤ l then .refused .illFormed
  else if !s.hostUp then .next s
  else if s.mayRing f l then .next (s.setRf (.egrCptr l) egrCptr_TAIL (fld v 11 0 % s.compRing l))
  else .next (s.report (545 + 2 * f))

end Sys2Proof.Machine
end

