-- ==== Sys2Proof/Machine/Modes.lean ====
section
/-! DEFINITION. The operating modes, DEGRADED, tamper and LOCKDOWN, and the denials of debug accesses that count toward it ("The
structure image and operating modes", R568-R580; R372-R375). -/

namespace Sys2Proof.Machine

open Sys2Proof

/-! ## Modes (R568) -/

def mdSELFTEST : Nat := 0
def mdCONFIGURE : Nat := 1
def mdSERVICE : Nat := 2
def mdRECONFIG : Nat := 3
def mdDEGRADED : Nat := 4
def mdLOCKDOWN : Nat := 5

/-- The mode changes; each change reports source 576, and REASON and RECOVERY are clear in the new mode. -/
def State.setMode (s : State) (m : Nat) : State :=
  if s.mode = m then s
  else ((s.setReg .sysMode (word m))).report 576

/-- DEP.STAT.DEGR: bit i here is reason 16 + i of R574. -/
def State.degr (s : State) : Nat := s.rf .depStat depStat_DEGR

/-- Between SERVICE and DEGRADED the device is in DEGRADED exactly while DEGR is non-zero (R574). -/
def State.degrMode (s : State) : State :=
  if s.mode = mdSERVICE ∧ s.degr ≠ 0 then s.setMode mdDEGRADED
  else if s.mode = mdDEGRADED ∧ s.degr = 0 then s.setMode mdSERVICE
  else s

/-- DEGR takes a value; each change reports source 588, and the mode follows. -/
def State.setDegr (s : State) (v : Nat) : State :=
  if s.degr = v then s else ((s.setRf .depStat depStat_DEGR v).report 588).degrMode

/-- One bit of DEGR takes a value. -/
def State.setDegrBit (s : State) (i : Nat) (b : Bool) : State := s.setDegr (setBits s.degr i i (b2n b))

/-- The memory reason (bit 18): more pseudo-channels RETIRED than the floor, or one FENCED (R397). -/
def State.degrMemory (s : State) : State :=
  s.setDegrBit 2 (decide (s.cfg.memFloor < s.rf .memCap memCap_RETIRED) || decide (s.rf .memCap memCap_FENCED ≠ 0))

/-- A unit is retired: DEP keeps its RETIRED record in the always-on domain, appends it to the retirement log, and the event is
reported (R530, R539). -/
def State.retireMark (s : State) (sc ix : Nat) : State :=
  ({ s with
    retired := s.retired.filter (fun e => decide (e ≠ (sc, ix))) ++ [(sc, ix)]
    retLog := if s.retLog.length < 256 ∧ s.retLog.contains (sc, ix) = false then s.retLog ++ [(sc, ix)] else s.retLog }).raise
    sc ix 0x48 0 0

/-- A unit has been retired. -/
def State.isRetired (s : State) (sc ix : Nat) : Bool := s.retired.contains (sc, ix)

/-! ## LOCKDOWN (R575, R576) -/

/-- The zeroisation of R461: every key of the engine and of the device is lost, and every command ends without status. -/
def State.zeroise (s : State) : State :=
  ({ s with devKey := List.replicate 32 0, keys := [], kq := [], kdone := [], kbusy := [], drbgN := [] }).report 140

/-- Work in flight is lost: frames, held responses, records, requests and packets. -/
def State.dropWork (s : State) : State :=
  { s with lanes := [], parseQ := [], pbank := none, queues := [], slots := [], egr := [], sealing := [], staged := [], xq := []
           xout := [], xlost := [], rpLost := [], posted := [], tx := [], loop := [], cbuf := [], echoes := []
           fab := FabRun.start }

/-- Every core whose state is not that of reset is reset and held. -/
def State.holdCores (s : State) : State :=
  (s.cores.map (fun e => e.1)).foldl (fun s n =>
    let s := s.resetCoreState n
    s.setCore n { s.core n with held := true }) s

/-- Every fabric link goes DOWN and both cartridge ports are held in reset. -/
def State.dropLinks (s : State) : State :=
  let s := (List.range 12).foldl (fun s l => s.setRf (.cdlLstat l) cdlLstat_STATE lsDOWN) s
  [0, 1].foldl (fun s j => s.jcSet j jsABSENT 0) s

/-- A tamper cause puts the device in LOCKDOWN at once (R576): what has happened by 50 µs. -/
def State.lockdown (s : State) (cause input : Nat) : State :=
  if s.mode = mdLOCKDOWN then s
  else
    let s := s.zeroise
    let s := (s.setRf .sysLdrec sysLdrec_CAUSE cause).setRf .sysLdrec sysLdrec_INPUT input
    let s := s.setMode mdLOCKDOWN
    let s := s.dropWork.holdCores.dropLinks
    { s with ldClear := some s.now, ldFuse := some s.now, pinLockdown := true }

/-- TAMPERSCORE rises by one (R373): at half of the threshold source 578 is reported, and the denial that reaches the threshold
puts the device in LOCKDOWN, from CONFIGURE on (R575). -/
def State.tamperScore (s : State) : State :=
  let thresh := s.rf .sysTamper sysTamper_THRESH
  let old := s.rf .sysTamper sysTamper_SCORE
  let s := s.satRf .sysTamper sysTamper_SCORE 1
  let new := s.rf .sysTamper sysTamper_SCORE
  let s := if 2 * old < thresh ∧ thresh ≤ 2 * new then s.report 578 else s
  if old < thresh ∧ thresh ≤ new ∧ s.mode ≠ mdSELFTEST then s.lockdown 6 0 else s

/-- One denial of a debug access (R373). -/
def State.dbgDeny (s : State) (write : Bool) (a : Nat) : State :=
  let s := (s.raise 10 mDBG 0x39 0 a).report 592
  let s := s.satRf .dbgDenylog dbgDenylog_COUNT 1
  let s := (s.setRf .dbgDenylog dbgDenylog_W (b2n write)).setRf .dbgDenylog dbgDenylog_ADDR a
  s.tamperScore

/-- The identification and diagnostic registers of R578: SYS, DEP.STAT, the DEP records and AGE.DOM. -/
def diagReg : Reg → Bool
  | .depStat | .depRec _ | .depFirst _ | .depLast _ | .depDetail _ | .ageDom _ => true
  | r => decide (r.block = 0)

/-- Only the diagnostic registers answer, and every write is ignored (R578): in LOCKDOWN and in a fatal SELFTEST. -/
def State.sealedShut (s : State) : Bool :=
  decide (s.mode = mdLOCKDOWN) || (decide (s.mode = mdSELFTEST) && decide (s.rf .sysMode sysMode_REASON ≠ 0))

/-! ## The commands -/

/-- TAMPER_CAUSE (R575): cause 1 on input k, which must be armed, or another of the always-on domain's causes 2 to 5. For cause 4
k = 1 tells a temperature above 125 °C, with which THERMTRIP_N goes low (R622), from one below −25 °C. -/
def execTamperCause (cause k : Nat) (s : State) : Host.Outcome State Fault Refusal :=
  if cause = 0 ∨ 5 < cause ∨ 8 ≤ k ∨ (cause = 4 ∧ 1 < k) ∨ (cause ≠ 1 ∧ cause ≠ 4 ∧ k ≠ 0) then .refused .illFormed
  else if s.porLow = true ∨ (cause = 1 ∧ bit (s.rf .sysTamper sysTamper_ARMED) k = false) then .next s
  else
    let s := s.lockdown cause (if cause = 1 then k else 0)
    .next (if cause = 4 ∧ k = 1 then { s with pinThermtrip := true } else s)

/-- LOCKDOWN_CLEAR (R576): by 100 ms DRAM, the TCMs and the system cache hold UNINIT with zero data. -/
def execLockdownClear (s : State) : Host.Outcome State Fault Refusal :=
  match s.ldClear with
  | none => .next s
  | some t => .next ({ s with mem := Mem.empty, tcms := [], ldClear := none }.advanceTo (t + 100000000))

/-- LDCOUNT_PROGRAM (R576): by 2 s the fuse SYS.LDREC.LDCOUNT is programmed, saturating at 15. -/
def execLdcountProgram (s : State) : Host.Outcome State Fault Refusal :=
  match s.ldFuse with
  | none => .next s
  | some t => .next (({ s with ldFuse := none }.satRf .sysLdrec sysLdrec_LDCOUNT 1).advanceTo (t + 2000000000))

end Sys2Proof.Machine
end

