-- ==== Sys2Proof/Machine/Stacks.lean ====
section
/-! DEFINITION. The pseudo-channel controllers of block MEM: correction, poison, scrubbing, sparing, calibration and retirement
("Stacked memory and placement", R384-R398). -/

namespace Sys2Proof.Machine

open Sys2Proof

/-! ## Who holds a line (R393, R394) -/

/-- The pseudo-channel that holds a slot of pseudo-channel pc: itself, or one of those its retirement dealt the slot to. -/
def State.holder (s : State) (pc slot : Nat) : Nat :=
  match tfind s.region pc with
  | none => pc
  | some (_, hs) =>
    if s.pcState pc = pcRETIRED ∨ (s.pcState pc = pcDRAINING ∧ slot < s.rf (.memPcstat pc) memPcstat_COPY) then
      hs.getD (slot % hs.length) pc
    else pc

/-- The pseudo-channel that holds the line at a DRAM address. -/
def State.holderOf (s : State) (a : Nat) : Nat :=
  let (pc, slot, _, _) := home a
  s.holder pc slot

/-- A W1C bit of MEM.PCSTAT is set; source 272 + pc is reported when it changes from 0 to 1. -/
def State.pcFlag (s : State) (pc : Nat) (f : Fd) : State :=
  if s.rf (.memPcstat pc) f = 1 then s else (s.setRf (.memPcstat pc) f 1).report (272 + pc)

/-- The row of a line: its pseudo-channel and number. -/
def State.rowAt (s : State) (a : Nat) : Nat × Nat :=
  let (_, slot, line, _) := home a
  (s.holderOf a, Config.rowOf (slot * 256 + line))

/-- A row is to be spared. -/
def State.markRow (s : State) (r : Nat × Nat) : State :=
  if s.rowBad.contains r then s else { s with rowBad := s.rowBad ++ [r] }

/-! ## A line as DRAM stores it (R67, R104, R385, R386) -/

/-- The eight words of a line, little-endian. -/
def lineBytes (m : Mem) (l : Nat) : List Byte := (List.range 64).map (fun i => m.byte (l + i))

/-- Bits 31:0 of a line's sidecar: the tag of word i in bits [4i + 3:4i] (R67). -/
def sidecarTags (m : Mem) (l : Nat) : Nat := ((List.range 8).map (fun i => m.tag (l + 8 * i) % 16 * 16 ^ i)).sum

/-- The 64 bytes that DRAM stores for a line: in the sealed region its AES-XTS ciphertext, one data unit whose tweak is the line's physical
address divided by 64; elsewhere its data (R104). -/
def State.storedData (s : State) (l : Nat) : List Byte :=
  if s.inSealed l then Config.xtsEnc s.devKey (l / 64) (lineBytes s.mem l) else lineBytes s.mem l

/-- Bits 47:0 of a line's sidecar: XTS, FIXED and TAGS (R385). -/
def State.sidecarLow (s : State) (l : Nat) : Nat :=
  b2n (s.inSealed l) * 2 ^ 33 + b2n (s.fixed.contains l) * 2 ^ 32 + sidecarTags s.mem l

/-- The 16-byte sidecar of a line (R385): CODE, ten check symbols over the stored form of the line, above its other bits (R386). -/
def State.sidecar (s : State) (l : Nat) : Nat :=
  let code := Config.rsCheck (s.storedData l ++ (toBytes (s.sidecarLow l) 6).map (BitVec.ofNat 8))
  ofBytes ((List.range 10).map (fun i => (code.getD i 0).toNat)) * 2 ^ 48 + s.sidecarLow l

/-- What the code makes of a line that is read with a number of wrong symbols among its 80 (R386). -/
inductive Coded where
  | good
  | corrected
  | detected
  deriving DecidableEq, Repr

/-- An error confined to 4 symbols is corrected, one confined to 6 is detected; of a wider one a free value says whether the code detects it
or takes it for an error that it corrects. -/
def codeFinds (wrong free : Nat) : Coded :=
  if wrong = 0 then .good
  else if wrong ≤ 4 then .corrected
  else if wrong ≤ 6 ∨ free % 2 = 0 then .detected
  else .corrected

/-! ## Errors (R387, R388) -/

/-- A line read with a correctable error (R387): it is delivered corrected and written back with FIXED, unless a requester's
write reaches it first; sixteen corrected errors within 1 ms ask for a retraining (R391), and the fourth in a row within one
scrub pass for a sparing (R390). -/
def State.ceFound (s : State) (a : Nat) (dropped : Bool) : State :=
  let pc := s.holderOf a
  let s := if dropped then s else { s with fixed := s.fixed.filter (fun l => decide (l ≠ lineOf a)) ++ [lineOf a] }
  let s := (((s.addRf (.memErrcnt pc) memErrcnt_CE 1).pcFlag pc memPcstat_CE)).raise 2 pc 0x01 0 (lineOf a)
  let times := (tget s.ceAt pc []).filter (fun t => decide (s.now < t + 1000000)) ++ [s.now]
  let s := { s with ceAt := tset s.ceAt pc times }
  let c := tget s.cal pc ⟨false, false, 0, 0⟩
  let s := if 16 ≤ times.length then { s with cal := tset s.cal pc { c with asked := true } } else s
  let r := s.rowAt a
  let n := tget s.rowFix r 0 + 1
  let s := { s with rowFix := tset s.rowFix r n }
  if n = 4 then s.markRow r else s

/-- A line read with an uncorrectable error (R388): every word becomes POISON with zero data, and the row is to be spared. -/
def State.ueFound (s : State) (a : Nat) : State :=
  let pc := s.holderOf a
  let l := lineOf a
  let s := { s with mem := (List.range 8).foldl (fun (m : Mem) i => m.setWord (l + 8 * i) 0 tPOISON) s.mem
                    fixed := s.fixed.filter (fun x => decide (x ≠ l)) }
  let s := ((s.satRf (.memErrcnt pc) memErrcnt_UE 1).pcFlag pc memPcstat_UE).raise 2 pc 0x02 0 l
  s.markRow (s.rowAt a)

/-- CE_WRITEBACK (R387): a line of DRAM is read with a correctable error; dropped tells that a requester's write reached the line
before the write-back. -/
def execCeWriteback (a : Nat) (dropped : Bool) (s : State) : Host.Outcome State Fault Refusal :=
  if !(backedDram a) then .refused .illFormed
  else if s.mode = mdLOCKDOWN ∨ s.porLow = true then .next s
  else .next (s.ceFound a dropped)

/-! ## Scrubbing (R389) -/

/-- How many slots of a retired pseudo-channel were dealt to pc. -/
def dealtCount (hs : List Nat) (pc : Nat) : Nat :=
  ((List.range hs.length).map (fun j =>
    if hs.getD j 0 = pc then (if j < pcSlots % hs.length then pcSlots / hs.length + 1 else pcSlots / hs.length) else 0)).sum

/-- The address of line i that pc holds: its own slots in order, then those dealt to it, region by region. -/
def dealtLine (pc i : Nat) : List (Nat × (Nat × List Nat)) → Option Nat
  | [] => none
  | (q, (_, hs)) :: rest =>
    let n := dealtCount hs pc * 256
    if i < n then
      let j := hs.findIdx (fun h => decide (h = pc))
      some (lineAt q ((i / 256 * hs.length + j) * 256 + i % 256))
    else dealtLine pc (i - n) rest

/-- The regions whose copies are complete. -/
def State.doneRegions (s : State) : List (Nat × (Nat × List Nat)) :=
  s.region.filter (fun e => decide (s.pcState e.1 = pcRETIRED))

/-- The address of line i that pc holds, in slot order; none after the last. -/
def State.heldLine (s : State) (pc i : Nat) : Option Nat :=
  if i < pcSlots * 256 then some (lineAt pc i) else dealtLine pc (i - pcSlots * 256) s.doneRegions

/-- A line whose wide error the code has taken for one that it corrects holds other data: free values. -/
def State.miscorrect (s : State) (a : Nat) : State :=
  let (v, s) := s.draw
  { s with mem := (List.range 8).foldl (fun (m : Mem) i =>
      m.setWord (lineOf a + 8 * i) (Config.freeNat (v + i) % 2 ^ 64) (m.tag (lineOf a + 8 * i))) s.mem }

/-- SCRUB_READ (R386, R389): the controller reads the next line in slot order, with a number of wrong symbols. A pass that ends starts the next, the boundary of SCRUBH. A line that is POISON already counts nothing
(R388). -/
def execScrubRead (pc wrong : Nat) (s : State) : Host.Outcome State Fault Refusal :=
  if 128 ≤ pc ∨ 80 < wrong then .refused .illFormed
  else if s.mode = mdLOCKDOWN ∨ s.porLow = true ∨ s.pcState pc = pcRETIRED then .next s
  else
    let i := tget s.scrubAt pc 0
    let a := (s.heldLine pc i).getD 0
    let (v, s) := if 6 < wrong then s.draw else (0, s)
    let s := match codeFinds wrong v with
      | .good => s
      | .corrected => (if 6 < wrong then s.miscorrect a else s).ceFound a false
      | .detected => s.ueFound a
    match s.heldLine pc (i + 1) with
    | some _ => .next { s with scrubAt := tset s.scrubAt pc (i + 1) }
    | none =>
      .next ({ s with scrubAt := tset s.scrubAt pc 0
                      rowFix := s.rowFix.filter (fun e => decide (e.1.1 ≠ pc)) }.boundary (.memPcctl pc))

/-- ROW_SPARING (R390): a row marked for it is copied into a spare row and redirected. -/
def execRowSparing (pc row : Nat) (s : State) : Host.Outcome State Fault Refusal :=
  if 128 ≤ pc then .refused .illFormed
  else
    let left := s.rf (.memErrcnt pc) memErrcnt_SPARES
    if s.rowBad.contains (pc, row) = false ∨ left = 0 ∨ s.mode = mdLOCKDOWN then .next s
    else
      let s := { s with rowBad := s.rowBad.filter (fun r => decide (r ≠ (pc, row))), rowFix := tdel s.rowFix (pc, row) }
      let s := (s.setRf (.memErrcnt pc) memErrcnt_SPARES (left - 1)).setRf .memCap memCap_SPARES (s.rf .memCap memCap_SPARES - 1)
      let s := (s.pcFlag pc memPcstat_SPARED).raise 2 pc 0x03 0 0
      .next (if left = 1 then (s.pcFlag pc memPcstat_SPAREOUT).raise 2 pc 0x04 0 0 else s)

/-! ## Calibration (R391, R392) -/

/-- The calibration of a pseudo-channel. -/
def State.calOf (s : State) (pc : Nat) : CalRun := tget s.cal pc ⟨false, false, 0, 0⟩

/-- The temperature of a stack's PHY domain in °C. -/
def State.stackTemp (s : State) (pc : Nat) : Int := signExtend (s.rf (.pwrDom (64 + pc / 32)) pwrDom_TEMP) 8

/-- The period of MEM.PCCTL.CALPER in nanoseconds; none: temperature only. -/
def State.calPeriod (s : State) (pc : Nat) : Option Nat :=
  match s.rf (.memPcctl pc) memPcctl_CALPER with
  | 1 => some 10000000
  | 2 => some 100000000
  | 3 => some 1000000000
  | 4 => some 10000000000
  | _ => none

/-- A retraining is asked for (R391): by CALNOW. -/
def State.calNow (s : State) (pc : Nat) : State := { s with cal := tset s.cal pc { s.calOf pc with asked := true } }

/-- RETRAINING (R391, R392): one step of a retraining; end 0 leaves it running, 1 ends it with a passing setting, 2 without one. A
retraining starts when it was asked for, when the stack's temperature has moved 5 °C, or when the period ends. -/
def execRetraining (pc fin : Nat) (s : State) : Host.Outcome State Fault Refusal :=
  if 128 ≤ pc ∨ 2 < fin then .refused .illFormed
  else if s.pcState pc = pcRETIRED ∨ s.mode = mdLOCKDOWN ∨ s.porLow = true then .next s
  else
    let c := s.calOf pc
    let moved := decide (5 ≤ (s.stackTemp pc - signExtend c.temp 8).natAbs)
    let start := if c.active || c.asked || moved then some s else (s.calPeriod pc).map (fun p => s.advanceTo (c.last + p))
    match start with
    | none => .next s
    | some s =>
      let (v, s) := s.draw
      let s := s.setRf (.memPcstat pc) memPcstat_CALPM (v % 21)
      let ended : CalRun := ⟨false, false, s.now, s.rf (.pwrDom (64 + pc / 32)) pwrDom_TEMP⟩
      if fin = 0 then .next { s with cal := tset s.cal pc { c with active := true, asked := false } }
      else
        let s := { s with cal := tset s.cal pc ended }
        .next (if fin = 2 then (s.pcFlag pc memPcstat_CALFAIL).raise 2 pc 0x05 0 0 else s)

/-! ## Retirement (R393-R397) -/

/-- The lowest-numbered free retirement region. -/
def State.freeRegion (s : State) : Option Nat :=
  (List.range 4).find? (fun r => !(s.region.any (fun e => decide (e.2.1 = r))))

/-- Retirement of a pseudo-channel in SERVICE starts (R394): DRAINING into a region dealt among those in SERVICE, or FENCED. -/
def State.retirePc (s : State) (pc : Nat) : State :=
  if s.pcState pc ≠ pcSERVICE then s
  else
    match s.freeRegion with
    | none =>
      ((s.setRf (.memPcstat pc) memPcstat_STATE pcFENCED).satRf .memCap memCap_FENCED 1).degrMemory
    | some r =>
      let s := (s.setRf (.memPcstat pc) memPcstat_STATE pcDRAINING).setRf (.memPcstat pc) memPcstat_COPY 0
      let s := { s with region := tset s.region pc (r, s.pcsInService) }
      let s := (s.setRf .memCap memCap_REGFREE (s.rf .memCap memCap_REGFREE - 1)).setRf .memCap memCap_INSVC
        (s.rf .memCap memCap_INSVC - 1)
      s.retireMark 2 pc

/-- DRAINING_COPY (R395): the slot at the copy pointer is copied as stored. -/
def execDrainingCopy (pc : Nat) (s : State) : Host.Outcome State Fault Refusal :=
  if 128 ≤ pc then .refused .illFormed
  else if s.pcState pc ≠ pcDRAINING ∨ pcSlots ≤ s.rf (.memPcstat pc) memPcstat_COPY ∨ s.mode = mdLOCKDOWN then
    .next s
  else .next (s.satRf (.memPcstat pc) memPcstat_COPY 1)

/-- RETDONE (R395): every slot is copied; the pseudo-channel is RETIRED. -/
def execRetdone (pc : Nat) (s : State) : Host.Outcome State Fault Refusal :=
  if 128 ≤ pc then .refused .illFormed
  else if s.pcState pc ≠ pcDRAINING ∨ s.rf (.memPcstat pc) memPcstat_COPY < pcSlots ∨ s.mode = mdLOCKDOWN then
    .next s
  else
    let s := (s.setRf (.memPcstat pc) memPcstat_STATE pcRETIRED).satRf .memCap memCap_RETIRED 1
    let s := (s.setRf (.memPcstat pc) memPcstat_RETDONE 1).report (272 + pc)
    .next s.degrMemory

end Sys2Proof.Machine
end

