-- ==== Sys2Proof/Machine/Ple.lean ====
section
/-! DEFINITION. The placement engine's frame pools, its moves and the decay of heat ("Stacked memory and placement", R399-R405;
"Translation and protection keys", R351-R354). -/

namespace Sys2Proof.Machine

open Sys2Proof

/-! ## Pools (R402, R404) -/

/-- The frames of the pool of a stack. -/
def State.pool (s : State) (st : Nat) : List Nat := tget s.pools st []

/-- The pool of a stack changes; source 528 + st is reported when COUNT falls below LOW. -/
def State.setPool (s : State) (st : Nat) (fs : List Nat) : State :=
  let low := s.rf (.plePool st) plePool_LOW
  let old := (s.pool st).length
  let s := { s with pools := tset s.pools st fs }.setRf (.plePool st) plePool_COUNT fs.length
  if low ≤ old ∧ fs.length < low then s.report (528 + st) else s

/-- A frame is in some pool. -/
def State.pooled (s : State) (f : Nat) : Bool := (s.pool (pcOfFrame f / 32)).contains f

/-- The entry of a frame, as the engine reads it. -/
def State.entryOf (s : State) (f : Nat) : IptEntry := readIpt s.mem (s.tableBase + 32 * f)

/-- GIVE is rejected (R402). -/
def State.giveBad (s : State) (f : Nat) : Bool :=
  let st := pcOfFrame f / 32
  decide (s.tableN ≤ f) || s.inSealed (f * 2 ^ 14) || (s.entryOf f).v || s.pooled f
    || decide (4096 ≤ (s.pool st).length) || decide (s.pcState (pcOfFrame f) = pcFENCED)

/-- A write of f to PLE.GIVE: true when it is rejected, which source 533 and REJECT count and CFG_REJECT reports (R402, R405). -/
def State.give (s : State) (f : Nat) : Bool × State :=
  if s.giveBad f then (true, (s.satRf .pleStat pleStat_REJECT 1).report 533)
  else
    let st := pcOfFrame f / 32
    (false, s.setPool st (s.pool st ++ [f]))

/-- A read of PLE.TAKE[st] removes one frame, which a free value chooses: its index + 1, or 0. -/
def State.take (s : State) (st : Nat) : Nat × State :=
  let fs := s.pool st
  if fs.isEmpty then (0, s)
  else
    let (v, s) := s.draw
    let f := fs.getD (v % fs.length) 0
    (f + 1, s.setPool st (fs.erase f))

/-- A read of PLE.OVF removes the oldest frame of the overflow queue: the word read. -/
def State.takeOvf (s : State) : Nat × State :=
  match s.ovf with
  | [] => (0, s)
  | f :: fs => (s.ovf.length * 2 ^ 32 + f + 1, { s with ovf := fs })

/-- A frame is cleared to UNINIT, as CLEARTAG would. -/
def State.clearFrame (s : State) (f : Nat) : State :=
  let a := f * 2 ^ 14
  let s := { s with mem := (List.range 2048).foldl (fun (m : Mem) i => m.writeWord (a + 8 * i) 0 tUNINIT) s.mem }
  (List.range 256).foldl (fun s i => s.lineWritten .dram (a + 64 * i) none) s

/-- A cleared frame joins the pool of its stack, or PLE.OVF when that is full. -/
def State.poolFrame (s : State) (f : Nat) : State :=
  let st := pcOfFrame f / 32
  if (s.pool st).length < 4096 then s.setPool st (s.pool st ++ [f])
  else ({ s with ovf := s.ovf ++ [f] }).report 533

/-! ## Moves (R353, R401, R403) -/

/-- PLE.OVF has no room for what freeing frames would spill out of the pools of their stacks (R402). -/
def State.ovfBars (s : State) (fs : List Nat) : Bool :=
  let spill := (List.range 4).map (fun st =>
    (s.pool st).length + (fs.filter (fun f => decide (pcOfFrame f / 32 = st))).length - 4096)
  decide (64 ≤ s.ovf.length) || decide (64 < s.ovf.length + spill.sum)

/-- A pool frame may be a destination: its pseudo-channel is in SERVICE. -/
def State.eligible (s : State) (g : Nat) : Bool := decide (s.pcState (pcOfFrame g) = pcSERVICE)

/-- The load of a stack. -/
def State.stackLoad (s : State) (st : Nat) : Nat := ((List.range 32).map (fun i => s.pcLoad (32 * st + i))).sum

/-- The pool frames that a move of frame f may take (R401, R396): an affinity move, a balance move, or the move out of a FENCED
pseudo-channel. -/
def State.destinations (s : State) (f : Nat) (kind : Option Bool) : List Nat :=
  let die := dieOfStack (pcOfFrame f / 32)
  let all := (List.range 4).flatMap s.pool
  let fs := match kind with
    | some true =>
      let a := 2 * (1 - die)
      s.pool (if s.stackLoad (a + 1) < s.stackLoad a then a + 1 else a)
    | some false =>
      let ps := s.pcsInService.filter (fun p => decide (dieOfStack (p / 32) = die))
      let least := ps.foldl (fun (b : Option Nat) p => match b with
        | none => some p
        | some q => if s.pcLoad p < s.pcLoad q then some p else some q) none
      all.filter (fun g => decide (some (pcOfFrame g) = least))
    | none => all
  fs.filter s.eligible

/-- The frames of a frame's group: the group of its hint, or the frame alone (R341). -/
def State.groupOf (s : State) (f : Nat) : List Nat :=
  let e := s.entryOf f
  let n := 2 ^ e.contig
  if e.contig ≠ 0 ∧ f % n = e.vpn % n then (List.range n).map (fun i => f - f % n + i) else [f]

/-- The bucket of the page in a frame. -/
def State.bucketOf (s : State) (f : Nat) : Nat :=
  let e := s.entryOf f
  iptHash s.tableSeed s.tableN e.space e.vpn

/-- Writes word w of entry i, as the engine does. -/
def State.setEntry (s : State) (i w v : Nat) : State := s.putWord .dram (s.tableBase + 32 * i + 8 * w) v tINT none

/-- Sets or clears LK of a bucket (R351). -/
def State.setLk (s : State) (h : Nat) (b : Bool) : State := s.setEntry h 2 (setBits (s.entryOf h).w2 63 63 (b2n b))

/-- Sets or clears MV of the entry of a frame. -/
def State.setMv (s : State) (f : Nat) (b : Bool) : State := s.setEntry f 0 (setBits (s.entryOf f).w0 45 45 (b2n b))

/-- Removes the translation of a page from every TLB of the device. -/
def State.tlbDropEvery (s : State) (space : Bool) (vpn : Nat) : State :=
  s.tlbDropWhere (fun _ => true) (fun e => e.hits space vpn)

/-- Removes the translations of every page of a plot from every TLB of the device (R330). -/
def State.tlbDropPlot (s : State) (plot : Nat) : State :=
  s.tlbDropWhere (fun _ => true) (fun e => !e.space && decide (e.vpn / 128 = plot))

/-- Every store already translated is written: the store buffers empty. -/
def State.drainAll (s : State) : State := (s.cores.map (fun e => e.1)).foldl (fun s n => s.drain n) s

/-- A commit buffer holds a line of the frame (step 4). -/
def State.frameBuffered (s : State) (f : Nat) : Bool :=
  s.cbuf.any (fun e => e.2.any (fun c => match c with
    | .line _ t l _ _ => decide (t = .dram) && decide (l / 2 ^ 14 = f)
    | _ => false))

/-- Copies the data and tags of frame f to g, unchanged (R69). -/
def State.copyFrame (s : State) (f g : Nat) : State :=
  let s := { s with mem := (List.range 2048).foldl (fun (m : Mem) i =>
    let a := f * 2 ^ 14 + 8 * i
    m.setWord (g * 2 ^ 14 + 8 * i) (m.word a) (m.tag a)) s.mem }
  (List.range 256).foldl (fun s i =>
    (s.lineWritten .dram (f * 2 ^ 14 + 64 * i) none).lineWritten .dram (g * 2 ^ 14 + 64 * i) none) s

/-- Rewrites, in the chain that pointer p begins, the NEXT that names f + 1 to name g. -/
def State.repointFrom (s : State) (f g : Nat) : Nat → Nat → State
  | 0, _ => s
  | n + 1, p =>
    if p = 0 then s
    else
      let e := s.entryOf (p - 1)
      if e.next = f + 1 then s.setEntry (p - 1) 1 (setBits e.w1 22 0 g) else s.repointFrom f g n e.next

/-- Rewrites the pointer of bucket h's chain that names f + 1 to name g (step 7): the anchor, or the NEXT of an entry of the
chain. -/
def State.repoint (s : State) (h f g : Nat) : State :=
  if (s.entryOf h).anchor = f + 1 then s.setEntry h 2 (setBits (s.entryOf h).w2 22 0 g)
  else s.repointFrom f g 17 (s.entryOf h).anchor

/-- Steps 5 to 8 of R353 for one page. -/
def State.movePage (s : State) (f g : Nat) : State :=
  let h := s.bucketOf f
  let s := s.copyFrame f g
  let e := s.entryOf f
  let s := ((s.setEntry g 0 (setBits e.w0 45 45 0)).setEntry g 1 e.w1).setEntry g 3 e.w3
  let s := s.repoint h f (g + 1)
  ((s.setEntry f 0 0).setEntry f 1 0).setEntry f 3 0

/-- The accesses of a move from frames fs to frames gs that are checked as PLE, line by line (R355, R366): the entries are read and
written, every line of a source frame is read, written at its destination, and cleared. -/
def State.pleAccesses (s : State) (fs gs : List Nat) : List (Bool × Nat) :=
  let frame := fun (f : Nat) => linesFrom (f * 2 ^ 14) (2 ^ 14)
  (fs ++ gs).flatMap (fun f => [(false, s.tableBase + 32 * f), (true, s.tableBase + 32 * f)])
    ++ fs.flatMap (fun f => (frame f).map (fun a => (false, a))) ++ gs.flatMap (fun g => (frame g).map (fun a => (true, a)))
    ++ fs.flatMap (fun f => (frame f).map (fun a => (true, a)))

/-- A move of the group of frame f to frames from g on (R353): abandoned when a commit buffer holds a line of a frame. -/
def State.moveGroup (s : State) (f g : Nat) : State :=
  let fs := s.groupOf f
  let d := fs.headD f
  let gs := fs.map (fun x => g - g % fs.length + (x - d))
  let pages := fs.map (fun x => ((s.entryOf x).space, (s.entryOf x).vpn))
  let hs := (fs.map s.bucketOf).dedup
  if hs.any (fun h => (s.entryOf h).lk) then s
  else
    let s := hs.foldl (fun s h => s.setLk h true) s
    let s := fs.foldl (fun s x => s.setMv x true) s
    let s := (pages.foldl (fun s p => s.tlbDropEvery p.1 p.2) s).drainAll
    if fs.any s.frameBuffered then
      let s := fs.foldl (fun s x => s.setMv x false) s
      let s := hs.foldl (fun s h => s.setLk h false) s
      (s.satRf .pleStat pleStat_ABANDON 1).report 532
    else
      let s := gs.foldl (fun s x => s.setPool (pcOfFrame x / 32) ((s.pool (pcOfFrame x / 32)).erase x)) s
      let s := (List.zip fs gs).foldl (fun s p => s.movePage p.1 p.2) s
      let s := hs.foldl (fun s h => s.setLk h false) s
      let s := fs.foldl (fun s x => (s.clearFrame x).poolFrame x) s
      s.addRf .pleStat pleStat_MOVES 1

/-- The engine passes over the page in f (step 2): pinned, in the sealed region, not valid, moving already, beyond the table, or not
the source of a move in its pseudo-channel. -/
def State.passOver (s : State) (f : Nat) (fenced : Bool) : Bool :=
  (s.groupOf f).any (fun x =>
    let e := s.entryOf x
    decide (s.tableN ≤ x) || e.pin || s.inSealed (x * 2 ^ 14) || !e.v || e.mv
      || decide (s.pcState (pcOfFrame x) ≠ (if fenced then pcFENCED else pcSERVICE)))

/-- The destinations whose whole group is pooled and eligible, placed as the source's group is. -/
def State.groupDests (s : State) (f : Nat) (kind : Option Bool) : List Nat :=
  let n := (s.groupOf f).length
  (s.destinations f kind).filter (fun g =>
    decide (g % n = f % n) && (List.range n).all (fun i => s.pooled (g - g % n + i) && s.eligible (g - g % n + i)))

/-- PLACEMENT_MOVE (R353, R401-R403): the move that the evaluation of frame f called for, or a move out of a FENCED
pseudo-channel; a free value chooses among the pool frames that fit, and the page is passed over when there is none. -/
def execPlacementMove (f : Nat) (s : State) : Host.Outcome State Fault Refusal :=
  let kind := s.pleCand.find? (fun e => decide (e.1 = f))
  let fenced := kind.isNone && decide (s.pcState (pcOfFrame f) = pcFENCED)
  let recent := s.moveAt.filter (fun t => decide (s.now < t + 1000000000))
  if (kind.isNone && !fenced) || decide (0x600000 ≤ f) || decide (s.rf .pleCtl pleCtl_EN = 0) || s.serving = false
      || decide (s.rf .pleCtl pleCtl_RATE ≤ recent.length) || s.ovfBars (s.groupOf f) then
    .next s
  else
    let s := { s with pleCand := s.pleCand.filter (fun e => decide (e.1 ≠ f)), moveAt := recent ++ [s.now] }
    let ds := s.groupDests f (kind.map (fun e => e.2))
    if s.passOver f fenced || ds.isEmpty then .next s
    else
      let (v, s) := s.draw
      let g := ds.getD (v % ds.length) 0
      let gs := (s.groupOf f).map (fun x => g - g % (s.groupOf f).length + (x - (s.groupOf f).headD f))
      let (ok, s) := s.ridgeAll mPLE (s.pleAccesses (s.groupOf f) gs)
      .next (if ok then s.moveGroup f g else s)

/-! ## Decay (R399, R517) -/

/-- HEAT_DECAY (R399): every DECAY period each heat field is halved, and so are the counts of R517; a field that comes to a
multiple of 16 has its frame evaluated, and so RT its plot. -/
def execHeatDecay (s : State) : Host.Outcome State Fault Refusal :=
  if s.serving = false then .next s
  else
    let t := s.heatAt + s.cfg.decay * 1000000
    let s := s.advanceTo t
    let old := s.heat
    let stats := s.plotStat
    let s := { s with
      heatAt := s.now
      heat := (old.map (fun e => (e.1, (e.2.1 / 2, e.2.2 / 2)))).filter (fun e => decide (e.2 ≠ (0, 0)))
      plotStat := stats.map (fun e => (e.1, { e.2 with l := e.2.l / 2, cnt := e.2.cnt.map (fun c => (c.1, c.2 / 2)) })) }
    let s := old.foldl (fun s e =>
      let hit := fun (x : Nat) => decide (x / 2 ≠ x) && decide (x / 2 % 16 = 0)
      if hit e.2.1 || hit e.2.2 then s.considerFrame e.1 else s) s
    .next (stats.foldl (fun s e => if e.2.rt / 2 ≠ e.2.rt then s.considerPlot e.1 else s) s)

end Sys2Proof.Machine
end

