-- ==== Sys2Proof/Machine/Links.lean ====
section
/-! DEFINITION. The links of the fabric: training, admission, keys, silence and failure, and the notices that follow ("The Cordillera
fabric and the estate", R486-R493, R520-R523). -/

namespace Sys2Proof.Machine

open Sys2Proof

/-! ## States of a link (R487) -/

/-- A link takes a state; source 176 + 8l is reported when it changes. -/
def State.setLinkState (s : State) (l st : Nat) : State :=
  if s.linkState l = st then s else (s.setRf (.cdlLstat l) cdlLstat_STATE st).linkReport l 0

/-- A link takes a width; source 176 + 8l + 2 is reported when it changes. -/
def State.setLinkWidth (s : State) (l w : Nat) : State :=
  if s.rf (.cdlLstat l) cdlLstat_WIDTH = w then s else (s.setRf (.cdlLstat l) cdlLstat_WIDTH w).linkReport l 2

/-- LCTL.EN of a link. -/
def State.linkEn (s : State) (l : Nat) : Bool := decide (s.rf (.cdlLctl l) cdlLctl_EN = 1)

/-- The peer of a link. -/
def State.linkPeer (s : State) (l : Nat) : Nat := s.rf (.cdlLstat l) cdlLstat_PEER

/-- A link goes DOWN with a reason: packets in flight are lost (R489); while LCTL.EN is 1 the former peer of an ADMITTED link is
sent ECHO (R520). -/
def State.linkDown (s : State) (l reason : Nat) : State :=
  let was := s.linkState l
  let peer := s.linkPeer l
  let s := (s.setLinkState l lsDOWN).setLinkWidth l 0
  let s : State := { s.setRf (.cdlLstat l) cdlLstat_REASON reason with
    tx := s.tx.filter (fun e => decide (e.1 ≠ l)), linkQui := s.linkQui.filter (fun x => decide (x ≠ l)) }
  let s := s.setLink l { s.linkRun l with oldTill := none, retrain := false }
  if was = lsADMITTED ∧ s.linkEn l = true then
    let (r, s) := s.newReq
    let s : State := { s with echoes := tset s.echoes peer (s.now + 100000) }
    s.sendOwn (s.mkPkt pkECHO peer r 0 0 [] [])
  else s

/-- LINK_DOWN is reported with the reason in AUX (R488, R489, R492). -/
def State.linkLost (s : State) (l reason : Nat) : State := (s.linkDown l reason).raise 4 l 0x21 reason 0

/-- A link that may run: enabled, its domain on and the link in service. -/
def State.linkRuns (s : State) (l : Nat) : Bool :=
  s.linkEn l && s.serving && !(s.isRetired 4 l) && decide (s.rf (.pwrDom (68 + l)) pwrDom_STATE = 1)

/-- A DOWN link begins to train (R488, R571, R601). -/
def State.linkTrain (s : State) (l : Nat) : State :=
  if s.linkRuns l = true ∧ s.linkState l = lsDOWN then
    (s.setLinkState l lsTRAIN).setLink l { s.linkRun l with lastRx := s.now, retrain := false }
  else s

/-- What a write of LCTL does (R527): EN = 0 takes the link DOWN, EN = 1 trains a link that is DOWN, and a change of LANES
retrains one that runs. -/
def State.lctlWritten (s : State) (l : Nat) (old : Word) : State :=
  if s.linkEn l = false then (if s.linkState l = lsDOWN then s else s.linkDown l 0)
  else if s.linkState l = lsDOWN then s.linkTrain l
  else if fld old 7 4 ≠ s.rf (.cdlLctl l) cdlLctl_LANES then s.setLink l { s.linkRun l with retrain := true }
  else s

/-! ## Training (R488) -/

/-- The lane sets a link may run on, the widest first. -/
def laneSets : List Nat := [0xF, 0x3, 0xC, 0x1, 0x2, 0x4, 0x8]

/-- The lanes of a link that are not retired. -/
def State.goodLanes (s : State) (l : Nat) : Nat :=
  ((List.range 4).map (fun i => if s.isRetired 5 (4 * l + i) then 0 else 2 ^ i)).sum

/-- The lane set a link takes when training finds the lanes of work usable. -/
def State.chooseLanes (s : State) (l work : Nat) : Option Nat :=
  let ok := Nat.land (Nat.land work (s.goodLanes l)) (s.rf (.cdlLctl l) cdlLctl_LANES)
  laneSets.find? (fun m => decide (Nat.land m ok = m))

/-- LINK_TRAINING (R488): training of link l ends, having found the lanes of work usable; a link in TRAIN goes on to AUTH, one that
retrains keeps its state, and one without a usable lane goes DOWN. -/
def execLinkTraining (l work : Nat) (s : State) : Host.Outcome State Fault Refusal :=
  if 12 ≤ l ∨ 16 ≤ work then .refused .illFormed
  else if s.linkRuns l = false ∨ s.linkState l = lsDOWN ∨ (s.linkState l ≠ lsTRAIN ∧ (s.linkRun l).retrain = false) then
    .next s
  else
    match s.chooseLanes l work with
    | none => .next (s.linkLost l 0)
    | some m =>
      let s := s.setLinkWidth l (popCount m 4)
      let s := s.setLink l { s.linkRun l with retrain := false, lastRx := s.now }
      .next (if s.linkState l = lsTRAIN then s.setLinkState l lsAUTH else s)

/-! ## Admission (R490, R523) -/

/-- A hash that admits nothing: absent or zero (R563). -/
def noRoot (h : List Byte) : Bool := h.all (fun b => decide (b = 0))

/-- Admission of link l is refused with a reason (R490). -/
def State.linkRefuse (s : State) (l reason : Nat) : State := (s.linkDown l reason).linkReport l 1

/-- The node originates a notice on every ADMITTED link but one. -/
def State.notify (s : State) (typ : Nat) (payload : List Byte) (but : Option Nat) : State :=
  ((List.range 12).filter (fun l => decide (s.linkState l = lsADMITTED) && decide (some l ≠ but))).foldl (fun s l =>
    s.emit l none (s.mkPkt typ (s.linkPeer l) 0 0 0 payload [1])) s

/-- The payload of LOST and JOIN: the node and its incarnation (R495). -/
def noticePayload (n inc : Nat) : List Byte := wordBytes [n % 1024 + inc % 2 ^ 32 * 2 ^ 32]

/-- Link l is admitted in state st with peer node and key. -/
def State.linkAdmit (s : State) (l st node key : Nat) : State :=
  let s := (s.setRf (.cdlLstat l) cdlLstat_PEER node).setRf (.cdlLstat l) cdlLstat_REASON 0
  let s := s.setLink l { s.linkRun l with key := key, pkts := 0, keyAt := s.now, oldTill := none, lastRx := s.now }
  let s := s.setLinkState l st
  if st = lsADMITTED ∧ s.joinDue = true then
    { s with joinDue := false }.notify pkJOIN (noticePayload s.node (s.rf .cdlEst cdlEst_INC)) none
  else s

/-- ADMISSION (R490): the exchange of link l ends. The peer answered or not; its chain ends at no root of ours (0), at the estate root
(1) or at the attach root (2); its signature verifies or not; and it gave a node number, an estate size and an identity key. -/
def execAdmission (l : Nat) (answered : Bool) (chain : Nat) (signs : Bool) (node size key : Nat) (s : State) :
    Host.Outcome State Fault Refusal :=
  if 12 ≤ l ∨ 2 < chain ∨ 1024 ≤ node then .refused .illFormed
  else if s.linkRuns l = false ∨ s.linkState l ≠ lsAUTH then .next s
  else
    let root := if chain = 1 then s.cfg.estRoot else s.cfg.attRoot
    let twin := (List.range 12).any (fun m => decide (m ≠ l) && decide (s.linkState m = lsADMITTED)
      && decide (s.linkPeer m = node) && decide ((s.linkRun m).key ≠ key))
    .next (
      if !answered then s.linkRefuse l 5
      else if chain = 0 ∨ noRoot root = true then s.linkRefuse l 1
      else if !signs then s.linkRefuse l 2
      else if s.estSize ≤ s.node then s.linkRefuse l 3
      else if chain = 2 then s.linkAdmit l lsATTACHED node key
      else if size ≠ s.estSize then s.linkRefuse l 3
      else if node = s.node ∨ twin = true then s.linkRefuse l 4
      else s.linkAdmit l lsADMITTED node key)

/-! ## Keys, heartbeats and silence (R489, R491, R492) -/

/-- A link that carries packets. -/
def State.linkUp (s : State) (l : Nat) : Bool := decide (s.linkState l = lsADMITTED) || decide (s.linkState l = lsATTACHED)

/-- REKEY (R491): the ephemeral exchange is repeated after 2^32 packets or 600 s, and the old keys stay accepted for 1 ms. -/
def execRekey (l : Nat) (s : State) : Host.Outcome State Fault Refusal :=
  if 12 ≤ l then .refused .illFormed
  else if s.linkUp l = false then .next s
  else
    let x := s.linkRun l
    let s := if 2 ^ 32 ≤ x.pkts then s else s.advanceTo (x.keyAt + 600000000000)
    .next (s.setLink l { x with pkts := 0, keyAt := s.now, oldTill := some (s.now + 1000000) })

/-- OLD_KEY_EXPIRY (R491): 1 ms after a change the old keys are accepted no more. -/
def execOldKeyExpiry (l : Nat) (s : State) : Host.Outcome State Fault Refusal :=
  if 12 ≤ l then .refused .illFormed
  else
    match (s.linkRun l).oldTill with
    | none => .next s
    | some t => .next ((s.setLink l { s.linkRun l with oldTill := none }).advanceTo t)

/-- HEARTBEAT (R489): a link that has sent nothing for 1 µs sends a heartbeat flit. -/
def execHeartbeat (l : Nat) (s : State) : Host.Outcome State Fault Refusal :=
  if 12 ≤ l then .refused .illFormed
  else if s.linkUp l = false then .next s
  else
    let s := s.advanceTo ((s.linkRun l).lastTx + 1000)
    .next (s.setLink l { s.linkRun l with lastTx := s.now })

/-- LINK_SILENT (R489): link l has received nothing for CDL.CFG.LOST µs and goes DOWN with REASON 7. -/
def execLinkSilent (l : Nat) (s : State) : Host.Outcome State Fault Refusal :=
  if 12 ≤ l then .refused .illFormed
  else if s.linkState l = lsDOWN then .next s
  else .next ((s.advanceTo ((s.linkRun l).lastRx + s.rf .cdlCfg cdlCfg_LOST * 1000)).linkLost l 7)

/-- A packet of link l fails its GCM tag (R492): the link returns to AUTH, and the third failure within 1 s leaves it DOWN. -/
def State.gcmFail (s : State) (l : Nat) : State :=
  let s := (s.satRf (.cdlLcnt l) cdlLcnt_AUTHFAIL 1).linkReport l 4
  let x := s.linkRun l
  let fs := x.fails.filter (fun t => decide (s.now < t + 1000000000)) ++ [s.now]
  let s := s.setLink l { x with fails := fs }
  if 3 ≤ fs.length then s.linkLost l 6 else s.setLinkState l lsAUTH

/-- FLIT_RECEIVE (R486, R492): a flit arrives on link l. fate 0: it passes; 1: it fails its CRC on the given lane and is sent again from
the replay buffer; 2: it carries a packet whose GCM tag fails. -/
def execFlitReceive (l fate lane : Nat) (s : State) : Host.Outcome State Fault Refusal :=
  if 12 ≤ l ∨ 2 < fate ∨ 4 ≤ lane then .refused .illFormed
  else if s.linkState l = lsDOWN ∨ (fate = 2 ∧ s.linkUp l = false) then .next s
  else
    let s := s.setLink l { s.linkRun l with lastRx := s.now }
    .next (
      if fate = 0 then s
      else if fate = 1 then ((s.addRf (.cdlLstat l) cdlLstat_CRCRETRY 1).linkReport l 3).raise 5 (4 * l + lane) 0x20 0 0
      else s.gcmFail l)

end Sys2Proof.Machine
end

