-- ==== Sys2Proof/Machine/Dep.lean ====
section
/-! DEFINITION. The event coalescer, the judgement of events and retirement ("Dependability, ageing and monitors", R529-R541,
R548). -/

namespace Sys2Proof.Machine

open Sys2Proof

/-! ## Events and subjects (R530, R531) -/

/-- The event codes of class P. -/
def permanentEvent (ev : Nat) : Bool := [0x02, 0x03, 0x04, 0x06, 0x09, 0x0A, 0x12, 0x19, 0x29, 0x31, 0x48].contains ev

/-- The power domain of a core. -/
def domainOfCore (n : Nat) : Nat := if n < 48 then n / 2 else 24 + (n - 48) / 2

/-- The key-engine domain of a unit. -/
def domainOfUnit (u : Nat) : Nat := if u < 12 then 80 else if u < 24 then 81 else if u < 36 then 82 else 83

/-- The kind of unit u. -/
def unitKind (u : Nat) : Nat := if u < 24 then 0 else if u < 32 then 1 else if u < 36 then 2 else 3

/-- domain_of of R531: the power domain that reports a subject. -/
def domainOf (sc ix : Nat) : Nat :=
  match sc with
  | 0 => domainOfCore ix
  | 1 => ix
  | 2 => 64 + ix / 32
  | 3 => 56 + ix / 24
  | 4 => 68 + ix
  | 5 => 68 + ix / 4
  | 6 => domainOfUnit ix
  | 7 => ix
  | 8 => 87 + ix
  | 9 => 83
  | 13 => domainOfCore (ix / 2)
  | _ => 94

/-- An index names a subject of its class (R531). -/
def subjectOk (sc ix : Nat) : Bool :=
  match sc with
  | 0 => decide (ix < 112)
  | 1 => decide (ix < 24)
  | 2 => decide (ix < 128)
  | 3 => decide (ix < 192)
  | 4 => decide (ix < 12)
  | 5 => decide (ix < 48)
  | 6 => decide (ix < 38)
  | 7 => decide (ix < 96)
  | 8 => decide (ix < 2)
  | 9 => decide (ix < 2)
  | 10 => decide (ix < 16)
  | 11 => decide (ix < 20)
  | 12 => decide (ix < 2 ^ 27)
  | 13 => decide (ix < 224)
  | _ => false

/-- The subject belongs to the sealed world (R534). -/
def State.subjectSealed (s : State) (sc ix : Nat) : Bool :=
  match sc with
  | 0 => s.coreWorld ix
  | 1 => s.coreWorld (2 * ix)
  | 6 => decide (s.rf (.keyUctl ix) keyUctl_WORLD = 1)
  | 13 => s.coreWorld (ix / 2)
  | _ => false

/-! ## Records (R532, R533) -/

/-- dep_hold in nanoseconds. -/
def State.depHold (s : State) : Nat := s.rf .depCfg depCfg_HOLD * 1000

/-- Record r holds the key. -/
def State.recHas (s : State) (r sc ix ev : Nat) : Bool :=
  let w := s.reg (.depRec r)
  flag w 0 && decide (fld w 63 60 = sc) && decide (fld w 59 32 = ix) && decide (fld w 31 24 = ev)

/-- find_record. -/
def State.findRecord (s : State) (sc ix ev : Nat) : Option Nat := (List.range 1023).find? (fun r => s.recHas r sc ix ev)

/-- free_record: the lowest free index below 1,023. -/
def State.freeRecord (s : State) : Option Nat := (List.range 1023).find? (fun r => !(flag (s.reg (.depRec r)) 0))

/-- fill: record r takes the key, AUX and DETAIL, a count of 1 and the present time, with NEW set. -/
def State.fillRecord (s : State) (r : Nat) (e : DevEvent) : State :=
  let w := e.sc % 16 * 2 ^ 60 + e.ix % 2 ^ 28 * 2 ^ 32 + e.ev % 256 * 2 ^ 24 + 1 * 2 ^ 8 + e.aux % 8 * 2 ^ 5
    + b2n (s.subjectSealed e.sc e.ix) * 2 ^ 4 + b2n (permanentEvent e.ev) * 2 ^ 2 + 2 + 1
  let s := ((s.setReg (.depRec r) (word w)).setReg (.depFirst r) (word s.now)).setReg (.depLast r) (word s.now)
  (s.setReg (.depDetail r) (word e.detail)).addRf .depStat depStat_USED 1

/-- A record frees: its four words are zero (R548). -/
def State.zeroRecord (s : State) (r : Nat) : State :=
  let used := flag (s.reg (.depRec r)) 0
  let s := (((s.setReg (.depRec r) 0).setReg (.depFirst r) 0).setReg (.depLast r) 0).setReg (.depDetail r) 0
  let s := { s with lastIrq := tdel s.lastIrq r }
  if used then s.setRf .depStat depStat_USED (s.rf .depStat depStat_USED - 1) else s

/-- NEW of record r is set, with nothing left to defer, and its source raised. -/
def State.raiseRecord (s : State) (r sc ix : Nat) : State :=
  ({ (s.setRf (.depRec r) depRec_NEW 1).setRf (.depRec r) depRec_DEFER 0 with lastIrq := tset s.lastIrq r s.now }).report (400 + domainOf sc ix)

/-- The overflow record (R533). -/
def State.depOverflow (s : State) (e : DevEvent) : State :=
  let s := s.addRf .depStat depStat_LOST 1
  if flag (s.reg (.depRec 1023)) 0 then (s.satRf (.depRec 1023) depRec_COUNT 1).setReg (.depLast 1023) (word s.now)
  else s.fillRecord 1023 e

/-- dep_report up to the judgement (R532). -/
def State.depCount (s : State) (e : DevEvent) : State :=
  match s.findRecord e.sc e.ix e.ev with
  | none =>
    match s.freeRecord with
    | none => s.depOverflow e
    | some r => (s.fillRecord r e).raiseRecord r e.sc e.ix
  | some r =>
    let s := (s.satRf (.depRec r) depRec_COUNT 1).setReg (.depLast r) (word s.now)
    if s.rf (.depRec r) depRec_NEW = 1 then s
    else if tget s.lastIrq r 0 + s.depHold ≤ s.now then s.raiseRecord r e.sc e.ix
    else s.setRf (.depRec r) depRec_DEFER 1

/-- The record of an event is marked permanent by its repeat pattern (R548). -/
def State.markPerm (s : State) (e : DevEvent) : State :=
  match s.findRecord e.sc e.ix e.ev with
  | none => s
  | some r => s.setRf (.depRec r) depRec_PERM 1

/-! ## What retirement does (R535-R538) -/

/-- How many retired units of a class meet a condition. -/
def State.retiredCount (s : State) (sc : Nat) (p : Nat → Bool) : Nat :=
  (s.retired.filter (fun e => decide (e.1 = sc) && p e.2)).length

/-- The floor of a kind (R538). -/
def State.floor (s : State) (i : Nat) : Nat := s.cfg.floors.getD i 0

/-- DEP recomputes bits 16 to 21 of DEGR (R538, R574). -/
def State.degrCompute (s : State) : State :=
  let b := fun (i : Nat) (x : Bool) (s : State) => s.setDegrBit i x
  let inWorld := fun (w : Nat) (u : Nat) => decide (s.rf (.keyUctl u) keyUctl_WORLD = w)
  let s' := b 0 (decide (s.floor 0 < s.retiredCount 1 (fun _ => true))) s
  let s' := b 1 (decide (s.floor 1 < s.retiredCount 0 (fun _ => true))) s'
  let s' := b 3 ((List.range 8).any (fun sl => decide (s.floor 2 < s.retiredCount 3 (fun i => decide (i / 24 = sl))))) s'
  let s' := b 4 (decide (s.floor 3 < s.retiredCount 4 (fun _ => true))) s'
  let keys := [0, 1].any (fun w => decide (s.floor 4 < s.retiredCount 6 (fun u => decide (u < 24) && inWorld w u))
    || decide (s.floor 5 < s.retiredCount 6 (fun u => decide (24 ≤ u) && inWorld w u)))
  (b 5 keys s').degrMemory

/-- A domain is switched off by DEP and shows STATE 3 (R589): its cores keep no state. -/
def State.domainRetired (s : State) (d : Nat) : State :=
  let s := { s.setRf (.pwrDom d) pwrDom_STATE 3 with switchAt := tdel s.switchAt d }
  let cores := if d < 24 then [2 * d, 2 * d + 1] else if d < 56 then [2 * d, 2 * d + 1] else []
  cores.foldl (fun s n => s.setCore n { s.core n with held := true, off := true }) s

/-- The domain of a core is switched off once no unit in it serves (R537). -/
def State.domainIfIdle (s : State) (n : Nat) : State :=
  let d := domainOfCore n
  let cores := [2 * d, 2 * d + 1]
  if s.isRetired 1 d || cores.all (fun c => s.isRetired 0 c) then s.domainRetired d else s

/-- The sources routed to a target go to the failover target the image gives its core: a pending one is evaluated at once, an
active one is ended (R537). -/
def State.failover (s : State) (t : Nat) : State :=
  match tfind s.cfg.failover (t / 2) with
  | none => s
  | some c =>
    (List.range 640).foldl (fun s n =>
      if s.rf (.intcSrc n) intcSrc_TARGET = t then
        let s := s.setRf (.intcSrc n) intcSrc_TARGET (2 * c + t % 2)
        let s := if s.srcAct n then
            { s.setRf (.intcSrc n) intcSrc_ACT 0 with srcLevel := tdel s.srcLevel n }.updRunpri t
          else s
        s.takeover n
      else s) s

/-- Work of a context that no rule takes elsewhere is lost, and the context is reported RETIRED (R537). -/
def State.loseContext (s : State) (n k : Nat) : State :=
  let x := s.ctx n k
  if x.st ≠ .idle ∧ x.tx.state ≠ .active ∧ x.tx.service = 0 then s.raise 13 (2 * n + k) 0x48 0 0 else s

/-- The work on core n (of a pair, on both cores) ends as R537 states, and the core is reset and held. -/
def State.endCoreWork (s : State) (n : Nat) : State :=
  let s := (s.loseContext n 0).loseContext n 1
  let s := (s.discardTx n 0 none).discardTx n 1 none
  let s := (((s.loseService n 0).loseService n 1).resetStores n).resetCoreState n
  s.setCore n { s.core n with held := true }

/-- A pair is retired. -/
def State.retirePair (s : State) (k : Nat) : State :=
  let n := 2 * k
  let s := { s.endCoreWork n with cbuf := tset s.cbuf n [] }
  let s := (s.setRf (.depPair k) depPair_STATE 2).retireMark 1 k
  let s := [4 * k, 4 * k + 1, 4 * k + 2, 4 * k + 3].foldl (fun s t => s.failover t) s
  (s.domainIfIdle n).degrCompute

/-- A W-core or an unpaired P-core is retired. -/
def State.retireCore (s : State) (n : Nat) : State :=
  let s := (s.endCoreWork n).retireMark 0 n
  ((s.failover (2 * n)).failover (2 * n + 1)).domainIfIdle n |>.degrCompute

/-- A link is retired: LCTL.EN is cleared. -/
def State.retireLink (s : State) (l : Nat) : State :=
  let s := s.setRf (.cdlLctl l) cdlLctl_EN 0
  let s := if s.linkState l = lsDOWN then s else s.linkDown l (s.rf (.cdlLstat l) cdlLstat_REASON)
  (s.retireMark 4 l).degrCompute

/-- A lane leaves its link's lane set, and the link retrains (R488). -/
def State.retireLane (s : State) (i : Nat) : State :=
  let s := s.retireMark 5 i
  s.setLink (i / 4) { s.linkRun (i / 4) with retrain := true }

/-- The commands that run on unit u end with ENGINE_FAULT and write nothing (R537, R452). -/
def State.failRunning (s : State) (u : Nat) : State :=
  let runs := fun (d : KDone) => d.units.contains u && decide (10 * s.now < d.ready)
  let ended := (s.kdone.filter runs).map (fun d => { d with ans := ⟨ksENGINE_FAULT, 0, [], none⟩, ready := 10 * s.now })
  { s with kdone := (s.kdone.filter (fun d => decide (d.ready ≤ 10 * s.now))) ++ ended
      ++ s.kdone.filter (fun d => !(runs d) && decide (10 * s.now < d.ready)) }

/-- A key unit is retired (R464, R535). -/
def State.retireUnit (s : State) (u : Nat) : State :=
  let s := s.failRunning u
  ((s.setRf (.keyUstat u) keyUstat_STATE 3).report (96 + u)).retireMark 6 u |>.degrCompute

/-- A cartridge slot is retired: FAILED (R476). -/
def State.retireSlot (s : State) (j : Nat) : State :=
  if s.jcState j = jsABSENT then s else (s.jcFail j 8).retireMark 8 j

/-- An entropy source is excluded (R459). -/
def State.retireSource (s : State) (i : Nat) : State :=
  let s := if s.rf .keyDrbg (if i = 0 then keyDrbg_SRC0 else keyDrbg_SRC1) = 1 then s.entropyFail i else s
  s.retireMark 9 i

/-- A retirable domain (R546). -/
def retirableDomain (d : Nat) : Bool :=
  decide (d < 64) || (decide (68 ≤ d) && decide (d < 82)) || decide (d = 87) || decide (d = 88)

/-- The units a domain holds, by class and index (R585). -/
def State.unitsOf (s : State) (d : Nat) : List (Nat × Nat) :=
  if d < 24 then (if s.paired (2 * d) then [(1, d)] else [(0, 2 * d), (0, 2 * d + 1)])
  else if d < 56 then [(0, 2 * d), (0, 2 * d + 1)]
  else if d < 64 then (List.range 24).map (fun w => (3, 24 * (d - 56) + w))
  else if 68 ≤ d ∧ d < 80 then [(4, d - 68)]
  else if d = 80 then (List.range 12).map (fun u => (6, u))
  else if d = 81 then (List.range 12).map (fun u => (6, 12 + u))
  else if d = 87 ∨ d = 88 then [(8, d - 87)]
  else []

/-- The unit is the last of its kind in service (R536). -/
def State.lastInService (s : State) (sc ix : Nat) : Bool :=
  match sc with
  | 1 =>
    !((List.range 24).any (fun k => decide (k ≠ ix) && s.paired (2 * k) && (s.coreWorld (2 * k) == s.coreWorld (2 * ix))
        && !(s.isRetired 1 k)))
  | 3 =>
    let sealedWays := tget s.cfg.ways (ix / 24) 0
    !((List.range 24).any (fun w => decide (w ≠ ix % 24) && (bit sealedWays w == bit sealedWays (ix % 24))
        && !(s.isRetired 3 (ix / 24 * 24 + w))))
  | 4 =>
    decide (s.linkState ix = lsADMITTED) && !((List.range 12).any (fun l => decide (l ≠ ix) && decide (s.linkState l = lsADMITTED)))
  | 6 =>
    !((List.range 38).any (fun u => decide (u ≠ ix) && decide (unitKind u = unitKind ix)
        && decide (s.rf (.keyUctl u) keyUctl_WORLD = s.rf (.keyUctl ix) keyUctl_WORLD) && decide (s.rf (.keyUstat u) keyUstat_STATE = 0)))
  | _ => false

/-- Retirement of one unit, not a domain; nothing when it is retired already. force: the last unit of a kind is retired too. -/
def State.retireOne (s : State) (sc ix : Nat) (force : Bool) : State :=
  if s.isRetired sc ix then s
  else if !force && s.lastInService sc ix then
    (if sc = 1 then s.setRf (.depPair ix) depPair_STATE 3 else s).setDegrBit 7 true
  else
    match sc with
    | 0 => if s.paired ix then s else s.retireCore ix
    | 1 => if s.paired (2 * ix) then s.retirePair ix else s
    | 2 => s.retirePc ix
    | 3 => (s.retireMark 3 ix).degrCompute
    | 4 => s.retireLink ix
    | 5 => s.retireLane ix
    | 6 => s.retireUnit ix
    | 8 => s.retireSlot ix
    | 9 => s.retireSource ix
    | _ => s

/-- Retirement of a unit (R535); of a domain, of every unit it holds. A core of a pair stands for the pair. -/
def State.retire (s : State) (sc ix : Nat) (force : Bool) : State :=
  match sc with
  | 7 =>
    if retirableDomain ix then
      let s := (s.unitsOf ix).foldl (fun s u => s.retireOne u.1 u.2 force) s
      if (s.unitsOf ix).all (fun u => s.isRetired u.1 u.2) then
        ((s.domainRetired ix).setRf (.ageDom ix) ageDom_STATE 3).retireMark 7 ix
      else s
    else s
  | 0 => if s.paired ix then s.retireOne 1 (ix / 2) force else s.retireOne 0 ix force
  | _ => s.retireOne sc ix force

/-! ## The judgement (R535) -/

/-- Reports of a subject and event, this one included, within a window in ns. -/
def State.seenWithin (s : State) (sc ix ev window : Nat) : Nat :=
  (s.depHist.filter (fun e => decide (e.1.sc = sc) && decide (e.1.ix = ix) && decide (e.1.ev = ev) && decide (s.now < e.2 + window))).length

def minutes (n : Nat) : Nat := n * 60000000000

/-- MMWIN in nanoseconds. -/
def State.mmwin (s : State) : Nat := minutes (s.rf .depCfg depCfg_MMWIN)

/-- The resends of a lane exceed 1,000 in each of the last ten seconds. -/
def State.laneNoisy (s : State) (i : Nat) : Bool :=
  (List.range 10).all (fun k =>
    decide (1000 < (s.depHist.filter (fun e => decide (e.1.sc = 5) && decide (e.1.ix = i) && decide (e.1.ev = 0x20)
      && decide (s.now ≤ e.2 + (k + 1) * 1000000000) && decide (e.2 + k * 1000000000 ≤ s.now))).length))

/-- The LINK_DOWN events with REASON 6 or 7 of a link within 10 minutes. -/
def State.linkFailures (s : State) (l : Nat) : Nat :=
  (s.depHist.filter (fun e => decide (e.1.sc = 4) && decide (e.1.ix = l) && decide (e.1.ev = 0x21)
    && (decide (e.1.aux = 6) || decide (e.1.aux = 7)) && decide (s.now < e.2 + minutes 10))).length

/-- A trigger of R535 holds for the subject of an event: whether the unit is retired, and whether even as the last of its kind. -/
def State.trigger (s : State) (e : DevEvent) : Option Bool :=
  let n := fun (ev w : Nat) => s.seenWithin e.sc e.ix ev w
  let dual := if s.paired e.ix then s.seenWithin 0 (e.ix / 2 * 2) 0x09 (minutes 1440) + s.seenWithin 0 (e.ix / 2 * 2 + 1) 0x09 (minutes 1440)
    else n 0x09 (minutes 1440)
  let cs := decide (e.ev = 0x09) && decide (2 ≤ dual) || decide (e.ev = 0x0A)
  let hit := match e.sc with
    | 0 => cs || (decide (e.ev = 0x16) && decide (2 ≤ n 0x16 s.mmwin))
    | 1 => (decide (e.ev = 0x10) || decide (e.ev = 0x11)) && decide (2 ≤ n 0x10 s.mmwin + n 0x11 s.mmwin)
    | 2 => decide (e.ev = 0x04) || decide (e.ev = 0x06) || (decide (e.ev = 0x05) && decide (2 ≤ n 0x05 (minutes 60)))
    | 3 => decide (e.ev = 0x19) || (decide (e.ev = 0x18) && decide (16 ≤ n 0x18 (minutes 1440)))
    | 4 => decide (e.ev = 0x21) && (decide (3 ≤ s.linkFailures e.ix) || decide (e.aux = 0))
    | 5 => decide (e.ev = 0x20) && s.laneNoisy e.ix
    | 6 => decide (e.ev = 0x28) && decide (2 ≤ n 0x28 s.mmwin)
    | 9 => decide (e.ev = 0x29)
    | _ => false
  if e.ev = 0x12 ∨ (e.ev = 0x31 ∧ e.sc = 7 ∧ retirableDomain e.ix = true) then some true
  else if hit then some false
  else none

/-- CE_RATE is reported when the corrected errors of a pseudo-channel within 60 minutes exceed the CELIMIT curve at its stack's
temperature (R535). -/
def State.ceRate (s : State) (pc : Nat) : State :=
  match s.curveOf 3 with
  | none => s
  | some c =>
    if curve c (s.stackTemp pc).toNat < s.seenWithin 2 pc 0x01 (minutes 60) then s.raise 2 pc 0x06 0 0 else s

/-- A first CS_DUAL on a core outside the pairs has MCS reload its control store; of a W-core, that of its group (R535). -/
def State.csReload (s : State) (n : Nat) : State :=
  if s.paired n then s
  else (if n < 48 then [n] else [n / 2 * 2, n / 2 * 2 + 1]).foldl (fun s c => s.csAgain c) s

/-- dep_judge (R535, R536, R546). -/
def State.depJudge (s : State) (e : DevEvent) : State :=
  let s := { s with depHist := s.depHist.filter (fun (h : DevEvent × Nat) => decide (s.now < h.2 + minutes 1440)) ++ [(e, s.now)] }
  let s := if e.sc = 2 ∧ e.ev = 0x01 then s.ceRate e.ix else s
  match s.trigger e with
  | some force => (s.markPerm e).retire e.sc e.ix force
  | none =>
    if e.sc = 0 ∧ e.ev = 0x09 then s.csReload e.ix
    else if e.sc = 7 ∧ e.ev = 0x31 ∧ retirableDomain e.ix = false then s.setDegrBit 6 true
    else s

/-- dep_report (R532). A RETIRED report is kept, and appended to the retirement log (R539). -/
def State.depReport (s : State) (e : DevEvent) : State :=
  let s := s.depCount e
  let s := if e.ev = 0x48 ∧ e.sc < 10 ∧ s.isRetired e.sc e.ix = false then
      { s with retired := s.retired ++ [(e.sc, e.ix)]
               retLog := if s.retLog.length < 256 then s.retLog ++ [(e.sc, e.ix)] else s.retLog }
    else s
  s.depJudge e

/-! ## The commands -/

/-- An error the hardware finds by itself: what it does at once, its event being put on its way (R293, R388, R530). -/
def State.freshError (s : State) (e : DevEvent) : Option State :=
  match e.sc, e.ev with
  | 1, 0x10 =>
    if e.ix < 24 ∧ s.paired (2 * e.ix) = true ∧ (s.core (2 * e.ix)).held = false ∧ e.aux = 0 ∧ e.detail = 0 then
      some (s.failPair (2 * e.ix) 0x10)
    else none
  | 0, 0x16 =>
    if e.ix < 112 ∧ s.paired e.ix = false ∧ (s.core e.ix).held = false ∧ e.aux = 0 ∧ e.detail = 0 then
      some ((s.raise 0 e.ix 0x16 0 0).coreReset e.ix)
    else none
  | 2, 0x02 =>
    if backedDram e.detail = true ∧ e.detail % 64 = 0 ∧ s.holderOf e.detail = e.ix ∧ e.aux = 0 then some (s.ueFound e.detail) else none
  | 3, 0x18 => if e.ix < 192 ∧ e.aux = 0 ∧ s.isRetired 3 e.ix = false then some (s.raise 3 e.ix 0x18 0 e.detail) else none
  | 3, 0x19 =>
    if e.ix < 192 ∧ backedDram e.detail = true ∧ e.detail % 64 = 0 ∧ e.aux = 0 ∧ s.isRetired 3 e.ix = false then
      some ({ s with mem := (List.range 8).foldl (fun (m : Mem) i => m.setWord (e.detail + 8 * i) 0 tPOISON) s.mem }.raise
        3 e.ix 0x19 0 e.detail)
    else none
  | _, _ => none

/-- EVENT_REPORT (R532): an event on its way reaches the coalescer, or one of the hardware's own errors arises and is reported: a
lockstep mismatch (R293), an uncorrectable core error, an uncorrectable line met by an access (R388), or a cache error. -/
def execEventReport (e : DevEvent) (s : State) : Host.Outcome State Fault Refusal :=
  if !(subjectOk e.sc e.ix) then .refused .illFormed
  else if s.events.contains e then .next ({ s with events := s.events.erase e }.depReport e)
  else if s.mode = mdLOCKDOWN ∨ s.mode = mdSELFTEST then .next s
  else
    match s.freshError e with
    | none => .next s
    | some s => .next ({ s with events := s.events.erase e }.depReport e)

/-- DEP_HOLD_END (R532): the hold of record r ends; a deferred NEW is set and raises its source once. -/
def execDepHoldEnd (r : Nat) (s : State) : Host.Outcome State Fault Refusal :=
  if 1024 ≤ r then .refused .illFormed
  else
    let w := s.reg (.depRec r)
    if flag w 0 = false ∨ flag w 3 = false ∨ flag w 1 = true then .next s
    else
      let t := tget s.lastIrq r 0 + s.depHold
      let s := (s.advanceTo t).raiseRecord r (fld w 63 60) (fld w 59 32)
      .next { s with lastIrq := tset s.lastIrq r t }

end Sys2Proof.Machine
end

