-- ==== Sys2Proof/Machine/Dbg.lean ====
section
/-! DEFINITION. The advances of the Ridge table's epoch, and halting and stepping of cores ("The Ridge table and the interconnect",
R368-R375). -/

namespace Sys2Proof.Machine

open Sys2Proof

/-! ## Epochs (R370) -/

/-- A write of 1 to RDG.EPOCH.ADV starts an advance, which empties every check cache, or queues one. -/
def State.advWrite (s : State) : State :=
  let cur := s.rf .rdgEpochnum rdgEpochnum_CUR
  if s.rf .rdgEpoch rdgEpoch_BUSY = 0 then
    { (s.setRf .rdgEpoch rdgEpoch_BUSY 1).setRf .rdgEpochnum rdgEpochnum_REQ (cur + 1) with rdgStale := [] }
  else (s.setRf .rdgEpoch rdgEpoch_QUEUED 1).setRf .rdgEpochnum rdgEpochnum_REQ (cur + 2)

/-- EPOCH_ADVANCE_COMPLETE (R370): the accesses checked before have completed; CUR rises, source 594 is reported, and a queued
advance starts. -/
def execEpochAdvanceComplete (s : State) : Host.Outcome State Fault Refusal :=
  if s.rf .rdgEpoch rdgEpoch_BUSY = 0 then .next s
  else
    let s := (s.addRf .rdgEpochnum rdgEpochnum_CUR 1).report 594
    .next (if s.rf .rdgEpoch rdgEpoch_QUEUED = 1 then { s.setRf .rdgEpoch rdgEpoch_QUEUED 0 with rdgStale := [] }
      else s.setRf .rdgEpoch rdgEpoch_BUSY 0)

/-- An entry of the table is written: a port may still apply it as it stood (R368). -/
def State.rdgKeep (s : State) (i : Nat) : State :=
  { s with rdgStale := s.rdgStale ++ [(i, s.reg (.rdgBase i), s.reg (.rdgLimit i), s.reg (.rdgAttr i))] }

/-! ## Halting and stepping (R374, R375) -/

/-- The cores that a write of DBG.CORECTL[n] acts on. -/
def State.ctlCores (s : State) (n : Nat) : List Nat := if s.paired n then [n / 2 * 2, n / 2 * 2 + 1] else [n]

/-- A field of CORECTL of every core that n names. -/
def State.setCtl (s : State) (n : Nat) (f : Fd) (v : Nat) : State :=
  (s.ctlCores n).foldl (fun s c => s.setRf (.dbgCorectl c) f v) s

/-- STATUS.SS of both contexts of a core (R119). -/
def State.setSS (s : State) (n : Nat) (b : Bool) : State :=
  [0, 1].foldl (fun s k =>
    let x := s.ctx n k
    s.setCtx n k (x.setStatus (setFlag x.status 6 b))) s

/-- The halt of core n ends: its MASKLIMIT count, if one runs, goes on from where it stood. -/
def State.haltRelease (s : State) (n : Nat) : State :=
  let u := s.unit n
  let c := s.core u
  let s := if s.rf (.dbgCorectl n) dbgCorectl_HALTED = 1 then
      s.setCore u { c with maskSince := c.maskSince.map (fun t => t + (s.now - tget s.haltAt u t)) }
    else s
  { (s.setCtl n dbgCorectl_HALTED 0).setCtl n dbgCorectl_PEND 0 with haltAt := tdel s.haltAt u }

/-- What a write of DBG.CORECTL[n] does, the fields being written: HALT and STEP act on both cores of a pair; of a core of the
sealed world a halt request is a denial that stays pending, and STEP = 1 is ignored. -/
def State.corectlWritten (s : State) (n : Nat) (v : Word) : State :=
  let halt := flag v 0
  let step := flag v 1
  let s := s.setCtl n dbgCorectl_HALT (b2n halt)
  if s.coreWorld n then
    let s := s.setCtl n dbgCorectl_STEP 0
    if halt then (s.setCtl n dbgCorectl_PEND 1).dbgDeny true n else s.setCtl n dbgCorectl_PEND 0
  else
    let s := (s.setCtl n dbgCorectl_STEP (b2n step)).setSS (s.unit n) step
    if halt then (if s.rf (.dbgCorectl n) dbgCorectl_HALTED = 1 then s else s.setCtl n dbgCorectl_PEND 1)
    else s.haltRelease n

/-- CORE_HALTED (R374): core n honours a pending halt at the next boundary of its contexts, and source 595 is reported. -/
def execCoreHalted (n : Nat) (s : State) : Host.Outcome State Fault Refusal :=
  if 112 ≤ n then .refused .illFormed
  else if s.rf (.dbgCorectl n) dbgCorectl_PEND = 0 ∨ s.coreWorld n = true ∨ s.serving = false
      ∨ ((s.ctx (s.unit n) 0).atBoundary && (s.ctx (s.unit n) 1).atBoundary) = false then .next s
  else
    let s := (s.setCtl n dbgCorectl_HALTED 1).setCtl n dbgCorectl_PEND 0
    .next ({ s with haltAt := tset s.haltAt (s.unit n) s.now }.report 595)

end Sys2Proof.Machine
end

