-- ==== Sys2Proof/Machine/Volt.lean ====
section
/-! DEFINITION. Operating points, the VDD_CORE rail, power and thermal limits ("Power domains, clocks and reset", R590-R593; R611). -/

namespace Sys2Proof.Machine

open Sys2Proof

/-! ## The rail (R611) -/

/-- The setpoint of a domain's operating point in mV (R590, R591); 0 for a domain to which none is given. -/
def State.setpoint (s : State) (d : Nat) : Nat :=
  if d < 24 then 750
  else if d < 56 then [900, 820, 750, 700, 650, 600].getD (s.rf (.pwrDvfs (d - 24)) pwrDvfs_CUR) 600
  else 0

/-- The target in mV that the present requirements of the switched-on domains call for. -/
def State.railNeed (s : State) : Nat :=
  let reqs := (List.range 56).map (fun d =>
    if s.rf (.pwrDom d) pwrDom_STATE = 1 then s.setpoint d + s.rf (.ageDom d) ageDom_OFFSET else 0)
  roundUp (reqs.foldl Nat.max 0 + 40) 5

/-- The target follows a requirement that has fallen, no raise being asked for. -/
def State.railLower (s : State) : State :=
  if s.avsAsk.isNone ∧ s.railNeed < s.avsTarget then { s with avsTarget := s.railNeed } else s

/-- A raise of voltage that makes the state t out of s: made at once when the target allows it; otherwise the target is raised and
the acknowledgement is awaited, and after a missing one nothing is raised. -/
def State.railRaise (s t : State) : State :=
  if t.railNeed ≤ s.avsTarget ∧ s.avsAsk.isNone then t
  else if s.avsHold then s
  else { s with avsAsk := some ((s.avsAsk).getD s.now) }

/-! ## Operating points (R590) -/

/-- The point group j should run at: the slowest of REQ, the power cap and the thermal cap. -/
def State.groupPoint (s : State) (j : Nat) : Nat :=
  Nat.max (s.rf (.pwrDvfs j) pwrDvfs_REQ) (Nat.max (tget s.pcap j 0) (tget s.tcap j 0))

/-- Group j moves toward its point: to a slower one at once, its voltage following; to a faster one once the rail allows it. -/
def State.groupMove (s : State) (j : Nat) : State :=
  let s := s.setRf (.pwrDvfs j) pwrDvfs_CAP (Nat.max (tget s.pcap j 0) (tget s.tcap j 0))
  let p := s.groupPoint j
  let cur := s.rf (.pwrDvfs j) pwrDvfs_CUR
  if cur < p then (s.setRf (.pwrDvfs j) pwrDvfs_CUR p).railLower
  else if p < cur then s.railRaise (s.setRf (.pwrDvfs j) pwrDvfs_CUR p)
  else s

/-- Every group moves toward its point. -/
def State.groupsMove (s : State) : State := (List.range 32).foldl (fun s j => s.groupMove j) s

/-- AVS_ACKNOWLEDGEMENT (R611): the regulator acknowledges the raised target; the raises that waited proceed. -/
def execAvsAcknowledgement (s : State) : Host.Outcome State Fault Refusal :=
  if s.avsAsk.isNone then .next s
  else
    let want := (List.range 32).foldl (fun (t : State) j => t.setRf (.pwrDvfs j) pwrDvfs_CUR (t.groupPoint j)) s
    let s := { s with avsAsk := none, avsHold := false, avsTarget := Nat.max s.avsTarget (want.railNeed + s.avsOff) }
    .next { s.groupsMove with avsOff := 0 }

/-- AVS_ACK_TIMEOUT (R611): no acknowledgement for 1 ms; nothing is raised until the regulator answers again, and source 495 is
reported. -/
def execAvsAckTimeout (s : State) : Host.Outcome State Fault Refusal :=
  match s.avsAsk with
  | none => .next s
  | some t => .next (({ s with avsHold := true }.advanceTo (t + 1000000)).report 495)

/-! ## The package limit (R592) -/

/-- The group with the fastest effective point, the lowest number on a tie, whose power cap can fall. -/
def State.fastestGroup (s : State) : Option Nat :=
  (List.range 32).foldl (fun (b : Option Nat) j =>
    if 5 ≤ tget s.pcap j 0 then b
    else match b with
      | none => some j
      | some i => if s.rf (.pwrDvfs j) pwrDvfs_CUR < s.rf (.pwrDvfs i) pwrDvfs_CUR then some j else b) none

/-- The group with the slowest power cap, the highest number on a tie, that has one. -/
def State.slowestGroup (s : State) : Option Nat :=
  (List.range 32).foldl (fun (b : Option Nat) j =>
    if tget s.pcap j 0 = 0 then b
    else match b with
      | none => some j
      | some i => if tget s.pcap i 0 ≤ tget s.pcap j 0 then some j else b) none

/-- POWER_CONTROL (R592): 10 µs have passed, over which the package drew the given power in W. -/
def execPowerControl (watts : Nat) (s : State) : Host.Outcome State Fault Refusal :=
  if 512 ≤ watts then .refused .illFormed
  else if s.porLow = true ∨ s.wrstLow = true then .next s
  else
    let s := (s.advanceTo (s.now + 10000)).setRf .pwrPkg pwrPkg_POWER watts
    let limit := s.rf .pwrLimit pwrLimit_WATTS
    if limit < watts then
      let s := { s with powerLow := none }
      match s.fastestGroup with
      | none => .next s
      | some j => .next ({ s with pcap := tset s.pcap j (tget s.pcap j 0 + 1) }.groupMove j)
    else if watts + 10 ≤ limit then
      match s.powerLow with
      | none => .next { s with powerLow := some s.now }
      | some t =>
        if s.now < t + 1000000 then .next s
        else
          let s := { s with powerLow := some s.now }
          match s.slowestGroup with
          | none => .next s
          | some j => .next ({ s with pcap := tset s.pcap j (tget s.pcap j 0 - 1) }.groupMove j)
    else .next { s with powerLow := none }

/-! ## Temperature (R593, R622) -/

/-- The junction temperature of a domain in °C. -/
def State.domTemp (s : State) (d : Nat) : Int := signExtend (s.rf (.pwrDom d) pwrDom_TEMP) 8

/-- LIMITED of a domain: a thermal limit applies. -/
def State.setLimited (s : State) (d : Nat) (b : Bool) : State := s.setRf (.pwrDom d) pwrDom_LIMITED (b2n b)

/-- The thermal cap of a W-core group moves. -/
def State.setTcap (s : State) (j v : Nat) : State :=
  ({ s with tcap := tset s.tcap j v }.setLimited (24 + j) (decide (v ≠ 0))).groupMove j

/-- THERMAL_LIMIT (R593): the junction of domain d comes to a temperature, an 8-bit two's-complement number of °C (stay false), or
has stayed on its side of a threshold for that threshold's time (stay true): above 100 °C for 1 ms, or below 95 °C for 10 ms. -/
def execThermalLimit (d temp : Nat) (stay : Bool) (s : State) : Host.Outcome State Fault Refusal :=
  if 96 ≤ d ∨ 256 ≤ temp then .refused .illFormed
  else if s.porLow = true then .next s
  else
    let old := s.domTemp d
    if stay = false then
      let s := s.setRf (.pwrDom d) pwrDom_TEMP temp
      let new := s.domTemp d
      let side := fun (t : Int) => if 100 < t then 2 else if t < 95 then 0 else 1
      let s := if side old = side new then s else { s with thermAt := tset s.thermAt d s.now }
      let s := if old ≤ 115 ∧ 115 < new then { s with thermAt := tset s.thermAt (96 + d) s.now } else s
      if old ≤ 100 ∧ 100 < new then
        let s := s.raise 7 d 0x32 0 0
        .next (if s.rf (.pwrDom d) pwrDom_THERM = 1 then s else (s.setRf (.pwrDom d) pwrDom_THERM 1).report (400 + d))
      else .next s
    else if temp ≠ s.rf (.pwrDom d) pwrDom_TEMP ∨ (old ≤ 100 ∧ 95 ≤ old) then .next s
    else
      let s := s.advanceTo (tget s.thermAt d 0 + (if 100 < old then 1000000 else 10000000))
      let s := { s with thermAt := tset s.thermAt d s.now }
      if d < 24 then .next (s.setLimited d (decide (100 < old)))
      else if d < 56 then
        let j := d - 24
        let cap := tget s.tcap j 0
        .next (if 100 < old then s.setTcap j (Nat.min 5 (cap + 1)) else s.setTcap j (cap - 1))
      else .next s

/-- THERMTRIP (R622): a junction has stayed above 115 °C for 100 µs; THERMTRIP_N goes low until power-on reset. -/
def execThermtrip (d : Nat) (s : State) : Host.Outcome State Fault Refusal :=
  if 96 ≤ d then .refused .illFormed
  else if s.domTemp d ≤ 115 ∨ s.porLow = true then .next s
  else .next ({ s with pinThermtrip := true }.advanceTo (tget s.thermAt (96 + d) 0 + 100000))

end Sys2Proof.Machine
end

