-- ==== Sys2Proof/Machine/Mon.lean ====
section
/-! DEFINITION. Ageing measurements and the monitor units ("Dependability, ageing and monitors", R542-R554). -/

namespace Sys2Proof.Machine

open Sys2Proof

/-! ## Ageing (R542-R546) -/

/-- The domain kind of a domain (R585). -/
def domKind (d : Nat) : Nat :=
  if d < 24 then 0 else if d < 56 then 1 else if d < 64 then 2 else if d < 68 then 3 else if d < 80 then 4
  else if d < 84 then 5 else if d < 86 then 6 else if d = 86 then 7 else if d < 89 then 8 else if d = 89 then 9
  else if d < 92 then 10 else if d < 94 then 11 else if d = 94 then 12 else 13

/-- CAP of a domain: the image's for its kind. -/
def State.ageCap (s : State) (d : Nat) : Nat := s.rf (.ageDom d) ageDom_CAP

/-- required of R543 for a deficit. -/
def State.ageRequired (s : State) (d deficit : Nat) : Nat :=
  match s.curveOf (16 + domKind d) with
  | none => 0
  | some c => curve c deficit

/-- DAYSLEFT of R544: the room left, over the least-squares slope of the history of required, in days. -/
def daysLeft (room : Nat) (h : List (Nat × Nat)) : Nat :=
  let n := h.length
  let st := (h.map (fun e => e.1)).sum
  let sr := (h.map (fun e => e.2)).sum
  let stt := (h.map (fun e => e.1 * e.1)).sum
  let str := (h.map (fun e => e.1 * e.2)).sum
  let num := n * str - st * sr
  let den := n * stt - st * st
  if num = 0 then 0xFFFF
  else
    let d := room * den / (num * 86400000000000)
    if 65534 < d then 0xFFFF else d

/-- One measurement of domain d that finds a slack in ps (R543-R545): OFFSET moves toward required by at most 5 mV, once the
rail allows a rise (R611), and DAYSLEFT follows from the 30-day history of required. -/
def State.ageMeasure (s : State) (d slack : Nat) : State :=
  let target := (tget s.cfg.slackT (domKind d) (0, 0)).1
  let deficit := ((target : Int) - signExtend slack 16).toNat
  let req := s.ageRequired d deficit
  let cap := s.ageCap d
  let off := s.rf (.ageDom d) ageDom_OFFSET
  let runs := if cap < req then tget s.ageOver d 0 + 1 else 0
  let hist := (tget s.ageHist d []).filter (fun (e : Nat × Nat) => decide (s.now < e.1 + 2592000000000000)) ++ [(s.now, req)]
  let off' := if 3 ≤ runs ∨ s.rf (.ageDom d) ageDom_STATE = 2 then cap
    else Nat.min cap (if off < req then Nat.min req (off + 5) else Nat.max req (off - 5))
  let s := { s with ageOver := tset s.ageOver d runs, ageHist := tset s.ageHist d hist }
  let s := s.setRf (.ageDom d) ageDom_SLACK slack
  let t := s.setRf (.ageDom d) ageDom_OFFSET off'
  let s := if off < off' then
      (if t.railNeed ≤ s.avsTarget ∧ s.avsAsk.isNone then t
       else if s.avsHold then s
       else { s.railRaise t with avsOff := Nat.max s.avsOff 5 })
    else t.railLower
  let s := s.setRf (.ageDom d) ageDom_DAYSLEFT (daysLeft (cap - s.rf (.ageDom d) ageDom_OFFSET) hist)
  let st := s.rf (.ageDom d) ageDom_STATE
  if 2 ≤ st then s
  else if runs = 3 then (s.setRf (.ageDom d) ageDom_STATE 2).raise 7 d 0x31 0 0
  else if 3 * cap ≤ 4 * req ∧ cap ≠ 0 then
    if st = 1 then s else (s.setRf (.ageDom d) ageDom_STATE 1).raise 7 d 0x30 0 0
  else s.setRf (.ageDom d) ageDom_STATE 0

/-- The time at which the current round of measurements was made. -/
def State.ageRound (s : State) : Nat := tget s.ageAt 96 0

/-- The round that takes in a measurement of domain d: the current one, or, once d has been measured in it, the next, AGE.CFG.PERIOD
later, when the period ends, which is the boundary of PERIOD (R547). -/
def State.ageTurn (s : State) (d : Nat) : State :=
  if tget s.ageAt d 0 < s.ageRound then s
  else
    let t := s.ageRound + s.rf .ageCfg ageCfg_PERIOD * 1000000
    ({ s with ageAt := tset s.ageAt 96 t }.advanceTo t).boundary .ageCfg

/-- AGE_MEASUREMENT (R542, R543): every AGE.CFG.PERIOD the slack of each domain is measured, here that of domain d, as a 16-bit
two's-complement number of ps. -/
def execAgeMeasurement (d slack : Nat) (s : State) : Host.Outcome State Fault Refusal :=
  if 96 ≤ d ∨ 65536 ≤ slack then .refused .illFormed
  else if s.serving = false ∨ s.rf (.pwrDom d) pwrDom_STATE ≠ 1 then .next s
  else
    let s := s.ageTurn d
    .next ({ s with ageAt := tset s.ageAt d s.ageRound }.ageMeasure d slack)

/-! ## Monitors (R551-R553) -/

/-- The live values of a monitor unit. -/
def State.monLive (s : State) (m : Nat) : MonRun := tget s.mons m MonRun.start

/-- bin_of of R552. -/
def State.binOf (s : State) (m x : Nat) : Nat :=
  let lo := (s.reg (.monLo m)).toNat
  if s.rf (.monCtl m) monCtl_MODE = 0 then
    if x < lo then 0 else Nat.min (1 + (x - lo) / s.rf (.monRange m) monRange_WIDTH) 31
  else
    let y := x >>> s.rf (.monRange m) monRange_SHIFT
    if y < 4 then y
    else
      let e := Nat.log2 y
      Nat.min (4 * (e - 1) + bits y (e - 1) (e - 2)) 31

/-- A sample of unit m (R553). -/
def State.monSample (s : State) (m x : Nat) : State :=
  let r := s.monLive m
  let b := s.binOf m x
  let top := 2 ^ 32 - 1
  let r' : MonRun := { min := Nat.min r.min x, max := Nat.max r.max x, count := satAdd r.count 1 top
                       bins := tset r.bins b (satAdd (tget r.bins b 0) 1 top) }
  let s := { s with mons := tset s.mons m r' }
  if s.rf (.monCtl m) monCtl_ALARMEN = 1 ∧ (s.reg (.monAlarm m)).toNat ≤ x then s.report (496 + m) else s

/-- The quantities that are levels, with their present value (R551): junction temperature, OFFSET, package power, commit-buffer
entries, class-queue occupancy and staged journal; none for a latency, whose value the sample brings. -/
def State.monLevel (s : State) (sel ix : Nat) : Option Nat :=
  match sel with
  | 0x10 => some (s.rf (.pwrDom ix) pwrDom_TEMP)
  | 0x11 => some (s.rf (.ageDom ix) ageDom_OFFSET)
  | 0x12 => some (s.rf .pwrPkg pwrPkg_POWER)
  | 0x13 => some (s.bufferUsed (2 * ix))
  | 0x14 => some (tget s.queues ix []).length
  | 0x15 => some (s.notDurable / 1024)
  | _ => none

/-- How many instances a quantity has; none for a reserved SEL, some 0 for a quantity without instances. -/
def monInstances (sel : Nat) : Option Nat :=
  match sel with
  | 0x00 => some 0
  | 0x01 => some 16
  | 0x02 => some 64
  | 0x03 => some 16
  | 0x04 => some 0
  | 0x05 => some 4
  | 0x06 => some 112
  | 0x07 => some 12
  | 0x08 => some 64
  | 0x09 => some 64
  | 0x10 => some 96
  | 0x11 => some 96
  | 0x12 => some 0
  | 0x13 => some 24
  | 0x14 => some 64
  | 0x15 => some 0
  | _ => none

/-- MONITOR_SAMPLE (R551, R553): unit m takes a sample of its quantity at instance ix, x being the latency in ns; of a level the sample
is the level's present value. How a temperature below zero enters is not stated: a free value. -/
def execMonitorSample (m ix x : Nat) (s : State) : Host.Outcome State Fault Refusal :=
  if 32 ≤ m then .refused .illFormed
  else
    let sel := s.rf (.monCtl m) monCtl_SEL
    let filter := s.rf (.monCtl m) monCtl_FILTER
    match monInstances sel with
    | none => .next s
    | some n =>
      if s.rf (.monCtl m) monCtl_RUN = 0 ∨ sel = 0 ∨ (n = 0 ∧ ix ≠ 0) ∨ (n ≠ 0 ∧ n ≤ ix)
          ∨ (n ≠ 0 ∧ filter ≠ 0xFFFF ∧ filter ≠ ix) ∨ s.serving = false then
        .next s
      else if sel = 0x10 ∧ 128 ≤ s.rf (.pwrDom ix) pwrDom_TEMP then
        let (v, s) := s.draw
        .next (s.monSample m (v % 2 ^ 64))
      else .next (s.monSample m ((s.monLevel sel ix).getD x))

/-- What a write of MON.CTL does beside its fields (R553): SNAP before CLEAR. -/
def State.monWritten (s : State) (m : Nat) (v : Word) : State :=
  let r := s.monLive m
  let s := if flag v 33 then
      let s := ((s.setReg (.monMin m) (word r.min)).setReg (.monMax m) (word r.max)).setReg (.monCount m) (word r.count)
      (List.range 32).foldl (fun s b => s.setReg (.monBin m b) (word (tget r.bins b 0))) s
    else s
  if flag v 34 then { s with mons := tset s.mons m MonRun.start } else s

end Sys2Proof.Machine
end

