-- ==== Sys2Proof/Machine/Pwr.lean ====
section
/-! DEFINITION. Power domains, clocks and reset ("Power domains, clocks and reset", R585-R603; R614, R615). -/

namespace Sys2Proof.Machine

open Sys2Proof

/-! ## Domains (R585-R589) -/

/-- Software may switch the domain off and on. -/
def switchable (d : Nat) : Bool :=
  decide (d < 56) || (decide (68 ≤ d) && decide (d < 83)) || decide (d = 87) || decide (d = 88)

/-- The key units of a key-engine domain. -/
def unitsOfKeyDomain (d : Nat) : List Nat := (List.range 38).filter (fun u => decide (domainOfUnit u = d))

/-- Some class, CROSS queue or remote-PASS service names pair k. -/
def State.pairNamed (s : State) (k : Nat) : Bool :=
  (List.range 64).any (fun q => bit (s.rf (.ingClass q) ingClass_PAIRS) k || bit (s.rf (.xqcfg q) xqcfg_SERVERS) k)
    || bit (s.rf .cdlRpass cdlRpass_PAIRS) k

/-- Both contexts of a core are IDLE, or the core is held in reset. -/
def State.coreIdle (s : State) (n : Nat) : Bool :=
  (s.core (s.unit n)).held || (decide ((s.ctx (s.unit n) 0).st = .idle) && decide ((s.ctx (s.unit n) 1).st = .idle))

/-- Every unit of a switchable domain is idle (R586). -/
def State.domIdle (s : State) (d : Nat) : Bool :=
  if d < 24 then !(s.pairNamed d) && s.coreIdle (2 * d) && s.coreIdle (2 * d + 1)
  else if d < 56 then s.coreIdle (2 * d) && s.coreIdle (2 * d + 1)
  else if 68 ≤ d ∧ d < 80 then !(s.linkEn (d - 68)) && decide (s.linkState (d - 68) = lsDOWN)
  else if 80 ≤ d ∧ d < 83 then (unitsOfKeyDomain d).all (fun u => decide (s.rf (.keyUctl u) keyUctl_EN = 0) && decide (tget s.kbusy u 0 ≤ 10 * s.now))
  else if d = 87 ∨ d = 88 then
    let st := s.jcState (d - 87)
    decide (st = jsABSENT) || decide (st = jsREFUSED) || decide (st = jsFAILED)
  else false

/-- The cores of a domain, each pair under its even core. -/
def State.domCores (s : State) (d : Nat) : List Nat :=
  if d < 56 then (if s.paired (2 * d) then [2 * d] else [2 * d, 2 * d + 1]) else []

/-- The windowed registers of a domain's units (R587). -/
def windowed (d : Nat) (r : Reg) : Bool :=
  match r with
  | .cdlLctl l | .cdlLstat l | .cdlLcnt l => decide (d = 68 + l)
  | .keyUctl u | .keyUstat u => decide (d = domainOfUnit u)
  | _ => false

/-- The register belongs to a unit whose domain is OFF or retired: it reads as its reset value and ignores writes. -/
def State.regOff (s : State) (r : Reg) : Bool :=
  let off := fun (d : Nat) => decide (s.rf (.pwrDom d) pwrDom_STATE = 0) || decide (s.rf (.pwrDom d) pwrDom_STATE = 3)
  match r with
  | .cdlLctl l | .cdlLstat l | .cdlLcnt l => off (68 + l)
  | .keyUctl u | .keyUstat u => off (domainOfUnit u)
  | _ => false

/-- The value a register takes when its unit loses its state: its reset value, or what the image gave it where the reset column says
so. -/
def State.regAtReset (s : State) (r : Reg) : Word := tget s.imgRegs r r.reset

/-- SWITCHED of a domain is set; source 400 + d is reported. -/
def State.switched (s : State) (d : Nat) : State := (s.setRf (.pwrDom d) pwrDom_SWITCHED 1).report (400 + d)

/-- A domain is switched off within 1 µs, and its units keep no state (R587, R588). -/
def State.domOff (s : State) (d : Nat) : State :=
  let s := s.advanceTo (s.now + 1000)
  let s := (s.domCores d).foldl (fun s n =>
    let s := s.resetCoreState n
    let s := s.setCore n { s.core n with held := true, off := true, csBad := [], csFailed := false }
    { s with tcms := tdel s.tcms n }) s
  let s := { s with regs := s.regs.filter (fun e => !(windowed d e.1)), switchAt := tdel s.switchAt d }
  (s.setRf (.pwrDom d) pwrDom_STATE 0).switched d |>.railLower

/-- A domain begins to be switched on (R588). -/
def State.domOn (s : State) (d : Nat) : State :=
  { s.setRf (.pwrDom d) pwrDom_STATE 2 with switchAt := tset s.switchAt d (s.now, []) }

/-- What a write that changed PWR.DOM[d].REQ does. -/
def State.domWritten (s : State) (d : Nat) (old : Word) : State :=
  let req := s.rf (.pwrDom d) pwrDom_REQ
  let was := fld old 0 0
  if req = was then s
  else if req = 1 then s.domOn d
  else s.domOff d

/-- A core leaves the reset of a switch-on or a domain reset: its control store reloaded (R328), its TCM loaded from the image, and its
state that of R125 (R588). A retired core stays held. -/
def State.coreStart (s : State) (n : Nat) : State :=
  if s.isRetired 0 n then s
  else
    let s := (s.setCore n { s.core n with off := false }).csAgain n
    let s := (s.resetCoreState n).tcmReload n
    s.setCore n { s.core n with held := !s.serving, off := false }

/-! ## Clocks (R594, R597, R614) -/

/-- The clock of core n runs. -/
def State.clockRuns (s : State) (n : Nat) : Bool := !(s.pllOff.contains (if n < 48 then 0 else 1))

/-- The power domains whose units a clock domain drives, in the order of R594. -/
def clockDomains (n : Nat) : List Nat :=
  match n with
  | 0 => List.range 24
  | 1 => (List.range 32).map (fun j => 24 + j)
  | 2 => (List.range 8).map (fun j => 56 + j) ++ [89, 90, 91, 92, 93]
  | 3 => [80, 81, 82, 83]
  | 4 => [84, 85]
  | 5 => [64]
  | 6 => [65]
  | 7 => [66]
  | 8 => [67]
  | 9 => (List.range 12).map (fun j => 68 + j)
  | 10 => [86]
  | 11 => [87, 88]
  | 12 => [94]
  | _ => [95]

/-- A reset of a pair (R598, R599): transactions are discarded and their frames redispatched, services end, store-buffer entries not
yet compared are discarded, and both cores start as R125 states with their TCMs reloaded. -/
def State.pairReset (s : State) (k : Nat) : State :=
  let n := 2 * k
  let s := (((s.discardTx n 0 none).discardTx n 1 none).loseService n 0).loseService n 1
  (({ s with cbuf := tset s.cbuf n [] }.resetStores n).resetCoreState n).tcmReload n

/-- A reset of a core: of a lockstep pair, of both its cores (R599). -/
def State.oneReset (s : State) (n : Nat) : State := if s.paired n then s.pairReset (n / 2) else s.coreReset n

/-- PLL_UNLOCK (R597): the PLL of clock domain n loses lock and its clock stops; of the P-cores, every pair is reset. -/
def execPllUnlock (n : Nat) (s : State) : Host.Outcome State Fault Refusal :=
  if 13 ≤ n then .refused .illFormed
  else if s.pllOff.contains n = true ∨ s.porLow = true then .next s
  else
    let s := { s with pllOff := s.pllOff ++ [n] }.setReg .clkStat (setFlag (s.reg .clkStat) n true)
    let s := (clockDomains n).foldl (fun s d => s.report (400 + d)) s
    .next (if n = 0 then ((List.range 24).filter (fun k => s.paired (2 * k))).foldl (fun s k => s.pairReset k) s else s)

/-- PLL_LOCK_REGAINED (R597): the clock of domain n runs again. -/
def execPllLockRegained (n : Nat) (s : State) : Host.Outcome State Fault Refusal :=
  if 13 ≤ n then .refused .illFormed
  else if s.pllOff.contains n = false then .next s
  else .next { s with pllOff := s.pllOff.filter (fun c => decide (c ≠ n)) }

/-- REFERENCE_CLOCK_LOST (R614): the 100 MHz reference disappears; the host link and both ports are held in reset, and a slot in MIRROR
or RESILVER becomes FAILED with REASON 11. -/
def execReferenceClockLost (s : State) : Host.Outcome State Fault Refusal :=
  if s.ref100 = false then .next s
  else
    let s := { s with ref100 := false }.setReg .clkStat (setFlag (s.reg .clkStat) 17 false)
    .next ([0, 1].foldl (fun s j =>
      if s.jcState j = jsMIRROR ∨ s.jcState j = jsRESILVER then s.jcFail j 11 else s) s)

/-- REFERENCE_CLOCK_RESTORED (R614): the reference returns; a seated cartridge whose slot waited for it enters ATTEST. -/
def execReferenceClockRestored (s : State) : Host.Outcome State Fault Refusal :=
  if s.ref100 = true ∨ s.porLow = true then .next s
  else
    let s := { s with ref100 := true }.setReg .clkStat (setFlag (s.reg .clkStat) 17 true)
    .next ([0, 1].foldl (fun s j =>
      if s.jcState j = jsABSENT ∧ (tfind s.carts j).isSome = true ∧ s.portsRun j = true then s.jcSet j jsATTEST 0 else s) s)

/-! ## Block resets (R601) -/

/-- A fabric link is reset: DOWN, and trained again while LCTL.EN is 1. -/
def State.linkReset (s : State) (l : Nat) : State := ((if s.linkState l = lsDOWN then s else s.linkDown l 0)).linkTrain l

/-- A cartridge slot is reset: its port is held in reset for 10 ms, and a seated cartridge is attested again; entries it had not
acknowledged are sent anew. A retired slot stays as it is. -/
def State.slotReset (s : State) (j : Nat) : State :=
  let s := { s with jslot := tset s.jslot j { s.jrun j with heldTo := s.now + 10000000 } }
  if (tfind s.carts j).isNone ∨ s.isRetired 8 j = true ∨ s.portsRun j = false then s
  else
    let s := { s with staged := s.staged.map (fun (e : JEntry) => if e.ack j then e else e.unsend j) }
    ((s.jcSet j jsATTEST 0).copyRestart (1 - j)).jcUpdate

/-- A monitor unit is reset: its registers take their reset values. -/
def State.monReset (s : State) (m : Nat) : State :=
  { s with
    mons := tdel s.mons m
    regs := s.regs.filter (fun e => match e.1 with
      | .monCtl i | .monRange i | .monLo i | .monAlarm i | .monMin i | .monMax i | .monCount i | .monBin i _ => decide (i ≠ m)
      | _ => true) }

/-- A key unit is reset: a running command ends with ENGINE_FAULT, and the unit self-tests before it starts another. Whether a unit
that had failed its self-test passes this one is a free choice. -/
def State.unitReset (s : State) (u : Nat) : State :=
  let s := s.failRunning u
  if s.rf (.keyUstat u) keyUstat_STATE = 2 then
    let (v, s) := s.draw
    if v % 2 = 0 then s else s.setRf (.keyUstat u) keyUstat_STATE (if s.rf (.keyUctl u) keyUctl_EN = 1 then 0 else 1)
  else s

/-- A frame that has landed ends before it is parsed, with an outcome (R439, R601). -/
def State.endLanded (s : State) (p : PFrame) (outcome : Nat) : State :=
  let s := s.satRf (.ingLstat p.lane) ingLstat_ERR 1
  { s with egr := s.egr ++ [(⟨p.lane, none, 0, outcome, p.tag, 0, 0, p.tag⟩ : Resp)]
           slots := s.slots.filter (fun x => decide (x ≠ p.slot)) }.report (4 * p.lane)

/-- An ingress lane is reset: its frames in flight end RING_ERROR and LPTR takes its reset value. -/
def State.laneReset (s : State) (l : Nat) : State :=
  let s := match tfind s.lanes l with
    | none => s
    | some j =>
      let s := { s with lanes := tdel s.lanes l }.satRf (.ingLstat l) ingLstat_ERR 1
      { s with egr := s.egr ++ [(⟨l, none, 0, 4, j.tag, 0, 0, 0⟩ : Resp)] }.report (4 * l)
  let mine := s.parseQ.filter (fun p => decide (p.lane = l))
  let s := { s with parseQ := s.parseQ.filter (fun p => decide (p.lane ≠ l)) }
  let s := mine.foldl (fun s p => s.endLanded p 4) s
  let waiting := s.queues.flatMap (fun e => e.2.filter (fun f => decide (f.lane = l)))
  let s := { s with queues := s.queues.map (fun (e : Nat × List Frame) => (e.1, e.2.filter (fun f => decide (f.lane ≠ l)))) }
  (waiting.foldl (fun s f => s.endFrame f 4) s).setReg (.ingLptr l) 0

/-! ## Domain and device resets (R598) -/

/-- A domain is reset: every unit of it, as a switch-on does; registers keep their values, no narrower reset being named for them
(R8). -/
def State.domainReset (s : State) (d : Nat) : State :=
  if s.rf (.pwrDom d) pwrDom_STATE ≠ 1 then s
  else if d < 56 then
    (s.domCores d).foldl (fun s n => (s.oneReset n).coreStart n) s
  else if 68 ≤ d ∧ d < 80 then s.linkReset (d - 68)
  else if 80 ≤ d ∧ d < 84 then (unitsOfKeyDomain d).foldl (fun s u => s.unitReset u) s
  else if d = 84 then (List.range 16).foldl (fun s l => s.laneReset l) s
  else if d = 85 then
    { s with slots := s.slots.filter (fun x => !(s.egr.any (fun r => decide (r.slot = some x)))), egr := [] }
  else if d = 87 ∨ d = 88 then s.slotReset (d - 87)
  else s

/-- The kept fields of a register after a warm device reset (R8). -/
def keptWord (r : Reg) (v : Word) : Word :=
  r.fields.foldl (fun w f => if f.kept then setFld w f.hi f.lo (fld v f.hi f.lo) else w) r.reset

/-- The registers after a warm device reset: every field at its reset value but those kept, and the RETIRED records (R548). -/
def keptRegs (s : State) : Tab Reg Word :=
  s.regs.filterMap (fun e =>
    let isRec := fun (i : Nat) => decide (s.rf (.depRec i) depRec_V = 1) && decide (s.rf (.depRec i) depRec_EVENT = 0x48)
    match e.1 with
    | .depRec i | .depFirst i | .depLast i | .depDetail i => if isRec i then some e else none
    | r =>
      let w := keptWord r e.2
      if w = r.reset then none else some (r, w))

/-- What outlives every reset: the commands that wait, the outside world (flash, cartridges, pins) and the fuses. -/
def State.outlives (s : State) (t : State) : State :=
  { t with
    pending := s.pending, free := s.free, flash := s.flash, carts := s.carts, fuseKey := s.fuseKey, fuseRoot := s.fuseRoot
    vendorRoot := s.vendorRoot, porLow := s.porLow, ref100 := s.ref100, wrstLow := s.wrstLow, hostHeld := s.hostHeld, tampLevel := s.tampLevel
    retLog := s.retLog }

/-- The fuses in the registers of SYS: SERIAL, ID, the fused fields of FUSE and LDREC, and ARMED of TAMPER. -/
def State.fuseRegs (s : State) (t : State) : State :=
  let t := ((t.setReg .sysId (s.reg .sysId)).setReg .sysSerial (s.reg .sysSerial)).setReg .sysFuse (s.reg .sysFuse)
  let t := (t.setRf .sysLdrec sysLdrec_LDLIMIT (s.rf .sysLdrec sysLdrec_LDLIMIT)).setRf .sysLdrec sysLdrec_LDCOUNT
    (s.rf .sysLdrec sysLdrec_LDCOUNT)
  (t.setRf .sysTamper sysTamper_ARMED (s.rf .sysFuse sysFuse_TAMPFUSE)).setRf .sysTamper sysTamper_LEVEL s.tampLevel

/-- The warm device reset, with the cause RSTAT shows (R598); ignored in LOCKDOWN (R577). The device then stands in SELFTEST. -/
def State.warmReset (s : State) (cause : Nat) : State :=
  if s.mode = mdLOCKDOWN then s
  else
    let t := s.outlives State.reset
    let t := { t with
      regs := keptRegs s, devKey := s.devKey, retired := s.retired, region := s.region, fixed := s.fixed, mem := s.mem
      rowBad := s.rowBad, pinLockdown := s.pinLockdown, pinThermtrip := s.pinThermtrip }
    let t := s.fuseRegs t
    let used := ((List.range 1024).filter (fun r => decide (t.rf (.depRec r) depRec_V = 1))).length
    let t := t.setRf .depStat depStat_USED used
    ((t.setRf .pwrRstat pwrRstat_LAST cause).setRf .sysMode sysMode_MODE mdSELFTEST).report 576

/-- The RETIRED records of DEP, as registers (R539). -/
def retiredRegs (s : State) : Tab Reg Word :=
  (keptRegs s).filter (fun e => match e.1 with
    | .depRec _ | .depFirst _ | .depLast _ | .depDetail _ => true
    | _ => false)

/-- Power-on reset: every state outside fuses is cleared (R598); after a LOCKDOWN, SYS.LDREC and the RETIRED records survive it (R579). -/
def State.powerOff (s : State) : State :=
  let t := s.outlives State.reset
  if s.mode = mdLOCKDOWN then
    let t := (s.fuseRegs { t with regs := retiredRegs s }).setReg .sysLdrec (s.reg .sysLdrec)
    (t.setRf .depStat depStat_USED ((List.range 1024).filter (fun r => decide (t.rf (.depRec r) depRec_V = 1))).length)
  else s.fuseRegs t

/-- What a write of PWR.RESET does (R598-R602); true when the write carries a reserved value in INDEX or CLASS that its OP uses. -/
def resetReserved (v : Word) : Bool :=
  let op := fld v 2 0
  let ix := fld v 14 8
  let cl := fld v 23 20
  match op with
  | 2 => decide (96 ≤ ix)
  | 3 => decide (24 ≤ ix)
  | 4 => decide (112 ≤ ix)
  | 5 => (match cl with
    | 0 => decide (12 ≤ ix)
    | 1 => decide (2 ≤ ix)
    | 2 => decide (38 ≤ ix)
    | 3 => decide (32 ≤ ix)
    | 4 => decide (16 ≤ ix)
    | _ => true)
  | 6 | 7 => true
  | _ => false

/-- The domain that holds the unit which a write of PWR.RESET names, for a unit of a domain. -/
def resetDomain (v : Word) : Option Nat :=
  let ix := fld v 14 8
  match fld v 2 0 with
  | 2 => some ix
  | 3 => some ix
  | 4 => some (domainOfCore ix)
  | 5 => (match fld v 23 20 with
    | 0 => some (68 + ix)
    | 1 => some (87 + ix)
    | 2 => some (domainOfUnit ix)
    | _ => none)
  | _ => none

/-- The reset of one unit or domain that a value of PWR.RESET names. -/
def State.resetUnit (s : State) (v : Word) : State :=
  let ix := fld v 14 8
  match fld v 2 0 with
  | 2 => s.domainReset ix
  | 3 => if s.paired (2 * ix) then s.pairReset ix else (s.oneReset (2 * ix)).oneReset (2 * ix + 1)
  | 4 => s.oneReset ix
  | 5 => (match fld v 23 20 with
    | 0 => s.linkReset ix
    | 1 => s.slotReset ix
    | 2 => s.unitReset ix
    | 3 => s.monReset ix
    | _ => s.laneReset ix)
  | _ => s

/-- The reset that a write of PWR.RESET asks for. One that names a unit of a domain which is being switched on is applied when the
domain is on (R600); a unit of a domain that is OFF or retired has no state to reset (R587). -/
def State.resetWritten (s : State) (v : Word) : State :=
  if s.mode = mdLOCKDOWN ∨ resetReserved v = true then s
  else if fld v 2 0 = 1 then s.warmReset 2
  else
    match resetDomain v with
    | none => s.resetUnit v
    | some d =>
      match s.rf (.pwrDom d) pwrDom_STATE with
      | 1 => s.resetUnit v
      | 2 => { s with switchAt := s.switchAt.map (fun e => if e.1 = d then (d, e.2.1, e.2.2 ++ [v]) else e) }
      | _ => s

/-- SWITCH_ON_COMPLETE (R588): domain d is released from reset, and its switched-on report is made;
resets that reached its units meanwhile are applied then (R600). -/
def execSwitchOnComplete (d : Nat) (s : State) : Host.Outcome State Fault Refusal :=
  if 96 ≤ d then .refused .illFormed
  else
    match tfind s.switchAt d with
    | none => .next s
    | some (t, later) =>
      let s := s.advanceTo (t + (if d < 24 then 243000 else if d < 56 then 43000 else 3000))
      let s := { s.setRf (.pwrDom d) pwrDom_STATE 1 with switchAt := tdel s.switchAt d }
      let s := { s with avsTarget := Nat.max s.avsTarget s.railNeed }
      let s : State := (s.domCores d).foldl (fun s n => s.coreStart n) s
      let s : State := s.imgRegs.foldl (fun s e => if windowed d e.1 then s.setReg e.1 e.2 else s) s
      let s : State := if 68 ≤ d ∧ d < 80 then s.linkTrain (d - 68) else s
      let s := if (d = 87 ∨ d = 88) ∧ s.jcState (d - 87) = jsABSENT ∧ (tfind s.carts (d - 87)).isSome = true
          ∧ s.portsRun (d - 87) = true then s.jcSet (d - 87) jsATTEST 0 else s
      .next (later.foldl (fun s v => s.resetUnit v) (s.switched d))

end Sys2Proof.Machine
end

