-- ==== Sys2Proof/Machine/Mgt.lean ====
section
/-! DEFINITION. The management block: boot-flash operations, the UART and the MCTP endpoint ("Signals, package and electrical
characteristics", R620, R624; R555-R557, R560). -/

namespace Sys2Proof.Machine

open Sys2Proof

/-! ## Boot flash (R555, R624) -/

/-- A byte of the boot flash; an unlisted one is erased. -/
def State.flashByte (s : State) (a : Nat) : Byte := aget s.flash a 0xFF

/-- Writes a byte of the boot flash. -/
def State.setFlash (s : State) (a : Nat) (b : Byte) : State := { s with flash := aset s.flash a b 0xFF }

/-- The n bytes of flash from a, as a little-endian number. -/
def State.flashRead (s : State) (a n : Nat) : Nat := ofBytes ((List.range n).map (fun i => (s.flashByte (a + i)).toNat))

/-- The select record or the log area: the offsets that an erase or a program may name (R557, R624). -/
def flashWritable (a : Nat) : Bool := decide (a < 0x1000) || (decide (0x03F00000 ≤ a) && decide (a < 0x04000000))

/-- The first byte and the length of what an operation acts on, its address taken down to its alignment. -/
def flashSpan (op a : Nat) : Nat × Nat := if op = 1 then (a / 4096 * 4096, 4096) else (a / 256 * 256, 256)

/-- An operation ends with an ERR, and reports source 587 (R624). -/
def State.flashEnd (s : State) (err : Nat) : State :=
  ({ (s.setRf .mgtFlcmd mgtFlcmd_ERR err).setRf .mgtFlcmd mgtFlcmd_BUSY 0 with flOp := none }).report 587

/-- What an idle FLCMD does on a write of OP (R624): an erase or a program outside its areas ends at once with ERR 1. -/
def State.flashStart (s : State) (op : Nat) : State :=
  let a := s.rf .mgtFlcmd mgtFlcmd_ADDR
  if op = 0 ∨ 3 < op then s
  else if op ≠ 3 ∧ flashWritable a = false then s.flashEnd 1
  else { s.setRf .mgtFlcmd mgtFlcmd_BUSY 1 with flOp := some (op, a, s.now) }

/-- Word i of FLBUF as bytes, read over all 32 words. -/
def State.flbufByte (s : State) (i : Nat) : Nat := byteOf (s.reg (.mgtFlbuf (i / 8))).toNat (i % 8)

/-- FLBUF takes 256 bytes. -/
def State.setFlbuf (s : State) (f : Nat → Nat) : State :=
  (List.range 32).foldl (fun s w => s.setReg (.mgtFlbuf w) (word (ofBytes ((List.range 8).map (fun j => f (8 * w + j)))))) s

/-- What an operation that completes does to the flash or to FLBUF. What a program makes of a byte that is not erased is not stated: a
free value. -/
def State.flashEffect (s : State) (op a : Nat) : State :=
  let (lo, n) := flashSpan op a
  match op with
  | 1 => (List.range n).foldl (fun s i => s.setFlash (lo + i) 0xFF) s
  | 2 =>
    (List.range n).foldl (fun s i =>
      if s.flashByte (lo + i) = 0xFF then s.setFlash (lo + i) (BitVec.ofNat 8 (s.flbufByte i))
      else
        let (v, s) := s.draw
        s.setFlash (lo + i) (BitVec.ofNat 8 v)) s
  | _ => s.setFlbuf (fun i => (s.flashByte (lo + i)).toNat)

/-- What an operation that fails leaves in the bytes it names is not stated: free values. -/
def State.flashSpoil (s : State) (op a : Nat) : State :=
  let (lo, n) := flashSpan op a
  if op = 3 then
    let base := s.free
    { s with free := s.free + n }.setFlbuf (fun i => Config.freeNat (base + i) % 256)
  else
    (List.range n).foldl (fun s i =>
      let (v, s) := s.draw
      s.setFlash (lo + i) (BitVec.ofNat 8 v)) s

/-- FLASH_OPERATION_DONE (R624): the operation under way ends, with success or with a flash error. -/
def execFlashOperationDone (ok : Bool) (s : State) : Host.Outcome State Fault Refusal :=
  match s.flOp with
  | none => .next s
  | some (op, a, _) => .next (if ok then (s.flashEffect op a).flashEnd 0 else (s.flashSpoil op a).flashEnd 2)

/-- FLASH_OPERATION_TIMEOUT (R624): 2 s without completion. -/
def execFlashOperationTimeout (s : State) : Host.Outcome State Fault Refusal :=
  match s.flOp with
  | none => .next s
  | some (op, a, t) => .next (((s.flashSpoil op a).advanceTo (t + 2000000000)).flashEnd 3)

/-- The flash offset that a device physical address of the boot-flash window names (R620). -/
def State.windowOffset (s : State) (pa : Nat) : Option Nat :=
  let x := pa - 0x0F0012000000
  if 0x0F0012800000 ≤ pa ∧ pa < 0x0F0013000000 ∧ x < 0x01000000 then
    some (s.rf .mgtFwin mgtFwin_BASE + x - 0x00800000)
  else none

/-! ## UART (R620, R624) -/

/-- The time of one character in ns: ten bits at 100 MHz ÷ (16 × DIV). -/
def State.charTime (s : State) : Nat := 1600 * s.rf .mgtUart mgtUart_DIV

/-- The characters that have been sent by now leave the transmit queue, but the last one, whose end is an event of its own; each new
character is a boundary of DIV. -/
def State.uartSync (s : State) : Nat → State
  | 0 => s
  | fuel + 1 =>
    match s.uartTx with
    | _ :: b :: bs =>
      if s.uartAt + s.charTime ≤ s.now then
        let t := s.uartAt + s.charTime
        let s : State := { s with uartTx := b :: bs, uartAt := t }
        (s.boundary .mgtUart).uartSync fuel
      else s
    | _ => s

/-- A write of UDATA queues a byte, unless the queue is full (R624). -/
def State.uartWrite (s : State) (b : Nat) : State :=
  let s := if s.rf .mgtUart mgtUart_EN = 1 then s.uartSync 16 else s
  if 16 ≤ s.uartTx.length then s
  else if s.uartTx.isEmpty then { s.boundary .mgtUart with uartTx := [b], uartAt := s.now }
  else { s with uartTx := s.uartTx ++ [b] }

/-- UDATA as it reads: RXAV, TXFULL and the oldest received byte, which the read removes (R624). -/
def State.uartRead (s : State) : Word × State :=
  let s := if s.rf .mgtUart mgtUart_EN = 1 then s.uartSync 16 else s
  let full := 256 * b2n (decide (16 ≤ s.uartTx.length))
  match s.uartRx with
  | [] => (word full, s)
  | b :: bs => (word (512 + full + b % 256), { s with uartRx := bs })

/-- UART_TRANSMITTER_EMPTY (R584): the last queued byte has been sent. -/
def execUartTransmitterEmpty (s : State) : Host.Outcome State Fault Refusal :=
  if s.uartTx.isEmpty = true ∨ s.rf .mgtUart mgtUart_EN = 0 ∨ s.sealedShut = true then .next s
  else
    let s := s.uartSync 16
    let s := s.advanceTo (s.uartAt + s.uartTx.length * s.charTime)
    .next ({ s with uartTx := [] }.report 586)

/-- UART_RECEIVE (R624): a byte arrives; a full receive queue keeps the 16 bytes it holds. -/
def execUartReceive (b : Nat) (s : State) : Host.Outcome State Fault Refusal :=
  if 256 ≤ b then .refused .illFormed
  else if s.rf .mgtUart mgtUart_EN = 0 ∨ s.porLow = true ∨ s.wrstLow = true then .next s
  else
    let s := s.boundary .mgtUart
    .next ({ s with uartRx := (s.uartRx ++ [b]).take 16 }.report 585)

/-! ## MCTP (R620, R624) -/

/-- The endpoint answers on SMBus. -/
def State.smbOn (s : State) : Bool := decide (s.rf .mgtSmb mgtSmb_EN = 1) && !s.porLow && !s.wrstLow

/-- TXGO: a transmission begins unless one is under way (R624). -/
def State.mctlWritten (s : State) (v : Word) : State :=
  if flag v 24 = true ∧ s.rf .mgtMctl mgtMctl_TXBUSY = 0 then s.setRf .mgtMctl mgtMctl_TXBUSY 1 else s

/-- MCTP_TRANSMISSION_DONE (R624). -/
def execMctpTransmissionDone (s : State) : Host.Outcome State Fault Refusal :=
  if s.rf .mgtMctl mgtMctl_TXBUSY = 0 then .next s
  else .next ((s.setRf .mgtMctl mgtMctl_TXBUSY 0).report 584)

/-- Word w of the receive buffer after a message: its bytes over those the word held. -/
def rxWord (old : Word) (bs : List Nat) (w : Nat) : Word :=
  word (ofBytes ((List.range 8).map (fun j => bs.getD (8 * w + j) (byteOf old.toNat j))))

/-- MCTP_MESSAGE_RECEIVED (R624): a message for software fills the receive buffer, or is answered busy while one waits. -/
def execMctpMessageReceived (bs : List Byte) (s : State) : Host.Outcome State Fault Refusal :=
  if bs.isEmpty = true ∨ 256 ≤ bs.length then .refused .illFormed
  else if s.smbOn = false then .next s
  else if s.rf .mgtMctl mgtMctl_RXFULL = 1 ∨ s.sealedShut = true then .next { s with mctpAns := [] }
  else
    let ns := bs.map BitVec.toNat
    let s := (List.range 32).foldl (fun s w => s.setReg (.mgtRxbuf w) (rxWord (s.reg (.mgtRxbuf w)) ns w)) s
    .next (((s.setRf .mgtMctl mgtMctl_RXLEN ns.length).setRf .mgtMctl mgtMctl_RXFULL 1).report 583)

/-- FUSE_ROOT (R560): accepted only in CONFIGURE recovery while the customer root fuses are blank. -/
def execFuseRoot (hash : List Byte) (s : State) : Host.Outcome State Fault Refusal :=
  if hash.length ≠ 48 then .refused .illFormed
  else if s.smbOn = false then .next s
  else if s.mode = mdCONFIGURE ∧ s.rf .sysMode sysMode_RECOVERY = 1 ∧ s.rf .sysFuse sysFuse_CROOT = 0 then
    .next ({ s with fuseRoot := hash, mctpAns := [] }.setRf .sysFuse sysFuse_CROOT 1)
  else .next { s with mctpAns := [] }

/-- WARM_RESET (R598): a warm device reset, which LOCKDOWN ignores. -/
def execWarmReset (s : State) : Host.Outcome State Fault Refusal :=
  if s.smbOn = false then .next s else .next (s.warmReset 3)

/-- GET_ID (R620): SYS.ID and SYS.SERIAL. -/
def execGetId (s : State) : Host.Outcome State Fault Refusal :=
  if s.smbOn = false then .next s
  else .next { s with mctpAns := toBytes (s.reg .sysId).toNat 8 ++ toBytes (s.reg .sysSerial).toNat 8 }

/-! ## Reset pins (R598, R615) -/

/-- WRST_N (R615): WRST_N has been low for 1 µs: the warm device reset starts, and the device is held in it. -/
def execWrstN (s : State) : Host.Outcome State Fault Refusal :=
  if s.wrstLow = true then .next s
  else if s.porLow = true ∨ s.mode = mdLOCKDOWN then .next { s with wrstLow := true }
  else .next { (s.advanceTo (s.now + 1000)).warmReset 1 with wrstLow := true }

/-- WRST_N_RISE (R615): SELFTEST can begin. -/
def execWrstNRise (s : State) : Host.Outcome State Fault Refusal :=
  if s.wrstLow = false then .next s else .next { s with wrstLow := false }

/-- POR_N (R598, R600): POR_N goes low, or rises: the always-on domain leaves reset, the device key is loaded from the fuses, and the
device whose LDCOUNT has reached a non-zero LDLIMIT enters LOCKDOWN with CAUSE 8, the key register staying zero (R580). -/
def execPorN (low : Bool) (s : State) : Host.Outcome State Fault Refusal :=
  if s.porLow = low then .next s
  else if low then .next { s.powerOff with porLow := true }
  else
    let s := { s with porLow := false }
    let limit := s.rf .sysLdrec sysLdrec_LDLIMIT
    if limit ≠ 0 ∧ limit ≤ s.rf .sysLdrec sysLdrec_LDCOUNT then .next (s.lockdown 8 0)
    else .next { s with devKey := s.fuseKey }

/-- PE_PERST_N (R615): the host link alone is held in reset while the pin is low. -/
def execPePerstN (low : Bool) (s : State) : Host.Outcome State Fault Refusal :=
  if s.hostHeld = low then .next s else .next { s with hostHeld := low }

end Sys2Proof.Machine
end

