-- ==== Sys2Proof/Machine/KeyDefs.lean ====
section
/-! DEFINITION. The commands, key types and units of the key engine ("The key engine", R442-R453). -/

namespace Sys2Proof.Machine

open Sys2Proof

/-! ## Command codes (R453) -/

def kcRNG : Nat := 0x0001
def kcHASH : Nat := 0x0002
def kcPKVERIFY : Nat := 0x0003
def kcENC : Nat := 0x0010
def kcDEC : Nat := 0x0011
def kcMACGEN : Nat := 0x0012
def kcMACVER : Nat := 0x0013
def kcPINXLATE : Nat := 0x0020
def kcARQC : Nat := 0x0030
def kcCVV : Nat := 0x0040
def kcSIGN : Nat := 0x0050
def kcVERIFY : Nat := 0x0051
def kcRSADEC : Nat := 0x0052
def kcKINFO : Nat := 0x0058
def kcKGEN : Nat := 0x0080
def kcKIMPORT : Nat := 0x0081
def kcKEXPORT : Nat := 0x0082
def kcKDELETE : Nat := 0x0083
def kcKAGREE : Nat := 0x0084
def kcRESEED : Nat := 0x0085

/-- The class of a command code: 0 keyless, 1 use, 2 administration; none for an unassigned code. -/
def kcClass (code : Nat) : Option Nat :=
  if [kcRNG, kcHASH, kcPKVERIFY].contains code then some 0
  else if [kcENC, kcDEC, kcMACGEN, kcMACVER, kcPINXLATE, kcARQC, kcCVV, kcSIGN, kcVERIFY, kcRSADEC, kcKINFO].contains code then some 1
  else if [kcKGEN, kcKIMPORT, kcKEXPORT, kcKDELETE, kcKAGREE, kcRESEED].contains code then some 2
  else none

/-- The command names a key in ca. -/
def kcKeyed (code : Nat) : Bool :=
  match kcClass code with
  | some 1 => true
  | some 2 => [kcKIMPORT, kcKEXPORT, kcKDELETE, kcKAGREE].contains code
  | _ => false

/-- ca must be untagged: the keyless commands and KGEN. -/
def kcUntagged (code : Nat) : Bool := decide (kcClass code = some 0) || decide (code = kcKGEN)

/-- The command creates a key and writes its capability to OUT. -/
def kcCreates (code : Nat) : Bool := [kcKGEN, kcKIMPORT, kcKAGREE].contains code

/-- The command uses a second key. -/
def kcHasAux (code : Nat) : Bool := decide (code = kcPINXLATE) || decide (code = kcKEXPORT)

/-- A base derivation key (R446). -/
def isBaseKey (typ : Nat) : Bool := decide (0x08 ≤ typ) && decide (typ ≤ 0x0B)

/-- The use rights a command needs of ca (R453); base tells that the key is a base key. -/
def kcRights (code : Nat) (opt base : Bool) : Nat :=
  let dukpt := if base then 2 ^ 6 else 0
  if code = kcENC then 2 ^ 0 + dukpt
  else if code = kcDEC then 2 ^ 1 + dukpt
  else if code = kcMACGEN then 2 ^ 2 + dukpt
  else if code = kcMACVER then 2 ^ 3 + dukpt
  else if code = kcPINXLATE then 2 ^ 4 + dukpt
  else if code = kcARQC then 2 ^ 7 + (if opt then 2 ^ 8 else 0)
  else if code = kcCVV then (if opt then 2 ^ 10 else 2 ^ 9)
  else if code = kcSIGN then 2 ^ 13
  else if code = kcVERIFY then 2 ^ 14
  else if code = kcRSADEC then 2 ^ 16
  else if code = kcKIMPORT then 2 ^ 12
  else if code = kcKEXPORT then 2 ^ 11
  else if code = kcKAGREE then 2 ^ 15
  else 0

/-- The use right a command needs of its second key. -/
def kcAuxRights (code : Nat) : Nat := if code = kcPINXLATE then 2 ^ 5 else 0

/-! ## Key objects -/

/-- The head slot and generation that a key object names (R447). -/
def Cap.keySlot (c : Cap) : Nat := fld c.cursor 19 0
def Cap.keyGen (c : Cap) : Nat := fld c.cursor 43 24

/-- The key a capability names, when its head holds it with the same generation (R448). -/
def State.keyOf (s : State) (c : Cap) : Option KeyRun :=
  match tfind s.keys c.keySlot with
  | some r => if tget s.kgen c.keySlot 0 = c.keyGen then some r else none
  | none => none

/-! ## Key types (R446) -/

/-- The algorithm of a key type: 0 AES, 1 TDES, 2 HMAC, 3 EC, 4 RSA; none for a reserved type. -/
def algOf (typ : Nat) : Option Nat :=
  if [0x01, 0x02, 0x03, 0x09, 0x0A, 0x0B].contains typ then some 0
  else if [0x04, 0x05, 0x08].contains typ then some 1
  else if typ = 0x06 then some 2
  else if [0x10, 0x11, 0x12].contains typ then some 3
  else if [0x18, 0x19, 0x1A].contains typ then some 4
  else none

/-- The unit kind of an algorithm (UCTL.KIND): AES, TDES, SHA, public-key. -/
def kindOf (alg : Nat) : Nat := if alg = 4 then 3 else alg

/-- Slots of a run of a type with a number of bytes of material. -/
def slotsOf (typ bytes : Nat) : Nat :=
  if typ = 0x06 then (if bytes ≤ 32 then 1 else 2)
  else if typ = 0x10 then 2 else if typ = 0x11 then 3 else if typ = 0x12 then 4
  else if typ = 0x18 then 15 else if typ = 0x19 then 22 else if typ = 0x1A then 29
  else 1

/-- Bytes of a public coordinate of an EC type, and of an RSA modulus. -/
def ecBytes (typ : Nat) : Nat := if typ = 0x10 then 32 else if typ = 0x11 then 48 else 66
def rsaBytes (typ : Nat) : Nat := if typ = 0x18 then 256 else if typ = 0x19 then 384 else 512

/-- The strength of a key type for R456: TDES option 2, option 3, AES-128, -192, -256, and above all of them EC and RSA, which
only AES-256 carries; an HMAC key has no place in the order. -/
def strength (typ : Nat) : Nat :=
  if typ = 0x04 ∨ typ = 0x08 then 1 else if typ = 0x05 then 2 else if typ = 0x01 ∨ typ = 0x09 then 3
  else if typ = 0x02 ∨ typ = 0x0A then 4 else if typ = 0x03 ∨ typ = 0x0B ∨ 0x10 ≤ typ then 5 else 0

/-- The type of the key that does the work: of a base key, a key of its algorithm and length (R453). -/
def workType (typ : Nat) : Nat :=
  if typ = 0x08 then 0x04 else if typ = 0x09 then 0x01 else if typ = 0x0A then 0x02 else if typ = 0x0B then 0x03 else typ

/-- Bytes of key serial number before the data (R453). -/
def ksnBytes (typ : Nat) : Nat := if typ = 0x08 then 10 else if isBaseKey typ then 12 else 0

/-! ## Units -/

/-- Unit u serves a world: EN, its WORLD, in service, its domain on (R442, R443). -/
def State.unitServes (s : State) (w : Bool) (u : Nat) : Bool :=
  decide (s.rf (.keyUctl u) keyUctl_EN = 1) && (decide (s.rf (.keyUctl u) keyUctl_WORLD = 1) == w)
    && decide (s.rf (.keyUstat u) keyUstat_STATE = 0) && decide (s.rf (.pwrDom (domainOfUnit u)) pwrDom_STATE = 1)

/-- Unit u is free at a time, in tenths of a nanosecond: it holds no command. -/
def State.unitFree (s : State) (u t : Nat) : Bool := decide (tget s.kbusy u 0 ≤ t)

/-- The units of a kind that serve a world (R443). -/
def State.keyUnits (s : State) (w : Bool) (kind : Nat) : List Nat :=
  (List.range 38).filter (fun u => decide (unitKind u = kind) && s.unitServes w u)

/-- The least of a list of times, and the greatest. -/
def earliest (l : List Nat) : Nat := l.tail.foldl Nat.min (l.headD 0)
def latest (l : List Nat) : Nat := l.foldl Nat.max 0

/-- The time, in tenths of a nanosecond, at which a unit of each of some kinds is free for a world (R443): no earlier than now. -/
def State.unitsAt (s : State) (w : Bool) (kinds : List Nat) : Nat :=
  Nat.max (10 * s.now) (latest (kinds.map (fun k => earliest ((s.keyUnits w k).map (fun u => tget s.kbusy u 0)))))

/-- The lowest-numbered free unit of a kind that serves a world, at a time (R443). -/
def State.unitFor (s : State) (w : Bool) (t kind : Nat) : Option Nat := (s.keyUnits w kind).find? (fun u => s.unitFree u t)

/-- The unit kinds a command needs (R453): of its own, or of the key that works. -/
def unitKinds (c : KCmd) (typ : Option Nat) : List Nat :=
  let byKey := match typ.bind (fun t => algOf (workType t)) with
    | some a => [kindOf a]
    | none => []
  if c.code = kcRNG ∨ c.code = kcRESEED then []
  else if c.code = kcHASH then [2]
  else if c.code = kcPKVERIFY ∨ c.code = kcRSADEC then [3]
  else if c.code = kcPINXLATE then [0, 1]
  else if c.code = kcCVV then [1]
  else if c.code = kcSIGN ∨ c.code = kcVERIFY ∨ c.code = kcKAGREE then [3, 2]
  else if c.code = kcKINFO ∨ c.code = kcKDELETE then [0]
  else if c.code = kcKGEN then (match algOf c.var with | some a => [kindOf a] | none => [])
  else byKey

/-- Unit u has no command, and its world's queue holds none it could start (R463). -/
def State.unitIdle (s : State) (u : Nat) : Bool :=
  let w := s.rf (.keyUctl u) keyUctl_WORLD
  s.unitFree u (10 * s.now)
    && !((tget s.kq w []).any (fun c => (unitKinds c ((c.key.bind s.keyOf).map KeyRun.typ)).contains (unitKind u)))

end Sys2Proof.Machine
end

