-- ==== Sys2Proof/Machine/Judge.lean ====
section
/-! DEFINITION. The judgement of a write of a memory-mapped register, field by field: which writes the world rules deny, when a
register is idle, and which values are reserved (R5-R12, R625, and the register sections of the chapters). -/

namespace Sys2Proof.Machine

open Sys2Proof

/-- The requester is a context of the open world, for the world rules of the blocks; a master is admitted by the Ridge table. -/
def State.isOpen (s : State) (q : Requester) : Bool :=
  match q with
  | .core n _ => !(s.coreWorld n)
  | .master _ _ => false

/-! ## World rules -/

/-- A class of the sealed world. -/
def State.classSealed (s : State) (c : Nat) : Bool := decide (s.rf (.ingClass c) ingClass_WORLD = 1)

/-- A rule whose CLASS is of the sealed world. -/
def State.ruleSealed (s : State) (i : Nat) : Bool := s.classSealed (s.rf (.ingRuleW0 i) ingRuleW0_CLASS)

/-- A Ridge entry that only the sealed world may write (R365). -/
def State.rdgSealed (s : State) (i : Nat) : Bool := flag (s.reg (.rdgAttr i)) 5 || flag (s.reg (.rdgAttr i)) 3

/-- A unit of power domain d serves the sealed world. -/
def State.domSealed (s : State) (d : Nat) : Bool :=
  if d < 24 then s.coreWorld (2 * d)
  else if 80 ≤ d ∧ d < 84 then (unitsOfKeyDomain d).any (fun u => decide (s.rf (.keyUctl u) keyUctl_WORLD = 1))
  else if 56 ≤ d ∧ d < 64 then decide (tget s.cfg.ways (d - 56) 0 ≠ 0)
  else false

/-- A write of PWR.RESET that an open-world context may not make (R602). -/
def State.resetSealed (s : State) (v : Word) : Bool :=
  let ix := fld v 14 8
  match fld v 2 0 with
  | 1 | 2 => true
  | 3 => s.coreWorld (2 * ix)
  | 4 => s.coreWorld ix
  | 5 => decide (fld v 23 20 = 2) && decide (s.rf (.keyUctl ix) keyUctl_WORLD = 1)
  | _ => false

/-- A write that an open-world context makes at the cost of CAP_PERM with EINFO[16] set, the register staying unchanged (R90, R269, R326,
R365, R375, R398, R426, R463, R485, R527, R534, R547, R582, R583, R602, R624). -/
def regDenied (s : State) (q : Requester) (r : Reg) (v : Word) : Bool :=
  s.isOpen q && (match r with
    | .xqcfg i | .xqentry i | .xqctx i => decide (i < 32)
    | .intcCfg => true
    | .intcSrc n => decide (s.rf (.intcSrc n) intcSrc_OWNER = 1)
    | .intcTgt t => s.coreWorld (t / 2)
    | .mcsSrc | .mcsLoadreq | .mcsStat | .mcsCore _ => true
    | .rdgBase i | .rdgLimit i => s.rdgSealed i
    | .rdgAttr i => s.rdgSealed i || flag v 5 || flag v 3
    | .dbgCorectl n => s.coreWorld n
    | .memPcctl _ => true
    | .ingClass c => s.classSealed c || flag v 12
    | .ingCstat c => s.classSealed c
    | .ingRuleW0 i => s.ruleSealed i || s.classSealed (fld v 13 8)
    | .ingRuleVala i | .ingRuleMaska i | .ingRuleValb i | .ingRuleMaskb i | .ingRuleDesc i => s.ruleSealed i
    | .keyCfg | .keyUctl _ => true
    | .jcCfg => true
    | .cdlEst | .cdlCfg | .cdlLctl _ | .cdlRoute _ => true
    | .depCfg | .depRetire => true
    | .ageCfg => true
    | .sysLock | .sysSvncommit => true
    | .pwrLimit => true
    | .pwrDom d => s.domSealed d
    | .pwrReset => s.resetSealed v
    | .mgtFlcmd | .mgtFlbuf _ | .mgtSmb => true
    | r => decide (r.block = 1))

/-- A record of DEP that reads as zero from the open world, which writes it to no effect (R534). -/
def State.recHidden (s : State) (q : Requester) (r : Reg) : Bool :=
  s.isOpen q && (match r with
    | .depRec i | .depFirst i | .depLast i | .depDetail i => decide (s.rf (.depRec i) depRec_WORLD = 1)
    | _ => false)

/-! ## Idleness (R9, R625) -/

/-- A CROSS queue is idle (R89). -/
def State.queueIdle (s : State) (i : Nat) : Bool :=
  decide (s.rf (.xqcfg i) xqcfg_EN = 0) && (tget s.xq i []).isEmpty
    && !(s.cores.any (fun e => [e.2.c0, e.2.c1].any (fun x => decide (x.tx.service = 1) && decide (x.tx.queue = i))))

/-- The unit lies in the slice that a reconfiguration has taken (R573): its link, power domain, W-core group or cores. -/
def State.inSlice (s : State) (r : Reg) : Bool :=
  decide (s.mode = mdRECONFIG) && (match r with
    | .cdlLctl l => bit (s.rf .imgSllink imgSllink_LINKS) l
    | .pwrDom d => bit (s.rf (.imgSldom (d / 64)) imgSldom_DOMS) (d % 64)
    | .pwrDvfs j => bit (s.rf .imgSlwgrp imgSlwgrp_GROUPS) j
    | .dbgCorectl n => (s.core (s.unit n)).quiesced
    | _ => false)

/-- IMG is idle (R583). -/
def State.imgIdle (s : State) : Bool := decide (s.rf .imgStat imgStat_BUSY = 0) && decide (s.mode ≠ mdRECONFIG)

/-- The block or instance that a register configures is idle, so that a Q field takes the value v (R9). -/
def regIdle (s : State) (r : Reg) (v : Word) : Bool :=
  match r with
  | .xqcfg i | .xqentry i | .xqctx i => s.queueIdle i
  | .mcsSrc => decide (s.rf .mcsStat mcsStat_BUSY = 0)
  | .mcsLoadreq => decide (s.rf .mcsStat mcsStat_BUSY = 0) && (s.loadCores (fld v 6 0)).all (fun n => s.coreQui n)
  | .ingImem | .ingImemva => s.slots.isEmpty && (List.range 16).all (fun l => decide (s.rf (.ingLcfg l) ingLcfg_EN = 0))
  | .ingFbase b => (decide (s.lastWritten .ingBank ingBank_FACT ≠ b) && decide (s.pbank ≠ some b)) || !s.serving
  | .ingLcfg l | .ingLring l => decide (s.rf (.ingLcfg l) ingLcfg_EN = 0) && !(s.laneBusy l)
  | .ingClass c => decide (s.rf (.ingClass c) ingClass_EN = 0) && (tget s.queues c []).isEmpty && !(s.classRuns c)
  | .ingRuleW0 i | .ingRuleVala i | .ingRuleMaska i | .ingRuleValb i | .ingRuleMaskb i | .ingRuleDesc i =>
    decide (s.lastWritten .ingBank ingBank_RACT ≠ i / 4096) || !s.serving
  | .keyUctl u => s.unitIdle u
  | .jcRdseq | .jcRdbuf | .jcRdctl => decide (s.rf .jcRdctl jcRdctl_BUSY = 0)
  | .egrCring l => !(s.egr.any (fun r => decide (r.lane = l)))
  | .cdlEst => (List.range 12).all (fun l => decide (s.linkState l ≠ lsADMITTED))
  | .cdlRpass | .cdlRpdesc => decide (s.rf .cdlRpass cdlRpass_EN = 0) && s.fab.rpq.isEmpty
  | .monCtl m | .monRange m | .monLo m => decide (s.rf (.monCtl m) monCtl_RUN = 0)
  | .imgStage | .imgCheck | .imgSlpair | .imgSlwgrp | .imgSllink | .imgSldom _ | .imgRctl => s.imgIdle
  | .pwrDom d => switchable d && !(s.isRetired 7 d) && decide (s.rf (.pwrDom d) pwrDom_STATE ≠ 3) && s.domIdle d
  | .mgtSmb => decide (s.rf .mgtMctl mgtMctl_TXBUSY = 0)
  | .mgtFlcmd => decide (s.rf .mgtFlcmd mgtFlcmd_BUSY = 0)
  | _ => true

/-! ## Reserved values (R10) -/

/-- Beside the values that a field's table bars, those that a rule bars for the present configuration: a route to a core of the other world
(R269), a breakpoint on a core of the sealed world (R376), a quantity of the sealed world or an instance that does not exist chosen for a
monitor (R551). -/
def regBars (s : State) (q : Requester) (r : Reg) (f : Field) (v : Nat) : Bool :=
  match r with
  | .intcSrc n => decide (f.lo = 8) && decide (v < 224) && (s.coreWorld (v / 2) != decide (s.rf (.intcSrc n) intcSrc_OWNER = 1))
  | .dbgBrk _ => decide (f.lo = 54) && s.coreWorld v
  | .monCtl _ => decide (f.lo = 0) && s.isOpen q && (decide (v = 5) || decide (v = 8))
  | _ => false

/-- FILTER names an instance that the quantity SEL of the same write has, or all of them. -/
def filterOk (v : Word) : Bool :=
  let ix := fld v 23 8
  match monInstances (fld v 7 0) with
  | none => true
  | some n => decide (ix = 0xFFFF) || decide (ix < Nat.max 1 n)

/-- A write whose fields act as one and carry a reserved value: it does nothing and is rejected once (R548, R602). -/
def wholeRejected (r : Reg) (v : Word) : Bool :=
  match r with
  | .pwrReset => resetReserved v
  | .depRetire => decide (fld v 1 0 = 3) || decide (8 < fld v 7 4) || !(subjectOk (fld v 7 4) (fld v 39 12))
  | _ => false

/-! ## Fields -/

/-- A write under judgement: the word so far, the state with the shadows of S fields set, and whether a field has been ignored or
rejected. -/
structure Judged where
  s        : State
  w        : Word
  ignored  : Bool
  rejected : Bool

/-- One field of a write (R9-R11, R625). A register in a quiesced slice takes no configuration from software (R573). -/
def judgeField (q : Requester) (r : Reg) (v : Word) (j : Judged) (f : Field) : Judged :=
  let s := j.s
  let new := fld v f.hi f.lo
  let old := fld j.w f.hi f.lo
  let barred := !(f.allow.ok new) || regBars s q r f new || (match r with
    | .monCtl _ => decide (f.lo = 8) && !(filterOk v)
    | _ => false)
  let held := s.inSlice r && decide (cfgAux q ≠ 1)
  match f.ty with
  | .ro => j
  | .w1c => { j with w := setFld j.w f.hi f.lo (old - Nat.land old new) }
  | .wo =>
    if barred then { j with rejected := true }
    else if f.apply = .q ∧ regIdle s r v = false ∧ (new ≠ 0 ∨ r = .mcsLoadreq) then { j with ignored := true }
    else j
  | .rw =>
    if barred then { j with rejected := true }
    else if held then (if new = old then j else { j with ignored := true })
    else
      match f.apply with
      | .q =>
        if new = old then j
        else if regIdle s r v then { j with w := setFld j.w f.hi f.lo new }
        else { j with ignored := true }
      | .s =>
        let sh := s.shadow.filter (fun (e : Reg × Nat × Nat) => !(decide (e.1 = r) && decide (e.2.1 = f.lo)))
        { j with s := { s with shadow := sh ++ [(r, f.lo, new)] } }
      | _ => { j with w := setFld j.w f.hi f.lo new }

/-- Every field of a write in turn (R11). -/
def judge (s : State) (q : Requester) (r : Reg) (v : Word) : Judged :=
  r.fields.foldl (judgeField q r v) ⟨s, s.reg r, false, false⟩

/-- The events of a judged write: CFG_REJECT once, CFG_IGNORED once (R581). -/
def Judged.events (j : Judged) (q : Requester) (r : Reg) : State :=
  let s := if j.rejected then j.s.cfgReject q r else j.s
  if j.ignored then s.cfgIgnored q r else s

end Sys2Proof.Machine
end

