-- ==== Sys2Proof/Machine/ImgCheck.lean ====
section
/-! DEFINITION. The structure image: its header, sections and records, the derivation of capability descriptors, and the checks that an
image must pass ("The structure image and operating modes", R556-R567; R317-R324 for control-store sections). An image is given as a
function from byte offset to byte value. -/

namespace Sys2Proof.Machine

open Sys2Proof

/-! ## Layout (R558, R559) -/

/-- The little-endian word at offset a. -/
def iWord (f : Nat → Nat) (a : Nat) : Nat := ofBytes ((List.range 8).map (fun i => f (a + i)))

/-- The n bytes from offset a. -/
def iBytes (f : Nat → Nat) (a n : Nat) : List Byte := (List.range n).map (fun i => BitVec.ofNat 8 (f (a + i)))

/-- The n bytes from offset a are zero. -/
def iZero (f : Nat → Nat) (a n : Nat) : Bool := (List.range n).all (fun i => decide (f (a + i) % 256 = 0))

/-- A section as its directory entry gives it: its index, type, instance, V, offset, length and digest. -/
structure Sec where
  ix   : Nat
  typ  : Nat
  inst : Nat
  v    : Bool
  off  : Nat
  len  : Nat
  dig  : List Byte
  deriving DecidableEq, Repr

def imgNsec (f : Nat → Nat) : Nat := bits (iWord f 0x008) 15 8
def imgSvn (f : Nat → Nat) : Nat := bits (iWord f 0x008) 47 32
def imgLength (f : Nat → Nat) : Nat := bits (iWord f 0x010) 31 0
def imgSigoff (f : Nat → Nat) : Nat := bits (iWord f 0x010) 63 32
def imgId (f : Nat → Nat) : Nat := iWord f 0x018

/-- Directory entry i. -/
def imgSec (f : Nat → Nat) (i : Nat) : Sec :=
  let a := 0x100 + 64 * i
  let w0 := iWord f a
  let w1 := iWord f (a + 8)
  ⟨i, bits w0 15 0, bits w0 23 16, bit w0 24, bits w1 31 0, bits w1 63 32, iBytes f (a + 16) 48⟩

/-- The sections in directory order. -/
def imgSecs (f : Nat → Nat) : List Sec := (List.range (imgNsec f)).map (imgSec f)

/-- A failed check: RESULT, the directory index of the section and the offset of the record in it (R566, R583). -/
structure ImgFail where
  result : Nat
  sec    : Nat
  off    : Nat
  deriving DecidableEq, Repr

/-- Two sections overlap. -/
def Sec.overlaps (x y : Sec) : Bool := decide (x.ix < y.ix) && decide (x.off < y.off + y.len) && decide (y.off < x.off + x.len)

/-- Check 1: the header and the directory (R558). -/
def imgCheck1 (f : Nat → Nat) : Option ImgFail :=
  let w1 := iWord f 0x008
  let secs := imgSecs f
  if iWord f 0 ≠ 0x4F4D4D52494D4731 ∨ bits w1 7 0 ≠ 1 ∨ bits w1 31 16 ≠ 0 ∨ bits w1 63 48 ≠ 0 ∨ imgNsec f = 0 ∨ 128 < imgNsec f
      ∨ 0x1F00000 < imgLength f ∨ imgSigoff f % 4096 ≠ 0 ∨ imgLength f < imgSigoff f + 0x5060 ∨ imgId f = 0
      ∨ iZero f 0x020 0xE0 = false ∨ iZero f (0x100 + 64 * imgNsec f) (0x2000 - 64 * imgNsec f) = false then some ⟨1, 0, 0⟩
  else
    match secs.find? (fun x => decide (bits (iWord f (0x100 + 64 * x.ix)) 63 25 ≠ 0) || decide (x.off % 4096 ≠ 0)
        || decide (x.off < 0x3000) || decide (x.len < 8) || decide (x.len % 8 ≠ 0) || decide (imgSigoff f < x.off + x.len)
        || secs.any (fun y => y.overlaps x)) with
    | some x => some ⟨1, x.ix, 0⟩
    | none => none

/-- What the vendor signature covers (R560). -/
def vendorCovers (f : Nat → Nat) : List Byte :=
  ((imgSecs f).filter (fun x => x.v)).flatMap (fun x =>
    let a := 0x100 + 64 * x.ix
    iBytes f a 8 ++ iBytes f (a + 12) 4 ++ iBytes f (a + 16) 48)

/-- Checks 2 to 6: the chains, the signatures, SVN and the digests (R559, R560). -/
def State.imgCheck6 (s : State) (f : Nat → Nat) : Option ImgFail :=
  let sg := imgSigoff f
  let secs := imgSecs f
  if s.rf .sysFuse sysFuse_CROOT = 0 ∨ Config.chainOk (iBytes f sg 0x2000) s.fuseRoot = false then some ⟨2, 0, 0⟩
  else if Config.sigOk (iBytes f sg 0x2000) (iBytes f 0 0x2100) (iBytes f (sg + 0x2000) 0x60) = false then some ⟨3, 0, 0⟩
  else
    match secs.find? (fun x => x.v != decide (x.typ = 4)) with
    | some x => some ⟨4, x.ix, 0⟩
    | none =>
      let vOk :=
        if secs.any (fun x => x.v) then
          decide (s.rf .sysFuse sysFuse_VROOT = 1) && Config.chainOk (iBytes f (sg + 0x3000) 0x2000) s.vendorRoot
            && Config.sigOk (iBytes f (sg + 0x3000) 0x2000) (vendorCovers f) (iBytes f (sg + 0x5000) 0x60)
        else iZero f (sg + 0x3000) 0x2000 && iZero f (sg + 0x5000) 0x60
      if !vOk then some ⟨4, 0, 0⟩
      else if imgSvn f < s.rf .sysFuse sysFuse_SVNMIN then some ⟨5, 0, 0⟩
      else (secs.find? (fun x => decide (Config.sha384 (iBytes f x.off x.len) ≠ x.dig))).map (fun x => ⟨6, x.ix, 0⟩)

/-- The section types that only CONFIGURE accepts (R561). -/
def bootOnly (typ : Nat) : Bool := [1, 2, 0xE, 0xF].contains typ

/-- Check 7: the types (R561). -/
def imgCheck7 (f : Nat → Nat) (staged : Bool) : Option ImgFail :=
  let secs := imgSecs f
  (secs.find? (fun x => decide (x.typ = 0) || decide (0xF < x.typ) || (staged && bootOnly x.typ)
    || ([1, 2, 0xE].contains x.typ && secs.any (fun y => decide (y.ix < x.ix) && decide (y.typ = x.typ))))).map
    (fun x => ⟨7, x.ix, 0⟩)

/-! ## Records (R562-R565) -/

/-- A record: a register write, a parameter, TCM data, a format, or a mint record; bad when it does not fit its section. -/
inductive ImgRec where
  | write (pa : Nat) (v : Word)
  | param (id ix len at_ : Nat)
  | tcm (core off n at_ : Nat)
  | format (num at_ : Nat)
  | mint (pa kind n at_ : Nat)
  | bad
  deriving DecidableEq, Repr

/-- A parameter record at a, with rest bytes left in the section. -/
def paramRec (w a rest : Nat) : ImgRec × Nat :=
  let len := bits w 47 32
  if bits w 63 48 ≠ 0 ∨ len % 8 ≠ 0 ∨ rest < 8 + len then (.bad, rest) else (.param (bits w 15 0) (bits w 31 16) len (a + 8), 8 + len)

/-- A register write at a. -/
def writeRec (f : Nat → Nat) (w a rest : Nat) : ImgRec × Nat :=
  if rest < 16 ∨ w % 8 ≠ 0 then (.bad, rest) else (.write w (word (iWord f (a + 8))), 16)

/-- The record at a of a section of a type, with rest bytes left, and its length. A record of a FABRIC section whose first word is an
address of block CDL is a register write, any other a parameter. -/
def nextRec (f : Nat → Nat) (typ a rest : Nat) : ImgRec × Nat :=
  let w := iWord f a
  match typ with
  | 0x1 | 0x2 | 0xB | 0xD | 0xE => paramRec w a rest
  | 0x3 | 0x7 | 0xA | 0xC => writeRec f w a rest
  | 0x9 => if bits w 63 24 = 0x0F000A then writeRec f w a rest else paramRec w a rest
  | 0x5 =>
    let n := bits w 61 48
    if rest < 8 + 8 * n ∨ bits w 11 7 ≠ 0 ∨ bits w 47 32 ≠ 0 ∨ bits w 63 62 ≠ 0 then (.bad, rest)
    else (.tcm (bits w 6 0) (bits w 31 12) n (a + 8), 8 + 8 * n)
  | 0x6 => if rest < 8 + 2048 ∨ bits w 63 8 ≠ 0 then (.bad, rest) else (.format (bits w 7 0) (a + 8), 8 + 2048)
  | 0x8 =>
    let k := bits w 63 62
    let n := bits w 61 48
    let len := if k = 0 then 8 * n else 32
    if 1 < k ∨ bits w 47 44 ≠ 0 ∨ rest < 8 + len then (.bad, rest) else (.mint (bits w 43 0) k n (a + 8), 8 + len)
  | _ => (.bad, rest)

/-- The records of a section from offset o on, each with its offset; fuel bounds their number. -/
def recsFrom (f : Nat → Nat) (x : Sec) (o : Nat) : Nat → List (Sec × Nat × ImgRec)
  | 0 => []
  | fuel + 1 =>
    if x.len ≤ o then []
    else
      let (r, n) := nextRec f x.typ (x.off + o) (x.len - o)
      (x, o, r) :: recsFrom f x (o + n) fuel

/-- The records of a section; CSTORE and CODE sections have none. -/
def secRecs (f : Nat → Nat) (x : Sec) : List (Sec × Nat × ImgRec) :=
  if x.typ = 4 ∨ x.typ = 0xF then [] else recsFrom f x 0 (x.len / 8)

/-- The order in which CONFIGURE applies the types (R570). -/
def applyOrder : List Nat := [2, 1, 3, 4, 5, 6, 7, 8, 9, 0xA, 0xB, 0xC, 0xD, 0xE]

/-- Every record of an image in the order of application. -/
def imgRecs (f : Nat → Nat) : List (Sec × Nat × ImgRec) :=
  applyOrder.flatMap (fun t => ((imgSecs f).filter (fun x => decide (x.typ = t))).flatMap (secRecs f))

/-! ## Capability descriptors (R564) -/

/-- The capability a descriptor at offset a derives, if every step is possible. -/
def deriveDesc (f : Nat → Nat) (a : Nat) : Option Cap :=
  let cur := iWord f a
  let base := iWord f (a + 8)
  let len := iWord f (a + 16)
  let w := iWord f (a + 24)
  let typ := bits w 29 14
  match (rootMemory (bit w 30) (word base)).trim len true with
  | none => none
  | some c =>
    let c := c.setCursor cur
    let c := c.withFld 63 50 (Nat.land c.perms (bits w 13 0))
    let c := if bit w 31 then c.withFld 32 32 1 else c
    if c.tag = false ∨ (typ ≠ 0 ∧ neverSealed typ = true) then none else some (c.withFld 49 34 typ)

/-- An ENTRY capability of world w is as R243 requires. -/
def entryOk (f : Nat → Nat) (a w : Nat) : Bool :=
  match deriveDesc f a with
  | none => false
  | some c => c.valid && !c.isSealed && c.has pEXEC && c.has pSYS && decide (b2n c.world = w)

/-! ## Check 8: contents -/

/-- A micro word of a control store is as R320 requires, nano being the nanoword it names. -/
def microOk (m : Nat) (nano : Nat → Nat) : Bool :=
  decide (microMODE m < 5) && decide (bits m 31 24 = 0)
    && (decide (microMODE m ≠ 2) || decide (microNEXT m % 2 ^ nanoNC (nano (microNANO m)) = 0))

/-- A nanoword is as R317 and R320 require. -/
def nanoOk (n : Nat) : Bool :=
  decide (nanoNC n < 5) && decide (n % 16 = 0) && decide (n < 2 ^ 144)
    && (List.range (nanoNC n)).all (fun k => decide (nanoCSEL n k < 27))

/-- A control-store section is laid out as R324 states and passes R320. -/
def cstoreOk (f : Nat → Nat) (x : Sec) : Bool :=
  let a := x.off
  let w := iWord f a
  let nano := fun i => ofBytes ((List.range 32).map (fun j => f (a + 0x9000 + 32 * i + j)))
  decide (0x11000 ≤ x.len) && decide (bits w 7 0 = 1) && decide (bits w 31 8 = 0) && decide (bits w 63 32 ≠ 0)
    && iZero f (a + 8) 0x38 && iZero f (a + 0xC0) 0xF40
    && (List.range 64).all (fun i => decide (ofBytes [f (a + 0x40 + 2 * i), f (a + 0x41 + 2 * i)] < 8192))
    && (List.range 8192).all (fun i => microOk (ofBytes ((List.range 4).map (fun j => f (a + 0x1000 + 4 * i + j)))) nano)
    && (List.range 1024).all (fun i => nanoOk (nano i))

/-- The points of a curve. -/
def curveAt (f : Nat → Nat) (a : Nat) : List (Nat × Nat) :=
  (List.range 16).map (fun i => (ofBytes [f (a + 4 * i), f (a + 4 * i + 1)], ofBytes [f (a + 4 * i + 2), f (a + 4 * i + 3)]))

/-- x is strictly ascending (R400). -/
def ascending : List (Nat × Nat) → Bool
  | a :: b :: r => decide (a.1 < b.1) && ascending (b :: r)
  | _ => true

/-- A parameter is assigned in a section of its type, with its INDEX, length and value in range (R563). -/
def paramOk (f : Nat → Nat) (typ id ix len a : Nat) : Bool :=
  let v := iWord f a
  let one := decide (len = 8)
  let sec := fun (t : Nat) => decide (typ = t)
  match id with
  | 0x0101 => sec 1 && decide (ix < 24) && one && decide (v < 3)
  | 0x0102 => sec 1 && decide (ix < 48) && one && decide (v % 2 ^ 19 = 0) && decide (v < 2 ^ 44)
  | 0x0103 => sec 1 && decide (ix < 8) && decide (len = 32)
  | 0x0104 => sec 1 && decide (ix < 38) && one && decide (v < 2)
  | 0x0105 => sec 1 && decide (ix < 8) && one && decide (v < 2 ^ 24)
  | 0x0106 => sec 1 && decide (ix < 112) && one && decide (v < 112)
  | 0x0201 => sec 2 && decide (ix = 0) && decide (len = 16)
  | 0x0202 => sec 2 && decide (ix = 0) && one && decide (v < 5)
  | 0x0901 | 0x0902 => sec 9 && decide (ix = 0) && decide (len = 48)
  | 0x0903 => sec 9 && decide (ix = 0) && decide (len ≤ 0x2000)
  | 0x0B01 => sec 0xB && (decide (ix < 4) || (decide (16 ≤ ix) && decide (ix < 30))) && decide (len = 64) && ascending (curveAt f a)
  | 0x0B02 => sec 0xB && decide (ix < 14) && decide (len = 16) && decide (iWord f (a + 8) ≤ 150)
  | 0x0B03 => sec 0xB && decide (ix = 0) && one && decide (1 ≤ v) && decide (v < 65536)
  | 0x0D01 => sec 0xD && decide (ix < 6) && one
  | 0x0D02 => sec 0xD && decide (ix = 0) && one && decide (1 ≤ v) && decide (v < 65536)
  | 0x0D03 => sec 0xD && decide (ix = 0) && one && decide (v < 8)
  | 0x0D04 => sec 0xD && decide (ix = 0) && one && decide (1 ≤ v) && decide (v < 65536)
  | 0x0D05 => sec 0xD && decide (ix = 0) && one && decide (v % 65536 = 0) && decide (0x03F00000 ≤ v) && decide (v < 0x04000000)
  | 0x0D06 => sec 0xD && decide (ix = 0) && decide (len = 48)
  | 0x0D07 => sec 0xD && decide (ix = 0) && decide (len % 16 = 0)
  | 0x0E01 => sec 0xE && decide (ix < 8) && one && decide (bits v 7 2 = 0) && decide (v < 65536)
  | _ => false

/-- IMG as a requester of register accesses. -/
def imgQ : Requester := .master 10 0

/-- The register at a physical address, for a requester (R25, R26); an offset with no register is none. -/
def State.regAtPa (s : State) (q : Requester) (pa : Nat) : Option Reg :=
  let code := (pa - 0x0F0000000000) / 2 ^ 24
  let off := (pa - 0x0F0000000000) % 2 ^ 24
  let sel := match selectOf code q with
    | none => 0
    | some r => (s.reg r).toNat
  regAt code off q sel

/-- A write list of a type and instance may name the register (R561, R562); CDL.LINKSEL selects the link of an LCTL record. -/
def listOk (typ inst : Nat) (r : Reg) : Bool :=
  match typ with
  | 0x3 => decide (r.block = 2)
  | 0x7 =>
    (match r with
    | .ingRuleW0 i | .ingRuleVala i | .ingRuleMaska i | .ingRuleValb i | .ingRuleMaskb i | .ingRuleDesc i => decide (i / 4096 = inst)
    | .ingClass _ | .xqcfg _ | .xqentry _ | .xqctx _ | .cdlRpass | .cdlRpdesc => true
    | _ => false)
  | 0x9 =>
    (match r with
    | .cdlEst | .cdlCfg | .cdlRkeys _ | .cdlLctl _ | .cdlRoute _ | .cdlLinksel _ => true
    | _ => false)
  | 0xA => decide (r.block = 12)
  | 0xC => decide (r.block = 3) || decide (r = .depCfg)
  | _ => false

/-- A record passes check 8. -/
def State.recOk (s : State) (f : Nat → Nat) (x : Sec) (r : ImgRec) : Bool :=
  match r with
  | .write pa _ =>
    isRegSpace pa && (match s.regAtPa imgQ pa with
      | none => false
      | some g => listOk x.typ x.inst g)
  | .param id ix len a => paramOk f x.typ id ix len a
  | .tcm n off k _ => decide (n < 48) && decide (off % 8 = 0) && decide (off + 8 * k ≤ 2 ^ 19)
  | .format _ a => formatOk ((List.range 256).map (fun i => iWord f (a + 8 * i)))
  | .mint pa k n _ =>
    decide (pa % (if k = 1 then 16 else 8) = 0) && backedDram pa && backedDram (pa + (if k = 1 then 15 else 8 * n - 1))
  | .bad => false

/-- Check 8. -/
def State.imgCheck8 (s : State) (f : Nat → Nat) : Option ImgFail :=
  match (imgSecs f).find? (fun x => ((decide (x.typ = 6) || decide (x.typ = 7)) && decide (1 < x.inst))
      || (decide (x.typ = 4) && !(cstoreOk f x))) with
  | some x => some ⟨8, x.ix, 0⟩
  | none => ((imgSecs f).flatMap (secRecs f)).findSome? (fun e => if s.recOk f e.1 e.2.2 then none else some ⟨8, e.1.ix, e.2.1⟩)

/-- Check 9: the descriptors of ENTRY parameters and of mint records. -/
def imgCheck9 (f : Nat → Nat) : Option ImgFail :=
  ((imgSecs f).flatMap (secRecs f)).findSome? (fun e =>
    let ok := match e.2.2 with
      | .param 0x0103 ix _ a => entryOk f a (ix / 4)
      | .mint _ 1 _ a => (deriveDesc f a).isSome
      | _ => true
    if ok then none else some ⟨9, e.1.ix, e.2.1⟩)

/-! ## The state that an image describes -/

/-- A member enters or leaves a list. -/
def listPut (l : List Nat) (k : Nat) (b : Bool) : List Nat :=
  let l := l.filter (fun x => decide (x ≠ k))
  if b then l ++ [k] else l

/-- An ENTRY parameter. -/
def ImgCfg.setEntry (c : ImgCfg) (ix : Nat) (e : Cap) : ImgCfg :=
  match ix with
  | 0 => { c with resetEntry := e.cursor }
  | 1 => { c with entryUser := e }
  | 2 => { c with entrySup := e }
  | 3 => { c with entryDouble := e }
  | 4 => { c with resetEntryS := e.cursor }
  | 5 => { c with entryUserS := e }
  | 6 => { c with entrySupS := e }
  | _ => { c with entryDoubleS := e }

/-- CAP of the margin curve's domain kind is the CAP of its domains (R542, R563). -/
def State.setSlack (s : State) (k target cap : Nat) : State :=
  let s := { s with cfg := { s.cfg with slackT := tset s.cfg.slackT k (target, cap) } }
  ((List.range 96).filter (fun d => decide (domKind d = k))).foldl (fun s d => s.setRf (.ageDom d) ageDom_CAP cap) s

/-- A parameter takes effect (R563). -/
def State.setParam (s : State) (f : Nat → Nat) (id ix len a : Nat) : State :=
  let v := iWord f a
  let c := s.cfg
  match id with
  | 0x0101 =>
    { s with cfg := { c with pairs := listPut c.pairs ix (decide (v ≠ 0)), sealedPairs := listPut c.sealedPairs ix (decide (v = 2)) } }
  | 0x0102 => { s with cfg := { c with tcmRange := tset c.tcmRange ix (v, 2 ^ 19) } }
  | 0x0103 =>
    (match deriveDesc f a with
    | none => s
    | some e => { s with cfg := c.setEntry ix e })
  | 0x0104 => s.setRf (.keyUctl ix) keyUctl_WORLD v
  | 0x0105 => { s with cfg := { c with ways := tset c.ways ix v } }
  | 0x0106 => { s with cfg := { c with failover := tset c.failover ix v } }
  | 0x0201 => { s with cfg := { c with sealedBase := v, sealedSize := iWord f (a + 8) } }
  | 0x0202 => { s with cfg := { c with memFloor := v } }
  | 0x0901 => { s with cfg := { c with estRoot := iBytes f a 48 } }
  | 0x0902 => { s with cfg := { c with attRoot := iBytes f a 48 } }
  | 0x0903 => { s with cfg := { c with nodeChain := iBytes f a len } }
  | 0x0B01 => { s with cfg := { c with curves := tset c.curves ix (curveAt f a) } }
  | 0x0B02 => s.setSlack ix v (iWord f (a + 8))
  | 0x0B03 => { s with cfg := { c with decay := v } }
  | 0x0D01 => { s with cfg := { c with floors := c.floors.set ix v } }
  | 0x0D02 => s.setRf .sysTamper sysTamper_THRESH v
  | 0x0D03 => { s with degPrio := v }
  | 0x0D04 => { s with cfg := { c with qtmo := v } }
  | 0x0D05 => { s with cfg := { c with retLog := v } }
  | 0x0D06 => { s with cartRoot := iBytes f a 48 }
  | 0x0D07 => { s with revoked := (List.range (len / 16)).map (fun i => iWord f (a + 16 * i) + 2 ^ 64 * iWord f (a + 16 * i + 8)) }
  | 0x0E01 =>
    let s := { s with cfg := { c with tampIn := tset c.tampIn ix v } }
    if bit v 0 then s.setRf .sysTamper sysTamper_ARMED (setBits (s.rf .sysTamper sysTamper_ARMED) ix ix 1) else s
  | _ => s

/-- OWNER of an interrupt source is the image's to set, in CONFIGURE (R265, R561). -/
def State.setOwner (s : State) (staged : Bool) (r : Reg) (v : Word) : State :=
  match r with
  | .intcSrc n => if staged then s else s.setRf (.intcSrc n) intcSrc_OWNER (fld v 22 22)
  | _ => s

/-- The state after the parameters and the fields of the write lists, as far as checks 10 and 11 need it, with the first record whose
write would be rejected or ignored. A power domain of a slice counts as idle. -/
def State.imgSim (s : State) (f : Nat → Nat) (staged : Bool) : State × Option ImgFail :=
  let rs := imgRecs f
  let s := rs.foldl (fun s e => match e.2.2 with
    | .param id ix len a => s.setParam f id ix len a
    | _ => s) s
  rs.foldl (fun (p : State × Option ImgFail) e => match e.2.2 with
    | .write pa v =>
      (match p.1.regAtPa imgQ pa with
      | none => p
      | some r =>
        let s := p.1.setOwner staged r v
        let j := judge s imgQ r v
        let slice := staged && (match r with | .pwrDom _ => true | _ => false)
        let bad := j.rejected || wholeRejected r v || (j.ignored && !slice)
        (j.s.setReg r j.w, if p.2.isSome then p.2 else if bad then some ⟨11, e.1.ix, e.2.1⟩ else none))
    | _ => p) (s, none)

/-! ## Check 10: consistency (R567) -/

/-- A pair of the given world among those of a mask. -/
def State.namesPair (s : State) (mask : Nat) (w : Bool) : Bool :=
  (List.range 24).any (fun k => bit mask k && s.paired (2 * k) && (s.coreWorld (2 * k) == w))

/-- The deciding entry of the key store covers it for KEY only, in the sealed world (R445). -/
def State.keyStoreCovered (s : State) : Bool :=
  let lo := s.cfg.sealedBase
  let hi := lo + 0x4000000
  match (List.range 1024).find? (fun i =>
      let e := s.rdgEntry i
      flag e.attr 0 && decide (e.base < e.limit) && decide (e.base < hi) && decide (lo < e.limit)) with
  | none => false
  | some i =>
    let e := s.rdgEntry i
    decide (e.base ≤ lo) && decide (hi ≤ e.limit) && flag e.attr 5 && decide (fld e.attr 26 16 = 2 ^ 8)

/-- SEALED is as R104 requires. -/
def ImgCfg.sealedOk (c : ImgCfg) : Bool :=
  decide (2 ^ 28 ≤ c.sealedSize) && decide (c.sealedSize ≤ 2 ^ 34) && decide (c.sealedSize % 2 ^ 21 = 0)
    && decide (c.sealedBase % 2 ^ 21 = 0) && decide (c.sealedBase + c.sealedSize ≤ 0x1800000000)

/-- The consistency of the state t that an image leads to; entries lists the ENTRY parameters the image gives. -/
def State.consistent (t : State) (f : Nat → Nat) (staged : Bool) : Bool :=
  let c := t.cfg
  let worlds := if c.sealedPairs.isEmpty then [0] else [0, 1]
  let given := fun (i : Nat) => (imgRecs f).any (fun e => match e.2.2 with
    | .param 0x0103 ix _ _ => decide (ix = i)
    | _ => false)
  let inCode := fun (x : Nat) => decide (x < 0x0F0012800000) || decide (0x0F0013000000 ≤ x)
    || (imgSecs f).any (fun y => decide (y.typ = 0xF) && decide (y.off ≤ x - 0x0F0012800000) && decide (x - 0x0F0012800000 < y.off + y.len))
  let boot := staged || (worlds.all (fun w => (List.range 4).all (fun e => given (4 * w + e))) && inCode c.resetEntry.toNat
    && inCode c.resetEntryS.toNat)
  let seals := decide (c.sealedSize = 0) || (c.sealedOk && t.keyStoreCovered
    && c.tcmRange.all (fun e => t.coreWorld e.1 || decide (e.2.1 + e.2.2 ≤ c.sealedBase) || decide (c.sealedBase + c.sealedSize ≤ e.2.1)))
  let ways := (List.range 8).all (fun i =>
    let m := tget c.ways i 0
    decide (m ≠ 2 ^ 24 - 1) && (decide (m ≠ 0) || c.sealedPairs.isEmpty))
  boot && seals && ways
    && c.failover.all (fun e => (t.coreWorld e.1 == t.coreWorld e.2) && decide (e.1 ≠ e.2))
    && (List.range 640).all (fun n => decide (t.rf (.intcSrc n) intcSrc_EN = 0)
        || (t.coreWorld (t.rf (.intcSrc n) intcSrc_TARGET / 2) == decide (t.rf (.intcSrc n) intcSrc_OWNER = 1)))
    && (List.range 64).all (fun q => decide (t.rf (.ingClass q) ingClass_EN = 0)
        || t.namesPair (t.rf (.ingClass q) ingClass_PAIRS) (t.classSealed q))
    && (List.range 64).all (fun q => decide (t.rf (.xqcfg q) xqcfg_EN = 0)
        || t.namesPair (t.rf (.xqcfg q) xqcfg_SERVERS) (decide (q < 32)))
    && (decide (t.rf .cdlRpass cdlRpass_EN = 0) || t.namesPair (t.rf .cdlRpass cdlRpass_PAIRS) false)

/-- The cores of the slice that IMG.SLPAIR and SLWGRP name. -/
def State.sliceCores (s : State) : List Nat :=
  (List.range 24).flatMap (fun k => if bit (s.rf .imgSlpair imgSlpair_PAIRS) k then [2 * k, 2 * k + 1] else [])
    ++ (List.range 32).flatMap (fun j => if bit (s.rf .imgSlwgrp imgSlwgrp_GROUPS) j then [48 + 2 * j, 49 + 2 * j] else [])

/-- The pairs of a mask lie in the slice. -/
def State.pairsInSlice (s : State) (mask : Nat) : Bool :=
  decide (Nat.land mask (s.rf .imgSlpair imgSlpair_PAIRS) = mask)

/-- A domain of IMG.SLDOM. -/
def State.domInSlice (s : State) (d : Nat) : Bool := bit (s.rf (.imgSldom (d / 64)) imgSldom_DOMS) (d % 64)

/-- Every unit of a domain of SLDOM is in the slice. -/
def State.domsInSlice (s : State) : Bool :=
  (List.range 96).all (fun d => !(s.domInSlice d)
    || (decide (d < 24) && bit (s.rf .imgSlpair imgSlpair_PAIRS) d)
    || (decide (24 ≤ d) && decide (d < 56) && bit (s.rf .imgSlwgrp imgSlwgrp_GROUPS) (d - 24))
    || (decide (68 ≤ d) && decide (d < 80) && bit (s.rf .imgSllink imgSllink_LINKS) (d - 68)))

/-- A record of a staged image touches only what R561 lets it change live, or a unit of the slice; t is the state the image leads to. -/
def State.recInSlice (s t : State) (x : Sec) (r : ImgRec) : Bool :=
  match r with
  | .write pa _ =>
    (match s.regAtPa imgQ pa with
    | none => true
    | some (.cdlEst) => false
    | some (.cdlLctl l) => bit (s.rf .imgSllink imgSllink_LINKS) l
    | some (.ingClass q) => s.pairsInSlice (t.rf (.ingClass q) ingClass_PAIRS)
    | some (.xqcfg q) | some (.xqentry q) | some (.xqctx q) => s.pairsInSlice (t.rf (.xqcfg q) xqcfg_SERVERS)
    | some .cdlRpass | some .cdlRpdesc => s.pairsInSlice (t.rf .cdlRpass cdlRpass_PAIRS)
    | some (.pwrDom d) => s.domInSlice d
    | some (.pwrDvfs j) => bit (s.rf .imgSlwgrp imgSlwgrp_GROUPS) j
    | some .pwrReset => false
    | some _ => true)
  | .param id _ _ _ => !([0x0901, 0x0902, 0x0D02, 0x0D05].contains id)
  | .tcm n _ _ _ => s.sliceCores.contains n
  | _ => true

/-- A FORMAT or RULES section names the active bank of a device that serves (R573). -/
def State.activeBank (s : State) (x : Sec) : Bool :=
  (decide (x.typ = 6) && decide (x.inst = s.rf .ingBank ingBank_FACT)) || (decide (x.typ = 7) && decide (x.inst = s.rf .ingBank ingBank_RACT))

/-- Check 10; slice tells that the slice registers hold the slice of a reconfiguration. -/
def State.imgCheck10 (s t : State) (f : Nat → Nat) (staged slice : Bool) : Option ImgFail :=
  match (if staged then (imgSecs f).find? (fun x => s.activeBank x) else none) with
  | some x => some ⟨10, x.ix, 0⟩
  | none =>
    match (if slice then (imgRecs f).find? (fun e => !(s.recInSlice t e.1 e.2.2)) else none) with
    | some e => some ⟨10, e.1.ix, e.2.1⟩
    | none => if t.consistent f staged = false ∨ (slice = true ∧ s.domsInSlice = false) then some ⟨10, 0, 0⟩ else none

/-- Checks 1 to 11 in order (R566): the first that fails. -/
def State.imgCheck (s : State) (f : Nat → Nat) (staged : Bool) : Option ImgFail :=
  match imgCheck1 f with
  | some e => some e
  | none =>
    match s.imgCheck6 f with
    | some e => some e
    | none =>
      match imgCheck7 f staged with
      | some e => some e
      | none =>
        match s.imgCheck8 f with
        | some e => some e
        | none =>
          match imgCheck9 f with
          | some e => some e
          | none =>
            let (t, bad) := s.imgSim f staged
            match s.imgCheck10 t f staged false with
            | some e => some e
            | none => bad

/-! ## Where an image lies -/

/-- The image in flash slot k (R555). -/
def State.slotImage (s : State) (k i : Nat) : Nat := (s.flashByte ((if k = 0 then 0x00100000 else 0x02000000) + i)).toNat

/-- The staged image that IMG.STAGE names (R572), as IMG reads DRAM (R57). -/
def State.stagedImage (s : State) (i : Nat) : Nat :=
  let a := s.rf .imgStage imgStage_ADDR * 4096 + i
  byteOf (s.mem.masterRead (a / 8 * 8)).1 (a % 8)

/-- The image in the BAR2 staging window (R556). -/
def State.barImage (s : State) (i : Nat) : Nat := (aget s.bar2 i 0).toNat

/-- IMG.STAT shows a result. -/
def State.imgResult (s : State) (e : Option ImgFail) : State :=
  match e with
  | none => ((s.setRf .imgStat imgStat_RESULT 0).setRf .imgStat imgStat_SECTION 0).setRf .imgStat imgStat_OFFSET 0
  | some e => ((s.setRf .imgStat imgStat_RESULT e.result).setRf .imgStat imgStat_SECTION e.sec).setRf .imgStat imgStat_OFFSET e.off

/-- A reconfiguration ends without applying anything (R572). -/
def State.imgGiveUp (s : State) (e : ImgFail) : State :=
  let s := s.imgResult (some e)
  let s := { s with recon := none, linkQui := [] }
  let s := s.sliceCores.foldl (fun s n => s.setCore (s.unit n) { s.core (s.unit n) with quiesced := false }) s
  let s := s.setRf .imgStat imgStat_BUSY 0
  (s.setMode (if s.degr = 0 then mdSERVICE else mdDEGRADED)).report 580

/-- A write of 1 to IMG.CHECK.GO by an idle IMG (R572, R556): a check begins. -/
def State.checkGo (s : State) : State :=
  if s.serving = true ∨ (s.mode = mdCONFIGURE ∧ s.rf .sysMode sysMode_RECOVERY = 1) then
    (s.setRf .imgStat imgStat_BUSY 1).setRf .imgStat imgStat_CHECKED 0
  else s

/-- A write of 1 to IMG.RCTL.GO by an idle IMG (R572, steps 3 and 4): ignored unless CHECKED is 1; otherwise the mode becomes RECONFIG,
check 10 is made against the slice, and the slice begins to quiesce. -/
def State.rctlGo (s : State) (q : Requester) (force : Bool) : State :=
  if s.rf .imgStat imgStat_CHECKED = 0 ∨ (s.mode ≠ mdSERVICE ∧ s.mode ≠ mdDEGRADED) then s.cfgIgnored q .imgRctl
  else
    let s := (s.setMode mdRECONFIG).setRf .imgStat imgStat_BUSY 1
    match s.imgCheck10 (s.imgSim s.stagedImage true).1 s.stagedImage true true with
    | some e => s.imgGiveUp e
    | none =>
      let links := (List.range 12).filter (fun l => bit (s.rf .imgSllink imgSllink_LINKS) l)
      let s : State := { s with recon := some ⟨force, s.now⟩, linkQui := links }
      s.sliceCores.foldl (fun s n => s.setCore (s.unit n) { s.core (s.unit n) with quiesced := true }) s

end Sys2Proof.Machine
end

