-- ==== Sys2Proof/Machine/RegWrite.lean ====
section
/-! DEFINITION. A write and a read of a memory-mapped register: what the world rules, the field types and the apply classes leave of a
write (R5-R12, R625), what each register's write does, and the fields that mirror live state. -/

namespace Sys2Proof.Machine

open Sys2Proof

/-! ## Writes with an effect of their own -/

/-- TXCTL.ABORT written by context k of core n (R435, R436, R440): 1 discard and redispatch, 2 discard and end ABORTED, 3
release, in any state of the transaction. The release counts as one that takes an instruction's context from under it. -/
def txAbort (s : State) (n k v : Nat) : State :=
  if v = 1 then s.discardTx n k none
  else if v = 2 then s.discardTx n k (some 1)
  else if v = 3 then
    let s := ((s.discardTx n k none).loseService n k).releaseCtx n k
    let c := s.core n
    s.setCore n { c with resets := c.resets + 1 }
  else s

/-- CLAIMSTAT of a claim or release that has ended (R505). -/
def State.claimEnd (s : State) (result node : Nat) : State :=
  let s := ((s.setRf .cdlClaimstat cdlClaimstat_BUSY 0).setRf .cdlClaimstat cdlClaimstat_RESULT result).setRf .cdlClaimstat
    cdlClaimstat_NODE node
  { s with fab := { s.fab with claim := none } }

/-- An entry of the local table with V = 1 names a page of the plot (R505). -/
def State.plotMapped (s : State) (p : Nat) : Bool :=
  (List.range s.tableN).any (fun i =>
    let e := readIpt s.mem (s.tableBase + 32 * i)
    e.v && !e.space && decide (e.vpn / 128 = p))

/-- A write of CDL.CLAIM (R505, R527): REG goes to the registrar of the plot, unless a release finds pages still mapped. -/
def State.claimWritten (s : State) (v : Word) : State :=
  let op := fld v 63 62
  let p := fld v 26 0
  if op = 0 ∨ op = 3 ∨ s.rf .cdlClaimstat cdlClaimstat_BUSY = 1 then s
  else
    let s := (s.setRf .cdlClaimstat cdlClaimstat_PLOT p).setRf .cdlClaimstat cdlClaimstat_BUSY 1
    if op = 2 ∧ s.plotMapped p = true then s.claimEnd 3 0
    else
      let (id, s) := s.newReq
      match s.send (s.mkPkt pkREG (s.askNode p) id (op + s.node * 16) (p * 2 ^ 21) [] []) with
      | (none, s) => s.claimEnd 2 0
      | (some _, s) => { s with fab := { s.fab with claim := some ⟨op, p, id, s.now + s.rtmo⟩ } }

/-- A write of DEP.RETIRE that carries no reserved value (R548, R539). -/
def State.retireWritten (s : State) (v : Word) : State :=
  let sc := fld v 7 4
  let ix := fld v 39 12
  match fld v 1 0 with
  | 1 => s.retire sc ix false
  | 2 => { s with retLog := s.retLog.filter (fun e => decide (e ≠ (sc, ix))) }
  | _ => s

/-- A write of KEY.UCTL: EN takes a unit in service out, or puts one back (R463). -/
def State.uctlWritten (s : State) (u : Nat) : State :=
  let st := s.rf (.keyUstat u) keyUstat_STATE
  let en := s.rf (.keyUctl u) keyUctl_EN
  if st = 0 ∧ en = 0 then s.setRf (.keyUstat u) keyUstat_STATE 1
  else if st = 1 ∧ en = 1 then s.setRf (.keyUstat u) keyUstat_STATE 0
  else s

/-- A write of SYS.SVNCOMMIT.GO (R582): the SVN fuse rises to the active image's SVN. -/
def State.svnCommit (s : State) : State :=
  let v := Nat.min 63 (s.rf .imgActsvn imgActsvn_SVN)
  (s.setRf .sysFuse sysFuse_SVNMIN (Nat.max v (s.rf .sysFuse sysFuse_SVNMIN))).report 589

/-- What a write does beyond its fields, once they are applied: v is the word written, old the register before, and ignored tells that a
field of the write was ignored. -/
def regEffect (s : State) (q : Requester) (r : Reg) (v old : Word) (ignored : Bool) : State :=
  match r with
  | .intcDoorbell => s.doorbell v
  | .intcTmr k => if (s.reg (.intcTmr k)).toNat ≤ s.now then s.timerFire k else s
  | .intcTgt t => (if flag v 16 then s.eoi t else s).retarget t
  | .intcSrc n => s.srcWritten n v
  | .mcsLoadreq => if ignored then s else s.loadReq v
  | .rdgEpoch => if flag v 0 then s.advWrite else s
  | .dbgCorectl n => s.corectlWritten n v
  | .memPcctl p =>
    let s := if flag v 3 then s.calNow p else s
    if flag v 16 then s.retireOne 2 p false else s
  | .pleGive =>
    let (bad, s) := s.give (fld v 22 0)
    if bad then s.cfgReject q r else s
  | .ingFload => s.fetchFormat (s.rf .ingBank ingBank_FACT) (fld v 7 0)
  | .ingTxctl t => txAbort s (s.unit (t / 2)) (t % 2) (fld v 1 0)
  | .keyUctl u => s.uctlWritten u
  | .jcSlot j => if flag v 8 then s.jcRelease j else s
  | .jcRel => s.jcRelseq old v
  | .jcRdctl => if flag v 0 then s.jcGo else s
  | .cdlLctl l => s.lctlWritten l old
  | .cdlClaim => s.claimWritten v
  | .depRetire => s.retireWritten v
  | .depRec i => if flag v 0 then s.zeroRecord i else s
  | .monCtl m => s.monWritten m v
  | .sysLock => if fld v 31 0 = 0x4C4B444E then s.lockdown 7 0 else s
  | .sysSvncommit => if flag v 0 then s.svnCommit else s
  | .imgStage => if s.reg .imgStage ≠ old then s.setRf .imgStat imgStat_CHECKED 0 else s
  | .imgCheck => if flag v 0 && !ignored then s.checkGo else s
  | .imgRctl => if flag v 0 && !ignored then s.rctlGo q (flag v 1) else s
  | .pwrReset => s.resetWritten v
  | .pwrDom d => s.domWritten d old
  | .pwrDvfs j => s.groupMove j
  | .mgtUdata => s.uartWrite (fld v 7 0)
  | .mgtMctl => s.mctlWritten v
  | .mgtFlcmd => if ignored || !(decide (fld v 2 0 ≤ 3)) then s else s.flashStart (fld v 2 0)
  | _ => s

/-! ## Writes -/

/-- A write of a register: none when the write raises CAP_PERM under a world rule, the register staying unchanged. -/
def regWrite (s : State) (q : Requester) (r : Reg) (v : Word) : Option State :=
  if s.sealedShut then some s
  else if regDenied s q r v then none
  else if s.recHidden q r || s.regOff r then some s
  else if wholeRejected r v then some (s.cfgReject q r)
  else
    let old := s.reg r
    let s := match r with
      | .rdgBase i | .rdgLimit i | .rdgAttr i => s.rdgKeep i
      | _ => s
    let j := judge s q r v
    some (regEffect ((j.events q r).setReg r j.w) q r v old j.ignored)

/-! ## Reads -/

/-- A field of a word that mirrors live state. -/
def mirror (w : Word) (f : Fd) (v : Nat) : Word := setFld w f.hi f.lo (v % 2 ^ (f.hi - f.lo + 1))

/-- The word of a register with the values last written to its S fields (R9, R12). -/
def State.shadowed (s : State) (r : Reg) : Word :=
  (s.shadow.filter (fun (e : Reg × Nat × Nat) => decide (e.1 = r))).foldl (fun v e =>
    match r.fields.find? (fun f => decide (f.lo = e.2.1)) with
    | some f => setFld v f.hi f.lo e.2.2
    | none => v) (s.reg r)

/-- TXCTL of a context (R440): the commit-buffer entries of its pair in use and the state of its transaction. -/
def State.txctlWord (s : State) (t : Nat) : Word :=
  let n := s.unit (t / 2)
  let st := match (s.ctx n (t % 2)).tx.state with
    | .none => 0
    | .active => 1
    | .discarded => 2
  mirror (mirror 0 ingTxctl_USED (s.bufferUsed n)) ingTxctl_STATE st

/-- The kind of a key unit as KIND reads (R463). -/
def State.kindWord (s : State) (u : Nat) : Word := mirror (s.reg (.keyUctl u)) keyUctl_KIND (unitKind u)

/-- A read of a register that shows itself: its word with the fields that mirror live state, and what the read does. -/
def regLive (s : State) (r : Reg) : Word × State :=
  let w := s.shadowed r
  match r with
  | .intcNow => (word s.now, s)
  | .intcTgt t =>
    let n := s.unit (t / 2)
    (mirror (mirror w intcTgt_IDLE (b2n ((s.core n).held || decide ((s.ctx n (t % 2)).st = .idle)))) intcTgt_WORLD (b2n (s.coreWorld n)), s)
  | .mcsCore n => (mirror w mcsCore_QUI (b2n (s.coreQui n)), s)
  | .pleTake st =>
    let (f, s) := s.take st
    (word f, s)
  | .pleOvf =>
    let (f, s) := s.takeOvf
    (word f, s)
  | .ingCstat c => (mirror w ingCstat_OCC (tget s.queues c []).length, s)
  | .ingBank =>
    (mirror w ingBank_FBUSY (b2n (match s.pbank with
      | some b => decide (b ≠ s.lastWritten .ingBank ingBank_FACT)
      | none => false)), s)
  | .ingTxctl t => (s.txctlWord t, s)
  | .keyQstat => (mirror (mirror 0 keyQstat_OPEN (Nat.min (tget s.kq 0 []).length 256)) keyQstat_SEALED (Nat.min (tget s.kq 1 []).length 256), s)
  | .keyUctl u => (s.kindWord u, s)
  | .jcStat => (mirror w jcStat_STAGED (s.notDurable / 1024), s)
  | .egrCstat l => (mirror w egrCstat_HELD ((s.egr.filter (fun (e : Resp) => decide (e.lane = l))).length), s)
  | .pwrDom d => (mirror w pwrDom_FIXED (b2n (!(switchable d))), s)
  | .mgtUdata => s.uartRead
  | _ => (w, s)

/-- A counter read under the two-read rule whose value is w has just carried out of bit 31 (R382): INTC.NOW within 4 cycles of its clock;
a sequence field of JC at the count that carried. -/
def carried (r : Reg) (w : Word) : Bool :=
  decide (2 ^ 32 ≤ w.toNat) && (match r with
    | .intcNow => decide (w.toNat % 2 ^ 32 < 40)
    | .jcSeq | .jcDur | .jcRel => decide (w.toNat % 2 ^ 32 = 0)
    | _ => false)

/-- What a read of a counter answers (R382): its value or, just after a carry and at most once for each requester, that less 2^32; a free
value says which. -/
def twoRead (s : State) (q : Requester) (r : Reg) (w : Word) : Word × State :=
  let mark := (q, r, w.toNat / 2 ^ 32)
  if carried r w && !(s.lagged.contains mark) then
    let (v, s) := s.draw
    if v % 2 = 0 then (w, s) else (w - BitVec.ofNat 64 (2 ^ 32), { s with lagged := s.lagged ++ [mark] })
  else (w, s)

/-- A read of a register: zero where only the diagnostic registers answer (R578) or where the record is hidden (R534), and the reset value
where the unit's domain is off (R587). -/
def regRead (s : State) (q : Requester) (r : Reg) : Word × State :=
  if s.sealedShut && !(diagReg r) then (0, s)
  else if s.recHidden q r then (0, s)
  else if s.regOff r then (r.reset, s)
  else
    let (w, s) := regLive s r
    twoRead s q r w

/-- A 64-bit read of register space: an offset with no register reads as zero (R26). -/
def readPa (s : State) (q : Requester) (pa : Nat) : Word × State :=
  match s.regAtPa q pa with
  | none => (0, s)
  | some r => regRead s q r

/-- The physical address is the reserved fourth register of an entry of the Ridge table (R362, R365), or a reserved word of a dispatch rule
(R423, R426), and a write of it by the requester is denied. -/
def State.spareDenied (s : State) (q : Requester) (pa : Nat) : Bool :=
  let off := pa - (Reg.rdgBase 0).pa
  let ro := pa - (Reg.ingRuleW0 0).pa
  (decide ((Reg.rdgBase 0).pa ≤ pa) && decide (off < 32 * 1024) && decide (off % 32 = 0x18) && regDenied s q (.rdgBase (off / 32)) 0)
    || (decide ((Reg.ingRuleW0 0).pa ≤ pa) && decide (ro < 64 * 8192) && decide (48 ≤ ro % 64) && regDenied s q (.ingRuleVala (ro / 64)) 0)

/-- A 64-bit write of register space: a write to an offset with no register is ignored (R26). -/
def writePa (s : State) (q : Requester) (pa : Nat) (v : Word) : Option State :=
  match s.regAtPa q pa with
  | none => if s.spareDenied q pa then none else some s
  | some r => regWrite s q r v

end Sys2Proof.Machine
end

