-- ==== Sys2Proof/Machine/Access.lean ====
section
/-! DEFINITION. An access of a core through a capability: the checks of R52 in their order, where the bytes lie, loads and
stores with their tags, the commit buffer of a handler transaction and the store buffer (R52-R62, R184-R190, R431-R433,
R626). -/

namespace Sys2Proof.Machine

open Sys2Proof

/-- An access to check: the authorising capability and its number for EINFO[27:24], the effective address and size, the
kind of R339, the permissions it needs, EINFO bits of stored-capability rules already found broken (R45, R46: bits 17 and
18), the alignment it needs (0: none), whether an SE page or register space bars it, whether it is a plain data access,
which alone may reach a register, and whether its form may be sent to another node (R506). -/
structure Acc where
  cap   : Cap
  capNo : Nat
  ea    : Nat
  size  : Nat
  kind  : Nat
  perms : Nat
  rules : Nat
  align : Nat
  bar   : Bool
  plain : Bool
  far   : Bool
  deriving DecidableEq, Repr

/-- What an access must wait for before it can be checked further: MV of an entry to clear (R354), or the owner of the plot of
an address (R502). -/
inductive WaitFor where
  | mv (va entry info : Nat)
  | owner (va capNo : Nat)
  deriving DecidableEq, Repr

/-- How the checks before the tags end. -/
inductive Resolved where
  | ok (cs : List Chunk)
  | trap (t : Trap)
  | wait (w : WaitFor)
  deriving DecidableEq, Repr

/-- The form of an access may be sent to another node (R506): a data access within one aligned word, a capability access, or
GETTAG. -/
def Acc.sendable (a : Acc) : Bool := a.far && (decide (a.size = 16) || decide (a.ea % 8 + a.size ≤ 8))

/-- EINFO of a cause that names only the capability register (R53). -/
def capInfo (capNo : Nat) : Nat := capNo * 2 ^ 24

/-- CAP_INVALID of a capability (R53). -/
def trapInvalid (c : Cap) (capNo : Nat) : Trap := ⟨ecCAP_INVALID, capInfo capNo + c.invalidInfo, c.cur, 0⟩

/-- CAP_SEALED of a capability (R53). -/
def trapSealed (c : Cap) (capNo : Nat) : Trap := ⟨ecCAP_SEALED, capInfo capNo, c.cur, 0⟩

/-- CAP_PERM with its content bits (R53). -/
def trapPerm (capNo bits addr : Nat) : Trap := ⟨ecCAP_PERM, capInfo capNo + bits, addr, 0⟩

/-- The memory of a core that serves a physical address: its TCM within its range, DRAM elsewhere (R280). -/
def State.tgtOf (s : State) (n pa : Nat) : Tgt :=
  match tfind s.cfg.tcmRange n with
  | some (b, z) => if b ≤ pa ∧ pa < b + z then .tcm n else .dram
  | none => .dram

/-- The place of a physical address for core n. -/
def State.placeOf (s : State) (n pa : Nat) : Place :=
  if backedDram pa then .mem (s.tgtOf n pa) pa
  else if isRegSpace pa then .reg pa
  else .unbacked pa

/-- Steps 1 to 3 of R52: the capability, its world and permissions, the DEVICE ranges (R43, R44), which an access of no byte does not
meet. DESIGN CHOICE, safe: an access through a DEVICE capability whose bytes run past 2^64 counts as one outside its ranges
(EINFO[19]); the spec does not say whether that or CAP_BOUNDS comes. -/
def capCheck (s : State) (E : Env) (a : Acc) : Option Trap :=
  let c := a.cap
  let openCtx := !((s.ctx E.n E.k).world)
  let device := c.has pDEVICE
  let last := a.ea + (a.size - 1)
  let sysWin := device && decide (a.size ≠ 0) && (inSysWindow a.ea || inSysWindow last)
  let need := a.perms + (if sysWin && !(bit a.perms pSYS) then pm pSYS else 0)
  let found := c.missing need + (if openCtx && c.world then 2 ^ 16 else 0) + a.rules
    + (if device && decide (a.size ≠ 0) && (decide (a.ea < 0x1800000000) || decide (2 ^ 64 ≤ last)) then 2 ^ 19 else 0)
  if !c.valid then some (trapInvalid c a.capNo)
  else if c.isSealed then some (trapSealed c a.capNo)
  else if found ≠ 0 then some (trapPerm a.capNo found a.ea)
  else if sysWin && !(seeSup s E) then some trapPRIV
  else none

/-- The addresses a space has (R22): 48 bits in the global space, 40 in the sealed space, 64 for a device capability. -/
def spaceLimit (c : Cap) : Nat :=
  if c.has pDEVICE then 2 ^ 64 else if c.world then 2 ^ 40 else 2 ^ 48

/-- Step 5 of R52: the cursor range (R22), then the bounds for all bytes (R38, R154). EADDR is the cursor under R22, and
otherwise the first byte outside. DESIGN CHOICE, safe: an effective address past the addresses of its space raises CAP_BOUNDS at the
first byte past them, as one past the top does; R22 speaks of the cursor alone. -/
def boundsCheck (c : Cap) (capNo ea size : Nat) : Option Trap :=
  let lim := spaceLimit c
  if lim ≤ c.cur then some ⟨ecCAP_BOUNDS, capInfo capNo + size % 2 ^ 16, c.cur, 0⟩
  else if ea < c.base ∨ c.top ≤ ea ∨ lim ≤ ea then some ⟨ecCAP_BOUNDS, capInfo capNo + size % 2 ^ 16, ea, 0⟩
  else if Nat.min c.top lim < ea + size then
    some ⟨ecCAP_BOUNDS, capInfo capNo + size % 2 ^ 16, Nat.min c.top lim, 0⟩
  else none

/-- The context runs a read-only remote-PASS service (service 3), in which a store to an SE page or to register space raises
CAP_PERM with EINFO[21] (R515). -/
def State.readOnlyStore (s : State) (E : Env) (kind : Nat) : Bool :=
  decide ((s.ctx E.n E.k).tx.service = 3) && (decide (kind = kSTORE) || decide (kind = kRMW))

/-- A compatibility fetch: a fetch of a P-core from the boot-flash window (R297). -/
def State.compat (s : State) (E : Env) (kind pa : Nat) : Bool :=
  decide (kind = kFETCH) && decide (E.n < 48) && (s.windowOffset pa).isSome

/-- A flash offset is served from the window (R557, R620): it lies in a CODE section of the applied image, and its 4 KiB block has the
digest that IMG recorded, which is checked when the block is first read after a reset; a block that fails is reported. -/
def State.serveFlash (s : State) (q : Requester) (off pa : Nat) : Bool × State :=
  let b := off / 4096
  if !(s.cfg.code.any (fun e => decide (e.1 ≤ off) && decide (off < e.1 + e.2))) then (false, s)
  else if s.fetched.contains b then (true, s)
  else
    let bytes := (List.range 4096).map (fun i => s.flashByte (4096 * b + i))
    if tfind s.cfg.codeDig b = some (Config.sha256 bytes) then (true, { s with fetched := s.fetched ++ [b] })
    else (false, s.raise 11 18 0x3B (cfgAux q) pa)

/-- Step 6 and step 7 of R52 for the part of an access in one page. -/
def chunkAt (s : State) (E : Env) (a : Acc) (va len : Nat) : Resolved × State :=
  if a.cap.has pDEVICE then
    let p := s.placeOf E.n va
    match p with
    | .reg q =>
      if s.compat E a.kind q then (.ok [⟨va, len, p, false⟩], s)
      else if !a.plain then (.trap ⟨ecSE_ACCESS, capInfo a.capNo, va, 0⟩, s)
      else if s.readOnlyStore E a.kind then (.trap (trapPerm a.capNo (2 ^ 21) va), s)
      else (.ok [⟨va, len, p, true⟩], s)
    | _ => (.ok [⟨va, len, p, false⟩], s)
  else
    match (if a.cap.world then (Owner.here, s) else plotOwner s E a.kind va) with
    | (.ask, s) => (.wait (.owner va a.capNo), s)
    | (.node node, s) =>
      let found := (if a.cap.has pREMOTE then 0 else pm pREMOTE) + (if a.sendable then 0 else 2 ^ 20)
      if found ≠ 0 then (.trap (trapPerm a.capNo found va), s)
      else (.ok [⟨va, len, .remote node, false⟩], s)
    | (.here, s) =>
      match translate s E a.cap.world va a.kind a.capNo a.bar with
      | (.trap t, s) => (.trap t, s)
      | (.wait e i, s) => (.wait (.mv va e i), s)
      | (.pa p se, s) =>
        match s.placeOf E.n p with
        | .reg q =>
          if s.compat E a.kind q then (.ok [⟨va, len, .reg q, se⟩], s)
          else if !a.plain then (.trap ⟨ecSE_ACCESS, capInfo a.capNo, va, 0⟩, s)
          else if s.readOnlyStore E a.kind then (.trap (trapPerm a.capNo (2 ^ 21) va), s)
          else (.ok [⟨va, len, .reg q, true⟩], s)
        | pl =>
          if se && s.readOnlyStore E a.kind then (.trap (trapPerm a.capNo (2 ^ 21) va), s)
          else (.ok [⟨va, len, pl, se⟩], s)

/-- The checks of R52 up to step 7 for a whole access; an access that crosses a page is resolved in its two parts. -/
def resolve (s : State) (E : Env) (a : Acc) : Resolved × State :=
  match capCheck s E a with
  | some t => (.trap t, s)
  | none =>
    if a.align ≠ 0 ∧ a.ea % a.align ≠ 0 then (.trap ⟨ecALIGN, capInfo a.capNo, a.ea, 0⟩, s)
    else
      match boundsCheck a.cap a.capNo a.ea a.size with
      | some t => (.trap t, s)
      | none =>
        let first := Nat.min a.size (2 ^ 14 - a.ea % 2 ^ 14)
        match chunkAt s E a a.ea first with
        | (.ok cs, s) =>
          if first = a.size then (.ok cs, s)
          else
            match chunkAt s E a (a.ea + first) (a.size - first) with
            | (.ok cs', s) => (.ok (cs ++ cs'), s)
            | r => r
        | r => r

/-! ## Breakpoints -/

/-- The BREAK of the first armed breakpoint of a kind that matches one of n bytes at a virtual address (R376). -/
def State.breakAt (s : State) (core kind va n : Nat) : Option Trap :=
  (List.range 4).findSome? (fun i =>
    let r := s.reg (.dbgBrk i)
    let a := fld r 47 2 * 4
    if flag r 63 = true ∧ fld r 62 61 = kind ∧ s.unit (fld r 60 54) = core ∧ s.coreWorld core = false
        ∧ va < a + 4 ∧ a < va + n then
      some ⟨ecBREAK, i + kind * 16, a, 0⟩
    else none)

/-! ## Loads -/

/-- The tag check of a data load on one word (R57): none when the data is returned. idx tells the second word. -/
def loadTagTrap (tag capNo addr : Nat) (second : Bool) : Option Trap :=
  if tag = tINT ∨ tag = tFLT then none
  else if tag = tPOISON then some ⟨ecMC_POISON, capInfo capNo, addr, 0⟩
  else some ⟨ecTAG_FAULT, capInfo capNo + tag + 256 * b2n second, addr, 0⟩

/-- The physical words of a memory chunk with the virtual address of the first byte touched in each. -/
def Chunk.words (c : Chunk) : List (Nat × Nat) :=
  match c.place with
  | .mem _ pa => (wordsOf pa c.len).map (fun w => (w, c.va + (w - pa)))
  | _ => []

/-- The first tag fault of a data load over the words of its chunks, in ascending address order (R52, R57). ea is the
address of the access: its second word is reported with EINFO[8]. -/
def loadTags (s : State) (E : Env) (capNo ea : Nat) (cs : List Chunk) : Option Trap :=
  cs.findSome? (fun c => match c.place with
    | .mem t _ => c.words.findSome? (fun w => loadTagTrap ((s.ctxMem E.n E.k t).tag w.1) capNo w.2 (decide (w.2 / 8 = ea / 8 + 1)))
    | .unbacked _ => some ⟨ecMC_BUS, capInfo capNo, c.va, 0⟩
    | _ => none)

/-- The bytes of a chunk as the context sees them. -/
def chunkBytes (s : State) (E : Env) (c : Chunk) : List Nat :=
  match c.place with
  | .mem t pa =>
    let m := s.ctxMem E.n E.k t
    (List.range c.len).map (fun i => (m.byte (pa + i)).toNat)
  | _ => List.replicate c.len 0

/-- A chunk lies in DRAM, which is far from every core. -/
def Chunk.far (c : Chunk) : Bool :=
  match c.place with
  | .mem .dram _ => true
  | _ => false

/-- How many of n bytes from address pa on an entry of the store buffer of context k writes in a target. -/
def SbEntry.reaches (e : SbEntry) (k : Nat) (t : Tgt) (pa n : Nat) : Nat :=
  if e.ctx = k ∧ e.tgt = t then
    ((List.range n).filter (fun i => e.ops.any (fun o => decide (o.addr = (pa + i) / 8 * 8) && o.mask.testBit ((pa + i) % 8)))).length
  else 0

/-- A load of a W-core beside the older stores of its context (R301): wholly within the newest one that it overlaps it is forwarded from it;
overlapping them in part, it comes after they have been written. -/
def State.replayLoad (s : State) (E : Env) (cs : List Chunk) : State :=
  let hit := fun (e : SbEntry) => cs.map (fun c => match c.place with
    | .mem t pa => (e.reaches E.k t pa c.len, c.len)
    | _ => (0, 0))
  let sb := (s.core E.n).sb
  match (sb.zipIdx.filter (fun e => (hit e.1).any (fun h => decide (0 < h.1)))).getLast? with
  | none => s
  | some (e, i) => if (hit e).all (fun h => decide (h.1 = h.2)) then s else s.drainN E.n (i + 1)

/-- The line of a load enters the caches of a W-core, and a prefetcher may bring in another line of the same 16 KiB page (R299, R305): a free
value says which, if any. Only pages of DRAM without SE are ever fetched so. -/
def State.cacheLines (s : State) (E : Env) (cs : List Chunk) : State :=
  cs.foldl (fun (s : State) c => match c.place with
    | .mem .dram pa =>
      if c.se then s
      else
        let (v, s) := s.draw
        let c := s.core E.n
        let more := if v % 2 = 0 then [] else [pa / 2 ^ 14 * 2 ^ 14 + v / 2 % 256 * 64]
        s.setCore E.n { c with lines := ((lineOf pa :: more) ++ c.lines.filter (fun l => decide (l ≠ lineOf pa) && !(more.contains l))).take 32768 }
    | _ => s) s

/-- What comes before the bytes of a load are taken (R205, R284, R301): an SE page drains the store buffer, a far load of a P-core waits for
the earlier far stores, and one of a W-core for stores that it overlaps in part. -/
def State.beforeLoad (s : State) (E : Env) (cs : List Chunk) : State :=
  if cs.any (fun c => c.se) then s.drain E.n
  else if E.n < 48 then (if cs.any Chunk.far = true then s.sendFar E.n else s)
  else (s.replayLoad E cs).cacheLines E cs

/-- A far access leaves a P-core, after its comparison in a pair, and issue waits for its answer (R286, R292); a W-core waits with its
consumers alone. -/
def State.farOut (s : State) (E : Env) : State :=
  if E.n < 48 then (s.moreCycles E.n 2).setCore E.n { (s.moreCycles E.n 2).core E.n with farWait := true } else s

/-- The DRAM accesses of these chunks are sampled, and a far one makes issue wait. -/
def State.sampleFar (s : State) (E : Env) (cs : List Chunk) : State :=
  cs.foldl (fun s c => match c.place with
    | .mem .dram pa => (s.touch E.n pa).farOut E
    | _ => s) s

/-- The far requests of an access to these chunks are formed, compared and sent (R291, R294), and issue waits for their answers. -/
def State.noteFar (s : State) (E : Env) (cs : List Chunk) : State :=
  ((cs.filter Chunk.far).foldl (fun s c => s.form E.n (.far c.va c.len)) s).sampleFar E cs

/-- Every byte of a chunk is one that the context holds in its commit buffer (R433). -/
def State.bufferedBytes (s : State) (E : Env) (c : Chunk) : Bool :=
  match c.place with
  | .mem t pa => (List.range c.len).all (fun i => (s.buffer E.n).any (fun e => match e with
    | .line k t' _ _ ws => decide (k = E.k) && decide (t' = t)
        && ws.any (fun w => decide (w.addr = (pa + i) / 8 * 8) && bit w.mask ((pa + i) % 8))
    | _ => false))
  | _ => false

/-- The far accesses of a load: none for bytes that the commit buffer holds, and a load of such bytes alone takes 4 cycles (R433). -/
def State.farLoad (s : State) (E : Env) (cs : List Chunk) : State :=
  let far := cs.filter (fun c => !(s.bufferedBytes E c))
  (if far.isEmpty then s.moreCycles E.n 3 else s).noteFar E far

/-- A split access takes a cycle more (R185, R188). -/
def State.splitCycle (s : State) (E : Env) (a : Acc) : State :=
  if a.size ≤ 8 ∧ 8 < a.ea % 8 + a.size then s.moreCycles E.n 1 else s

/-- Every chunk lies in a TCM, so that a load of it is of the TCM-load class on a P-core (R170). -/
def inTcm (cs : List Chunk) : Bool :=
  cs.all (fun c => match c.place with
    | .mem (.tcm _) _ => true
    | _ => false)

/-- The distance class of a load of these chunks (R170): 2 for a TCM load of a P-core, waited otherwise. -/
def loadClass (E : Env) (cs : List Chunk) : Nat := if E.n < 48 ∧ inTcm cs = true then 2 else 0

/-! ## Stores -/

/-- The old-tag check of a data store on one word (R59, R62). -/
def storeTagTrap (tag mask capNo addr : Nat) (second : Bool) : Option Trap :=
  if tag = tRETREC ∨ 7 ≤ tag then some ⟨ecTAG_FAULT, capInfo capNo + tag + 256 * b2n second, addr, 0⟩
  else if mask ≠ 0xFF ∧ tag = tPOISON then some ⟨ecMC_POISON, capInfo capNo, addr, 0⟩
  else none

/-- The word writes of a chunk for the value whose byte i is the byte at the access's address + i. -/
def Chunk.dataOps (c : Chunk) (ea v tag : Nat) : List WOp :=
  match c.place with
  | .mem _ pa => Sys2Proof.Machine.dataOps pa (v >>> (8 * (c.va - ea))) c.len tag (c.len / 8 + 2)
  | _ => []

/-- The first old-tag fault of a data store over its chunks. -/
def storeTags (s : State) (E : Env) (capNo ea v tag : Nat) (cs : List Chunk) : Option Trap :=
  cs.findSome? (fun c => match c.place with
    | .mem t pa => (c.dataOps ea v tag).findSome? (fun o =>
        let va := if o.addr ≤ pa then c.va else c.va + (o.addr - pa)
        storeTagTrap ((s.checkMem E.n E.k t).tag o.addr) o.mask capNo va (decide (va / 8 = ea / 8 + 1)))
    | _ => none)

/-- A virtual address lies in memory whose writes a transaction of the context never holds: its own context slot and the
response buffer of its frame slot (R431). -/
def State.ownSlot (s : State) (n k va : Nat) : Bool :=
  let tx := (s.ctx n k).tx
  decide (tx.slotLo ≤ va) && decide (va < tx.slotHi)

/-- The response buffer of the context's frame slot. -/
def State.ownResponse (s : State) (n k va : Nat) : Bool :=
  match (s.ctx n k).tx.frame with
  | none => false
  | some f =>
    let b := s.rf .ingImemva ingImemva_VA * 2 ^ 26 + f.slot * 0x4000 + 0x2000
    decide (b ≤ va) && decide (va < b + 0x1000)

/-- What becomes of a write of a context to a chunk: it is made at once, held in the commit buffer, or dropped (R431,
R436). -/
inductive Fate where
  | direct
  | held
  | dropped
  deriving DecidableEq, Repr

/-- The physical address lies in the inverted page table that the core walks. -/
def inTable (s : State) (E : Env) (pa : Nat) : Bool := decide (iptBase s E ≤ pa) && decide (pa < iptBase s E + 32 * iptN s E)

/-- The fate of a write (R431, R436): space is the space of the address (the context slot and the response buffer are named
by virtual address). -/
def State.fate (s : State) (E : Env) (va : Nat) (t : Tgt) (se : Bool) (pa : Nat) : Fate :=
  let covered := !(s.ownSlot E.n E.k va) && !se && decide (t = .dram) && !(inTable s E pa)
  match (s.ctx E.n E.k).tx.state with
  | .none => .direct
  | .active => if covered && !(s.ownResponse E.n E.k va) then .held else .direct
  | .discarded => if covered then .dropped else .direct

/-- The lines of the buffer that context k holds. -/
def State.cbLines (s : State) (n k : Nat) : List (Tgt × Nat) :=
  (s.buffer n).filterMap (fun e => match e with
    | .line k' t a _ _ => if k' = k then some (t, a) else none
    | _ => none)

/-- How many new entries these lines need (R432). -/
def State.cbNeed (s : State) (n k : Nat) (ls : List (Tgt × Nat)) : Nat :=
  (ls.eraseDups.filter (fun l => !((s.cbLines n k).contains l))).length

/-- COMMIT_OVERFLOW with its EINFO (R432). -/
def trapOverflow (s : State) (n addr : Nat) (deferred : Bool) : Trap :=
  ⟨ecCOMMIT_OVERFLOW, s.bufferUsed n + 512 * b2n deferred, addr, 0⟩

/-- A word of a buffered line after a further write of the context (R433, R434): a narrow write merges into the bytes held;
over a buffered capability or cleared word it leaves the whole word held. -/
def mergeWord (w : Option CbWord) (o : WOp) : CbWord :=
  match w with
  | none => ⟨o.addr, o.mask, o.data, o.kind⟩
  | some w =>
    match o.kind with
    | .data t =>
      if o.mask = 0xFF then ⟨o.addr, o.mask, o.data, o.kind⟩
      else
        match w.kind with
        | .data _ => ⟨o.addr, Nat.lor w.mask o.mask, mergeMask w.data o.data o.mask 8, .data t⟩
        | .cap t' => ⟨o.addr, 0xFF, mergeMask (if t' = tINT then w.data else 0) o.data o.mask 8, .data t⟩
        | .raw t' => ⟨o.addr, 0xFF, mergeMask (if t' = tINT ∨ t' = tFLT then w.data else 0) o.data o.mask 8, .data t⟩
    | _ => ⟨o.addr, o.mask, o.data, o.kind⟩

/-- The tag a kind of write leaves. -/
def WKind.tag : WKind → Nat
  | .data t => t
  | .cap t => t
  | .raw t => t

/-- The words of a buffered line after a write: the pair rule of R60 within the buffered words. -/
def mergeWords (ws : List CbWord) (o : WOp) : List CbWord :=
  let old := ws.find? (fun w => decide (w.addr = o.addr))
  let partner := if o.addr % 16 = 0 then o.addr + 8 else o.addr - 8
  let breaks := match old with
    | some w => (decide (w.kind.tag = tCAPLO) || decide (w.kind.tag = tCAPHI)) && decide (w.kind.tag ≠ o.kind.tag)
    | none => false
  let ws := if breaks then
      ws.map (fun w => if w.addr = partner ∧ (w.kind.tag = tCAPLO ∨ w.kind.tag = tCAPHI) then ⟨w.addr, 0xFF, 0, .raw tUNINIT⟩ else w)
    else ws
  if old.isSome then ws.map (fun w => if w.addr = o.addr then mergeWord (some w) o else w)
  else ws ++ [mergeWord none o]

/-- One word write enters the commit buffer of context k; tags are those of its line, which a new entry takes. -/
def cbPut (es : List CbEntry) (k : Nat) (t : Tgt) (tags : List Nat) (o : WOp) : List CbEntry :=
  match es with
  | [] => [.line k t (lineOf o.addr) tags [mergeWord none o]]
  | e :: r =>
    match e with
    | .line k' t' a ts ws =>
      if k' = k ∧ t' = t ∧ a = lineOf o.addr then .line k' t' a ts (mergeWords ws o) :: r
      else e :: cbPut r k t tags o
    | _ => e :: cbPut r k t tags o

/-- Word writes of context k become held. -/
def State.hold (s : State) (n k : Nat) (t : Tgt) (ops : List WOp) : State :=
  { s with cbuf := tset s.cbuf n (ops.foldl (fun es o => cbPut es k t (lineTags (s.viewMem n k t) (lineOf o.addr)) o) (s.buffer n)) }

/-- A group of word writes of one chunk: where they go, and the words. -/
structure Put where
  va   : Nat
  tgt  : Tgt
  se   : Bool
  ops  : List WOp
  deriving DecidableEq, Repr

/-- The physical address of the first word that a write reaches. -/
def Put.pa (p : Put) : Nat := ((p.ops.head?).map (fun o => o.addr)).getD 0

/-- The lines that writes to be held would take. -/
def heldLines (s : State) (E : Env) (ps : List Put) : List (Tgt × Nat) :=
  ps.flatMap (fun p => if s.fate E p.va p.tgt p.se p.pa = .held then p.ops.map (fun o => (p.tgt, lineOf o.addr)) else [])

/-- The overflow check of a set of writes (R432). -/
def overflowTrap (s : State) (E : Env) (addr : Nat) (ps : List Put) : Option Trap :=
  let need := s.cbNeed E.n E.k (heldLines s E ps)
  if 0 < need ∧ 256 < s.bufferUsed E.n + need then some (trapOverflow s E.n addr false) else none

/-- Performs writes whose checks have passed: held, dropped, or put in the store buffer; through a store buffer each line
is one entry. -/
def State.perform (s : State) (E : Env) (ps : List Put) : State :=
  ps.foldl (fun s p => match s.fate E p.va p.tgt p.se p.pa with
    | .held => (groupByLine p.ops).foldl (fun (s : State) g => s.form E.n (.store ⟨E.k, p.tgt, g.1, g.2⟩)) (s.hold E.n E.k p.tgt p.ops)
    | .dropped => s
    | .direct =>
      let s := s.enqueue E.n E.k p.tgt (groupByLine p.ops)
      if p.se then s.drain E.n else s) s

/-- The parts of a store that need a far access: a line that the commit buffer already holds is checked against its entry, and a dropped
write is not made (R433, R436). -/
def State.farStores (s : State) (E : Env) (cs : List Chunk) : List Chunk :=
  cs.filter (fun c => match c.place with
    | .mem t pa => match s.fate E c.va t c.se pa with
      | .direct => true
      | .held => !((s.cbLines E.n E.k).contains (t, lineOf pa))
      | .dropped => false
    | _ => true)

/-- A late bus error of a store (R258): it is held until it can be taken. -/
def State.lateBus (s : State) (E : Env) (addr size : Nat) (fromCommit : Bool) : State :=
  let c := s.core E.n
  (s.setCore E.n { c with ma := c.ma ++ [⟨E.k, ecBUSERR_ASYNC, (size - 1) % 16 + 256 * b2n fromCommit, addr, false⟩] }).holdCheck E.n

/-- What the part of a store that lies at addresses with no memory takes in the commit buffer: its words, of which no byte is written. -/
def unbackedPuts (cs : List Chunk) : List Put :=
  cs.filterMap (fun c => match c.place with
    | .unbacked pa => some ⟨c.va, .dram, c.se, (wordsOf pa c.len).map (fun w => ⟨w, 0, 0, .data tINT⟩)⟩
    | _ => none)

/-- A store that meets a bus error writes no byte (R258): the error is late at once, or, of a store that the transaction holds, at the
commit; a dropped store meets none. -/
def State.lateStore (s : State) (E : Env) (cs : List Chunk) (ea size : Nat) : State :=
  let ps := unbackedPuts cs
  if ps.any (fun p => decide (s.fate E p.va p.tgt p.se p.pa = .held)) then
    let s := ps.foldl (fun (s : State) p => s.hold E.n E.k p.tgt p.ops) s
    let x := s.ctx E.n E.k
    s.setCtx E.n E.k { x with tx := { x.tx with late := x.tx.late ++ [(ea, size)] } }
  else if ps.any (fun p => decide (s.fate E p.va p.tgt p.se p.pa = .dropped)) then s
  else s.lateBus E ea size false

/-- How a memory instruction's access ends: done, a cause to raise, a wait on MV, or a request to another node. -/
inductive Did (α : Type) where
  | ok (a : α) (s : State)
  | trap (t : Trap) (s : State)
  | wait (w : WaitFor) (s : State)
  | remote (node : Nat) (s : State)

/-- A data load of a.size bytes: its value, and the distance class of its result. -/
def loadData (s : State) (E : Env) (a : Acc) : Did (Nat × Nat) :=
  match resolve s E a with
  | (.trap t, s) => .trap t s
  | (.wait w, s) => .wait w s
  | (.ok cs, s) =>
    match cs.head?.map Chunk.place with
    | some (.remote node) =>
      (match s.breakAt E.n 1 a.ea a.size with
       | some t => .trap t s
       | none => .remote node s)
    | some (.reg pa) =>
      match s.breakAt E.n 1 a.ea a.size with
      | some t => .trap t s
      | none =>
        let bus : Trap := ⟨ecMC_BUS, capInfo a.capNo, a.ea, 0⟩
        if a.size = 8 ∧ pa % 8 = 0 then
          let s := s.drain E.n
          match s.windowOffset pa with
          | some off =>
            (match s.serveFlash (.core E.n E.k) off pa with
            | (true, s) => .ok (s.flashRead off 8, 0) s
            | (false, s) => .trap bus s)
          | none =>
            let (v, s) := readPa s (.core E.n E.k) pa
            .ok (v.toNat, 0) s
        else .trap bus s
    | _ =>
      match (cs.findSome? (fun c => match c.place with
          | .mem _ _ => loadTags s E a.capNo a.ea [c]
          | _ => none)) with
      | some t => .trap t s
      | none =>
        match s.breakAt E.n 1 a.ea a.size with
        | some t => .trap t s
        | none =>
          match loadTags s E a.capNo a.ea cs with
          | some t => .trap t s
          | none =>
            let s := (s.splitCycle E a).beforeLoad E cs
            .ok (ofBytes (cs.flatMap (chunkBytes s E)), loadClass E cs) (s.farLoad E cs)

/-- The writes of a data store over its chunks. -/
def dataPuts (cs : List Chunk) (ea v tag : Nat) : List Put :=
  cs.filterMap (fun c => match c.place with
    | .mem t _ => some ⟨c.va, t, c.se, c.dataOps ea v tag⟩
    | _ => none)

/-- A data store of the a.size low bytes of v with a store type. -/
def storeData (s : State) (E : Env) (a : Acc) (v tag : Nat) : Did Unit :=
  match resolve s E a with
  | (.trap t, s) => .trap t s
  | (.wait w, s) => .wait w s
  | (.ok cs, s) =>
    match cs.head?.map Chunk.place with
    | some (.remote node) =>
      (match s.breakAt E.n 2 a.ea a.size with
       | some t => .trap t s
       | none => .remote node s)
    | some (.reg pa) =>
      match s.breakAt E.n 2 a.ea a.size with
      | some t => .trap t s
      | none =>
        if a.size = 8 ∧ pa % 8 = 0 ∧ (s.windowOffset pa).isNone then
          let s := s.drain E.n
          match writePa s (.core E.n E.k) pa (word v) with
          | some s => .ok () s
          | none => .trap (trapPerm a.capNo (2 ^ 16) a.ea) s
        else .ok () (s.lateBus E a.ea a.size false)
    | _ =>
      match storeTags s E a.capNo a.ea v tag cs with
      | some t => .trap t s
      | none =>
        match s.breakAt E.n 2 a.ea a.size with
        | some t => .trap t s
        | none =>
          let ps := dataPuts cs a.ea v tag
          match overflowTrap s E a.ea (ps ++ unbackedPuts cs) with
          | some t => .trap t s
          | none =>
            if unbackedPuts cs ≠ [] then .ok () (s.lateStore E cs a.ea a.size)
            else .ok () (((s.splitCycle E a).perform E ps).sampleFar E (s.farStores E cs))

end Sys2Proof.Machine
end

