-- ==== Sys2Proof/Machine/Words.lean ====
section
/-! DEFINITION. Instruction words: the fields of each form and the instruction that a word, with its prefix, encodes; none where the
encoding is reserved ("Instruction encoding, addressing and distances", R140-R150, and the tables of the two references). -/

namespace Sys2Proof.Machine

open Sys2Proof

/-! ## Fields (R140, R149) -/

/-- MAJOR. -/
def wMajor (w : Nat) : Nat := w / 2 ^ 22 % 64
/-- PRED. -/
def wPred (w : Nat) : Nat := w / 2 ^ 29 % 8
/-- INV. -/
def wInv (w : Nat) : Bool := decide (w / 2 ^ 28 % 2 = 1)
/-- The slot in bits 21:17: rd, vd or t. -/
def wD (w : Nat) : Nat := w / 2 ^ 17 % 32
/-- The slot in bits 16:12: ra or va. -/
def wA (w : Nat) : Nat := w / 2 ^ 12 % 32
/-- The slot in bits 11:7: rb or vb. -/
def wB (w : Nat) : Nat := w / 2 ^ 7 % 32
/-- FN of the forms T and V. -/
def wFn (w : Nat) : Nat := w % 128
/-- FN of form I, in bits 11:10. -/
def wFnI (w : Nat) : Nat := w / 2 ^ 10 % 4
/-- imm10. -/
def wImm (w : Nat) : Nat := w % 1024
/-- OP of form M. -/
def wOp (w : Nat) : Nat := w / 2 ^ 8 % 8
/-- The memory operand of form M (R152). -/
def wMem (w : Nat) : MemOp := ⟨w / 2 ^ 13 % 16, w / 2 ^ 11 % 4, w % 256⟩
/-- cd of form C. -/
def wCd (w : Nat) : Nat := w / 2 ^ 18 % 16
/-- ca of form C. -/
def wCa (w : Nat) : Nat := w / 2 ^ 14 % 16
/-- The source of form C. -/
def wSrc (w : Nat) : Nat := w / 2 ^ 9 % 32
/-- FN of form C. -/
def wFnC (w : Nat) : Nat := w % 512
/-- offset22 of form B. -/
def wOff (w : Nat) : Nat := w % 2 ^ 22

/-- A field that must be zero is zero (R150). -/
def whenZero (field : Nat) (i : Instr) : Option Instr := if field = 0 then some i else none

/-! ## The groups -/

/-- Group 0x01 (R177). -/
def decAlu (h : Hdr) (w : Nat) : Option Instr :=
  let d := wD w; let a := wA w; let b := wB w
  match wFn w with
  | 0x00 => some (.add h d a b) | 0x01 => some (.sub h d a b) | 0x02 => some (.and h d a b) | 0x03 => some (.or h d a b)
  | 0x04 => some (.xor h d a b) | 0x05 => some (.andn h d a b) | 0x06 => some (.sll h d a b) | 0x07 => some (.srl h d a b)
  | 0x08 => some (.sra h d a b) | 0x09 => some (.ror h d a b) | 0x0A => some (.min h d a b) | 0x0B => some (.max h d a b)
  | 0x0C => some (.minu h d a b) | 0x0D => some (.maxu h d a b)
  | 0x10 => whenZero b (.clz h d a) | 0x11 => whenZero b (.ctz h d a) | 0x12 => whenZero b (.popc h d a)
  | 0x13 => whenZero b (.bswap h d a) | 0x14 => some (.sext h d a b) | 0x15 => some (.zext h d a b)
  | 0x20 => some (.slli h d a b) | 0x21 => some (.slli h d a (32 + b))
  | 0x22 => some (.srli h d a b) | 0x23 => some (.srli h d a (32 + b))
  | 0x24 => some (.srai h d a b) | 0x25 => some (.srai h d a (32 + b))
  | 0x26 => some (.rori h d a b) | 0x27 => some (.rori h d a (32 + b))
  | _ => none

/-- Group 0x02 (R178). -/
def decAluI (h : Hdr) (w : Nat) : Option Instr :=
  let d := wD w; let a := wA w; let m := wImm w
  match wFnI w with
  | 0 => some (.addi h d a m) | 1 => some (.andi h d a m) | 2 => some (.ori h d a m) | _ => some (.xori h d a m)

/-- Group 0x03 (R178): FN in bit 16, imm16 below it. -/
def decMove (h : Hdr) (w : Nat) : Option Instr :=
  if w / 2 ^ 16 % 2 = 0 then some (.movi h (wD w) (w % 65536)) else some (.movs h (wD w) (w % 65536))

/-- Group 0x04 (R179): pd in bits 21:19. -/
def decCmp (h : Hdr) (w : Nat) : Option Instr :=
  let p := wD w / 4; let a := wA w; let b := wB w
  if wD w % 4 ≠ 0 then none
  else match wFn w with
    | 0 => some (.ceq h p a b) | 1 => some (.cne h p a b) | 2 => some (.clt h p a b) | 3 => some (.cge h p a b)
    | 4 => some (.cltu h p a b) | 5 => some (.cgeu h p a b) | 6 => some (.ctst h p a b) | _ => none

/-- Group 0x05 (R179). -/
def decCmpI (h : Hdr) (w : Nat) : Option Instr :=
  let p := wD w / 4; let a := wA w; let m := wImm w
  if wD w % 4 ≠ 0 then none
  else match wFnI w with
    | 0 => some (.ceqi h p a m) | 1 => some (.cnei h p a m) | 2 => some (.clti h p a m) | _ => some (.cgei h p a m)

/-- Group 0x06 (R179): pa in bits 16:14, pb in bits 11:9. -/
def decPred (h : Hdr) (w : Nat) : Option Instr :=
  let p := wD w / 4; let a := wA w / 4; let b := wB w / 4
  if wD w % 4 ≠ 0 ∨ wA w % 4 ≠ 0 ∨ wB w % 4 ≠ 0 then none
  else match wFn w with
    | 0 => some (.pand h p a b) | 1 => some (.por h p a b) | 2 => some (.pxor h p a b) | 3 => some (.pandn h p a b)
    | 4 => whenZero b (.pnot h p a) | _ => none

/-- Group 0x07 (R180). -/
def decMul (h : Hdr) (w : Nat) : Option Instr :=
  let d := wD w; let a := wA w; let b := wB w
  match wFn w with
  | 0 => some (.mul h d a b) | 1 => some (.mulh h d a b) | 2 => some (.mulhu h d a b) | 3 => some (.mulhsu h d a b)
  | 4 => some (.div h d a b) | 5 => some (.divu h d a b) | 6 => some (.rem h d a b) | 7 => some (.remu h d a b) | _ => none

/-- Group 0x08 (R183): FN[6] selects the format. -/
def decFloat (h : Hdr) (w : Nat) : Option Instr :=
  let f := decide (wFn w / 64 = 1); let d := wD w; let a := wA w; let b := wB w
  match wFn w % 64 with
  | 0 => some (.fadd h f d a b) | 1 => some (.fsub h f d a b) | 2 => some (.fmul h f d a b) | 3 => some (.fdiv h f d a b)
  | 4 => whenZero b (.fsqrt h f d a) | 5 => some (.fmin h f d a b) | 6 => some (.fmax h f d a b) | 7 => some (.fmac h f d a b)
  | _ => none

/-- Group 0x09 (R183). -/
def decFloatMove (h : Hdr) (w : Nat) : Option Instr :=
  let f := decide (wFn w / 64 = 1); let d := wD w; let a := wA w; let b := wB w
  match wFn w % 64 with
  | 0 => whenZero (d % 4) (.fceq h f (d / 4) a b) | 1 => whenZero (d % 4) (.fclt h f (d / 4) a b)
  | 2 => whenZero (d % 4) (.fcle h f (d / 4) a b) | 3 => whenZero (d % 4) (.fcun h f (d / 4) a b)
  | 8 => whenZero b (.fneg h f d a) | 9 => whenZero b (.fabs h f d a) | 0x0A => whenZero b (.fclass h f d a)
  | 0x10 => whenZero b (.fcvtif h f d a) | 0x11 => whenZero b (.fcvtuf h f d a) | 0x12 => whenZero b (.fcvtfi h f d a)
  | 0x13 => whenZero b (.fcvtfir h f d a) | 0x14 => whenZero b (.fcvtfu h f d a) | 0x18 => whenZero b (.fcvtff h f d a)
  | _ => none

/-- Group 0x0C (R185). -/
def decLoad (h : Hdr) (w : Nat) : Option Instr :=
  let t := wD w; let m := wMem w
  match wOp w with
  | 0 => some (.ldb h t m) | 1 => some (.ldh h t m) | 2 => some (.ldw h t m) | 3 => some (.ld h t m)
  | 4 => some (.ldbu h t m) | 5 => some (.ldhu h t m) | 6 => some (.ldwu h t m) | _ => none

/-- Group 0x0D (R185). -/
def decStore (h : Hdr) (w : Nat) : Option Instr :=
  let t := wD w; let m := wMem w
  match wOp w with
  | 0 => some (.stb h t m) | 1 => some (.sth h t m) | 2 => some (.stw h t m) | 3 => some (.st h t m) | _ => none

/-- Group 0x0E (R185). -/
def decFloatMem (h : Hdr) (w : Nat) : Option Instr :=
  let t := wD w; let m := wMem w
  match wOp w with
  | 0 => some (.ldf32 h t m) | 1 => some (.ldf64 h t m) | 2 => some (.stf32 h t m) | 3 => some (.stf64 h t m) | _ => none

/-- Group 0x0F (R185): the capability register in the upper four bits of t. -/
def decCapMem (h : Hdr) (w : Nat) : Option Instr :=
  let t := wD w; let m := wMem w
  match wOp w with
  | 0 => whenZero (t % 2) (.ldc h (t / 2) m) | 1 => whenZero (t % 2) (.stc h (t / 2) m) | _ => none

/-- Group 0x10 (R191): AM and the payload's unused bits zero. -/
def decCond (h : Hdr) (w : Nat) : Option Instr :=
  let t := wD w; let m := wMem w
  match wOp w with
  | 0 => whenZero (m.am + m.payload) (.ldres h t m.cb)
  | 1 => whenZero (m.am + m.payload % 32) (.stcond h t m.cb (m.payload / 32))
  | 2 => whenZero (m.am + m.payload + t % 2) (.ldresc h (t / 2) m.cb)
  | 3 => whenZero (m.am + m.payload % 32 + t % 2) (.stcondc h (t / 2) m.cb (m.payload / 32))
  | _ => none

/-- Group 0x11 (R197). CPYT without a REP prefix is decoded here as the bare form, which is reserved. -/
def decTag (h : Hdr) (w : Nat) : Option Instr :=
  let t := wD w; let m := wMem w
  match wOp w with
  | 0 => some (.gettag h t m)
  | 1 => whenZero (m.am + m.payload) (.cleartag h t m.cb)
  | 2 => whenZero (m.am + m.payload) (.cleartagp h t m.cb)
  | 3 => if m.am = 2 ∧ m.payload = 0 ∧ t % 2 = 0 then some (.cpyt h false (t / 2) m.cb) else none
  | _ => none

/-- Group 0x18 (R199). -/
def decJump (h : Hdr) (w : Nat) : Option Instr :=
  match wFnC w with
  | 0 => whenZero (wCd w + wSrc w) (.jmp h (wCa w))
  | 1 => whenZero (wCd w + wSrc w) (.callc h (wCa w))
  | 2 => whenZero (wCd w + wCa w + wSrc w) (.ret h)
  | 3 => whenZero (wCd w + wCa w) (.jmpx h (wSrc w))
  | _ => none

/-- Group 0x19 (R159). -/
def decLoop (h : Hdr) (w : Nat) : Option Instr :=
  some (.loop h (w / 2 ^ 20 % 4) (decide (w / 2 ^ 19 % 2 = 1)) (w / 2 ^ 9 % 1024) (w % 512))

/-- Group 0x1A (R202): the register of the register-number form in bits 21:17, and bits 16:14 zero. -/
def decState (h : Hdr) (w : Nat) : Option Instr :=
  let num := w % 128
  match w / 128 % 4 with
  | 0 => whenZero (w / 2 ^ 14 % 8) (.mfs h num (wSrc w) (wD w))
  | 1 => whenZero (w / 2 ^ 14 % 8) (.mts h num (wSrc w) (wD w))
  | 2 => whenZero (wCa w + wSrc w) (.mfsc h num (wCd w))
  | _ => whenZero (wCd w + wSrc w) (.mtsc h num (wCa w))

/-- Group 0x1C (R208, R209). -/
def decDerive (h : Hdr) (w : Nat) : Option Instr :=
  let cd := wCd w; let ca := wCa w; let g := wSrc w
  match wFnC w with
  | 0x000 => some (.cstep h cd ca g) | 0x001 => some (.caim h cd ca g) | 0x002 => some (.ctrim h cd ca g)
  | 0x003 => some (.ctrimx h cd ca g) | 0x004 => some (.cstrip h cd ca g)
  | 0x005 => whenZero g (.ctether h cd ca) | 0x006 => whenZero g (.ccopy h cd ca) | 0x007 => whenZero g (.cvoid h cd ca)
  | 0x010 => whenZero cd (.crdcur h ca g) | 0x011 => whenZero cd (.crdbase h ca g) | 0x012 => whenZero cd (.crdlen h ca g)
  | 0x013 => whenZero cd (.crdperm h ca g) | 0x014 => whenZero cd (.crdtype h ca g) | 0x015 => whenZero cd (.crdflag h ca g)
  | 0x016 => whenZero cd (.crdhi h ca g)
  | _ => none

/-- Group 0x1D (R210): a second capability in the upper four bits of the source. -/
def decSeal (h : Hdr) (w : Nat) : Option Instr :=
  let cd := wCd w; let ca := wCa w; let g := wSrc w
  match wFnC w with
  | 0 => whenZero (g % 2) (.cclose h cd ca (g / 2)) | 1 => whenZero (g % 2) (.copen h cd ca (g / 2))
  | 2 => some (.ckdrop h cd ca g) | _ => none

/-- Group 0x1E (R212). -/
def decPass (h : Hdr) (w : Nat) : Option Instr :=
  let ca := wCa w; let z := wCd w + wSrc w
  match wFnC w with
  | 0 => whenZero z (.pass h ca) | 1 => whenZero z (.passr h ca) | 2 => whenZero z (.cross h ca)
  | 3 => whenZero (z + ca) (.xreply h) | 4 => whenZero (z + ca) (.ascend h) | 5 => whenZero (z + ca) (.descend h)
  | _ => none

/-- Group 0x1F (R216). -/
def decSys (h : Hdr) (w : Nat) : Option Instr :=
  let g := wSrc w; let z := wCd w + wCa w
  match wFnC w with
  | 0x000 => whenZero (z + g) (.eret h) | 0x001 => whenZero (z + g) (.fence h) | 0x002 => whenZero (z + g) (.fencesl h)
  | 0x003 => whenZero (z + g) (.isync h)
  | 0x008 => whenZero z (.tlbiv h g) | 0x009 => whenZero z (.tlbivs h g) | 0x00A => whenZero z (.tlbivd h g)
  | 0x00B => whenZero z (.tlbivsd h g) | 0x00C => whenZero (z + g) (.tlbiall h) | 0x00D => whenZero (z + g) (.tlbialld h)
  | 0x010 => whenZero (wCd w) (.handlerEnd h (wCa w) g)
  | 0x018 => whenZero (z + g) (.savel h) | 0x019 => whenZero (z + g) (.saveh h) | 0x01A => whenZero (z + g) (.loadl h)
  | 0x01B => whenZero (z + g) (.loadh h) | 0x01C => whenZero (z + g) (.vspill h) | 0x01D => whenZero (z + g) (.vfill h)
  | _ => none

/-- Group 0x20 (R222). -/
def decKey (h : Hdr) (w : Nat) : Option Instr := whenZero (wFnC w) (.kcmd h (wCd w) (wCa w) (wSrc w))

/-- Group 0x28 (R229): FN is 4 × operation + ES. -/
def decVec (h : Hdr) (w : Nat) : Option Instr :=
  let es := wFn w % 4; let d := wD w; let a := wA w; let b := wB w
  match wFn w / 4 with
  | 0 => some (.vadd h es d a b) | 1 => some (.vsub h es d a b) | 2 => some (.vand h es d a b) | 3 => some (.vor h es d a b)
  | 4 => some (.vxor h es d a b) | 5 => some (.vandn h es d a b) | 6 => some (.vsll h es d a b) | 7 => some (.vsrl h es d a b)
  | 8 => some (.vsra h es d a b) | 9 => some (.vmin h es d a b) | 10 => some (.vmax h es d a b) | 11 => some (.vminu h es d a b)
  | 12 => some (.vmaxu h es d a b) | 13 => some (.vadds h es d a b) | 14 => some (.vaddsu h es d a b)
  | 15 => some (.vsubs h es d a b) | 16 => some (.vsubsu h es d a b) | 17 => some (.vabsd h es d a b)
  | 18 => some (.vmul h es d a b) | 19 => some (.vmulh h es d a b) | 20 => whenZero b (.vbcast h es d a)
  | _ => none

/-- Group 0x29 (R230): FN is 2 × operation + format. -/
def decVecFloat (h : Hdr) (w : Nat) : Option Instr :=
  let f := decide (wFn w % 2 = 1); let d := wD w; let a := wA w; let b := wB w
  match wFn w / 2 with
  | 0 => some (.vfadd h f d a b) | 1 => some (.vfsub h f d a b) | 2 => some (.vfmul h f d a b) | 3 => some (.vfmac h f d a b)
  | 4 => some (.vfmin h f d a b) | 5 => some (.vfmax h f d a b) | 6 => whenZero b (.vfneg h f d a)
  | 7 => whenZero b (.vfabs h f d a) | 8 => whenZero b (.vfcvtif h f d a) | 9 => whenZero b (.vfcvtfi h f d a)
  | 10 => whenZero b (.vfcvtfir h f d a)
  | _ => none

/-- Group 0x2A (R231). -/
def decMac (h : Hdr) (w : Nat) : Option Instr :=
  let d := wD w; let a := wA w; let b := wB w
  match wFn w with
  | 0 => some (.vdot8 h d a b) | 1 => some (.vdot8us h d a b) | 2 => some (.vdot16 h d a b)
  | 8 => some (.vmac h 0 d a b) | 9 => some (.vmac h 1 d a b) | 10 => some (.vmac h 2 d a b) | 11 => some (.vmac h 3 d a b)
  | _ => none

/-- Group 0x2B (R232). -/
def decReduce (h : Hdr) (w : Nat) : Option Instr :=
  let es := wFn w % 4; let d := wD w; let a := wA w; let b := wB w
  match wFn w / 4 with
  | 0 => if es = 0 then some (.vperm h d a b) else none
  | 1 => whenZero b (.vredadd h es d a) | 2 => whenZero b (.vredmin h es d a) | 3 => whenZero b (.vredmax h es d a)
  | 4 => whenZero b (.vredminu h es d a) | 5 => whenZero b (.vredmaxu h es d a)
  | 6 => if es < 2 then whenZero b (.vfredadd h (decide (es = 1)) d a) else none
  | 7 => some (.vext h es d a b) | 8 => some (.vins h es d a b)
  | _ => none

/-- Group 0x2C (R234). -/
def decVecMem (h : Hdr) (w : Nat) : Option Instr :=
  let t := wD w; let m := wMem w
  match wOp w with
  | 0 => some (.vld h t m) | 1 => some (.vst h t m) | 2 => some (.vstf h t m) | _ => none

/-- Group 0x2D (R236). -/
def decGather (h : Hdr) (w : Nat) : Option Instr :=
  let fn := wFn w
  let es := decide (fn % 2 = 1); let sc := fn / 4 % 8; let sgn := decide (fn / 32 % 2 = 1); let ft := decide (fn / 64 = 1)
  if wB w % 2 ≠ 0 then none
  else if fn / 2 % 2 = 0 then some (.gather h es sc sgn ft (wD w) (wA w) (wB w / 2))
  else some (.scatter h es sc sgn ft (wD w) (wA w) (wB w / 2))

/-- Group 0x2E (R233). -/
def decVecCmp (h : Hdr) (w : Nat) : Option Instr :=
  let es := wFn w % 4; let d := wD w; let a := wA w; let b := wB w
  match wFn w / 4 with
  | 0 => some (.vceq h es d a b) | 1 => some (.vclt h es d a b) | 2 => some (.vcltu h es d a b)
  | 3 => if es < 2 then some (.vfceq h (decide (es = 1)) d a b) else some (.vfclt h (decide (es = 3)) d a b)
  | 4 => some (.vsel h es d a b)
  | 6 =>
    if es = 0 then whenZero (d % 4 + b) (.vany h (d / 4) a)
    else if es = 1 then whenZero (d % 4 + b) (.vall h (d / 4) a)
    else none
  | 7 => whenZero b (.vsetvl h es d a)
  | _ => none

/-! ## Words -/

/-- The instruction that a word encodes under a header (R148): none for an unassigned major, FN or OP, and for a field that must be
zero and is not (R150). The reserved values and combinations that a term can spell are left to the definition of the instruction. -/
def decodeWord (h : Hdr) (w : Nat) : Option Instr :=
  match wMajor w with
  | 0x01 => decAlu h w | 0x02 => decAluI h w | 0x03 => decMove h w | 0x04 => decCmp h w | 0x05 => decCmpI h w
  | 0x06 => decPred h w | 0x07 => decMul h w | 0x08 => decFloat h w | 0x09 => decFloatMove h w
  | 0x0C => decLoad h w | 0x0D => decStore h w | 0x0E => decFloatMem h w | 0x0F => decCapMem h w | 0x10 => decCond h w
  | 0x11 => decTag h w
  | 0x16 => some (.br h (wOff w)) | 0x17 => some (.call h (wOff w)) | 0x18 => decJump h w | 0x19 => decLoop h w
  | 0x1A => decState h w | 0x1C => decDerive h w | 0x1D => decSeal h w | 0x1E => decPass h w | 0x1F => decSys h w
  | 0x20 => decKey h w
  | 0x28 => decVec h w | 0x29 => decVecFloat h w | 0x2A => decMac h w | 0x2B => decReduce h w | 0x2C => decVecMem h w
  | 0x2D => decGather h w | 0x2E => decVecCmp h w
  | _ => none

/-- A word is a prefix: major 0x3F (R144). -/
def isPrefix (w : Nat) : Bool := decide (wMajor w = 0x3F)

/-- The instruction that context k of core n fetches as the prefix word p (zero for none) and the word w (R144, R145, R147): none for a
reserved encoding. -/
def decodeIns (n k p w : Nat) : Option Instr :=
  let h : Hdr := ⟨n, k, wPred w, wInv w, none⟩
  if p = 0 then decodeWord h w
  else if p = 0x0FC00000 then
    match decodeWord h w with
    | some (.cpyt h _ cs cb) => some (.cpyt h true cs cb)
    | some i => some (.repElement h i)
    | none => none
  else if 0x0FD00000 ≤ p ∧ p < 0x0FE00000 then decodeWord { h with wide := some (p - 0x0FD00000) } w
  else none

end Sys2Proof.Machine
end

