-- ==== Sys2Proof/Machine/Issue.lean ====
section
/-! DEFINITION. The issue of one core instruction: fetch, decode causes, guard, execution, completion with the loop-end
check, and the REP prefix ("Instruction encoding, addressing and distances", R140-R174; the order of causes is R262). -/

namespace Sys2Proof.Machine

open Sys2Proof

/-! ## The operand fields of each form (R149) -/

def encT (major fn rd ra rb : Nat) : Nat := major * 2 ^ 22 + rd * 2 ^ 17 + ra * 2 ^ 12 + rb * 2 ^ 7 + fn
def encI (major fn rd ra imm : Nat) : Nat := major * 2 ^ 22 + rd * 2 ^ 17 + ra * 2 ^ 12 + fn * 2 ^ 10 + imm
def encK (major fn rd imm : Nat) : Nat := major * 2 ^ 22 + rd * 2 ^ 17 + fn * 2 ^ 16 + imm
def encM (major op t : Nat) (m : MemOp) : Nat :=
  major * 2 ^ 22 + t * 2 ^ 17 + m.cb * 2 ^ 13 + m.am * 2 ^ 11 + op * 2 ^ 8 + m.payload
def encB (major off : Nat) : Nat := major * 2 ^ 22 + off
def encC (major fn cd ca src : Nat) : Nat := major * 2 ^ 22 + cd * 2 ^ 18 + ca * 2 ^ 14 + src * 2 ^ 9 + fn
def encL (lvl imm len count : Nat) : Nat := 0x19 * 2 ^ 22 + lvl * 2 ^ 20 + imm * 2 ^ 19 + len * 2 ^ 9 + count

/-! ## Results -/

/-- How the execution of an instruction ends: it completes (taken tells a control transfer that was taken, whose target is
already in the program-counter capability), it raises a cause, it stays at its address and waits, or issue holds it and nothing of
it has happened yet. -/
inductive Res where
  | done (s : State) (taken : Bool)
  | trap (t : Trap) (s : State)
  | hold (s : State)
  | stall

/-- What the issue of an instruction needs to know of it: the bits 27:0 of its word, whether it accepts a WIDE prefix
(R147) and a REP prefix (R165), whether its operands hold a reserved value (R150), whether it checks VLAZY (R227) and
is privileged (R42), the control-store routine it runs (R308) and which one that is where the state decides it, the operands that a
lockstep pair compares with its word (R291), and its effect. -/
structure InsDef where
  word     : Nat
  wideOk   : Bool
  repOk    : Bool
  reserved : Bool
  vector   : Bool
  priv     : Bool
  routine  : Option Nat
  run      : Env → State → Res
  which    : Env → State → Option Nat → Option Nat := fun _ _ r => r
  compared : Env → State → Option (List Val) := fun _ _ => none

/-- The guard word of an instruction: PRED and INV above its operand fields (R140). -/
def guardBits (h : Hdr) : Nat := h.pred * 2 ^ 29 + b2n h.inv * 2 ^ 28

/-- The prefix word (R144), zero when there is none. -/
def prefixWord (h : Hdr) (rep : Bool) : Nat :=
  if rep then 0x0FC00000
  else match h.wide with
    | none => 0
    | some p => 0x0FD00000 + p

/-- What an instruction knows of itself. -/
def mkEnv (s : State) (h : Hdr) (d : InsDef) (rep : Bool) : Env :=
  let p := prefixWord h rep
  { n := h.core, k := h.ctx, pc := s.pc h.core h.ctx, len := if p = 0 then 4 else 8, pfx := p,
    ins := guardBits h + d.word, rep := rep }

/-- A late cause that must be taken before the next instruction (R258): it is due and can be taken. -/
def State.maBlocks (s : State) (n k : Nat) : Bool :=
  let st := s.nextStatus n k
  stGM st && !(stEXL st) && (s.core n).ma.any (fun m => decide (m.ctx = k) && m.due)

/-- A halt of core n is pending (R374); one of a core of the sealed world is a denial and never comes. -/
def State.haltDue (s : State) (n : Nat) : Bool := decide (s.rf (.dbgCorectl n) dbgCorectl_PEND = 1) && !(s.coreWorld n)

/-- Core n executes: the device serves, and the core is on, clocked, released, sound and not halted; a halt asked for takes it at its
next instruction boundary (R374). -/
def State.coreRuns (s : State) (n : Nat) : Bool :=
  let c := s.core n
  decide (s.unit n = n) && s.serving && !c.held && !c.off && !c.csFailed && s.clockRuns n
    && decide (s.rf (.dbgCorectl n) dbgCorectl_HALTED = 0)

/-- The context can issue an instruction now: its core executes and holds issue for nothing (R286), the context is in RUN, waits for
nothing and is not stopped at a held machine check (R244), and neither a late cause nor a halt is to be taken first. -/
def State.canIssue (s : State) (n k : Nat) : Bool :=
  let c := s.core n
  let x := c.ctx k
  s.coreRuns n && !(c.farWait) && !(s.haltDue n) && decide (x.st = .run) && decide (x.wait = .none) && !x.stopped && !(s.maBlocks n k)

/-- RESERVED_OP with the instruction and prefix words (R150). -/
def trapReserved (E : Env) : Trap := ⟨ecRESERVED_OP, E.ins + E.pfx * 2 ^ 32, 0, 0⟩

/-! ## Cycles of a P-core (R272-R281) -/

/-- The cycles for which an instruction holds its issue slot (R175, R199, R212 and the tables of the two references), by its word: the
part that its operands, a split, a drain or a far access add is added where the instruction meets it. -/
def cycleCount (s : State) (E : Env) : Nat :=
  let w := E.ins
  match wMajor w with
  | 0x0F => 2
  | 0x10 => [1, 2, 2, 3].getD (wOp w) 1
  | 0x11 => if wOp w = 0 then 1 else if wOp w = 3 then 2 else 3
  | 0x16 => 3
  | 0x17 => 4
  | 0x18 => [3, 4, 5, 3].getD (wFnC w) 1
  | 0x19 => 3
  | 0x1C => if wFnC w = 2 ∨ wFnC w = 3 then 2 else 1
  | 0x1E => [14, 14, 10, 8, 3, 3].getD (wFnC w) 1
  | 0x1F => if wFnC w = 0 then 6 else if wFnC w = 1 then 2 else if wFnC w = 2 then 1 else if wFnC w = 3 then 3 else 4
  | 0x20 => 8
  | 0x2B => if wFn w = 0x18 then 1 + fld (seeSr s E nVSTATE) 14 8 / 8 else if wFn w = 0x19 then 1 + fld (seeSr s E nVSTATE) 14 8 / 4
            else if 4 ≤ wFn w ∧ wFn w < 0x18 then 2 else 1
  | 0x2C => if wOp w = 0 then 3 else 2
  | 0x2D => (if wFn w / 2 % 2 = 0 then 4 else 3) + fld (seeSr s E nVSTATE) 14 8 / (if wFn w % 2 = 0 then 4 else 8)
  | _ => 1

/-- The instruction of a word can share an issue cycle as the older (R272): a 1-cycle instruction of groups 0x01-0x06, one of group 0x1C
but CTRIM and CTRIMX, MFS or MFSC. -/
def pairable (w : Nat) : Bool :=
  let m := wMajor w
  (decide (1 ≤ m) && decide (m ≤ 6)) || (decide (m = 0x1C) && decide (wFnC w ≠ 2) && decide (wFnC w ≠ 3))
    || (decide (m = 0x1A) && decide (w / 128 % 2 = 0))

/-- An instruction begins on a P-core whose words can issue from cycle ready on (R276): in the cycle of the older when it is the
younger of a pair, otherwise in the next one. The items of a pair formed 2 cycles before have been compared (R291). -/
def State.startIssue (s : State) (E : Env) (ready : Nat) : State :=
  let x := s.ctx E.n E.k
  let s := s.setCtx E.n E.k { x with first := false, waitElem := 0 }
  if 48 ≤ E.n then s.speculate E
  else
    let c := s.core E.n
    let p := c.pace
    let at' := Nat.max (if p.older then p.last else p.last + 1) ready
    let s := s.setCore E.n { c with
      pace := { p with start := at', last := at', older := false, younger := p.older }
      cmp := c.cmp.filter (fun i => decide (at' < i.formed + 2)) }
    let m := cycleCount s E
    let c := s.core E.n
    s.setCore E.n { c with pace := { c.pace with last := at' + m - 1 } }

/-! ## Fetch -/

/-- How the fetch of an instruction ends: its prefix word (zero for none) and its word, a cause, a wait, or issue holds because the
prefetch queue does not hold it yet (R276). -/
inductive Fetched where
  | word (pfx ins : Nat)
  | trap (t : Trap)
  | wait (w : WaitFor)
  | hold
  deriving DecidableEq, Repr

/-- The checks of a fetch of E.len bytes at the program counter (order 6 of R262): the program-counter capability valid
(R201), bounds, translation. -/
def fetchCheck (s : State) (E : Env) : Resolved × State :=
  let p := s.pcc E.n E.k
  if !p.valid then (.trap (trapInvalid p 0xF), s)
  else
    match boundsCheck p 0xF E.pc E.len with
    | some t => (.trap t, s)
    | none =>
      let a : Acc := ⟨p, 0xF, E.pc, E.len, kFETCH, 0, 0, 0, true, false, false⟩
      let first := Nat.min E.len (2 ^ 14 - E.pc % 2 ^ 14)
      match chunkAt s E a E.pc first with
      | (.ok cs, s) =>
        if first = E.len then (.ok cs, s)
        else match chunkAt s E a (E.pc + first) (E.len - first) with
          | (.ok cs', s) => (.ok (cs ++ cs'), s)
          | r => r
      | r => r

/-- A word of the prefetch queue whose read was answered with a bus error: its tag is none of R55. -/
def tBUS : Nat := 16

/-- The aligned 64-bit word at virtual address va that the instruction is fetched from, and where it lies. A P-core takes it from its
prefetch queue (R275), none when it is not there. A W-core takes it from memory as visible to all agents (R187); after a store of
its own it sees the old word or the new one, which is UNPREDICTABLE (R207). -/
def codeWord (s : State) (E : Env) (c : Chunk) (va : Nat) : Option PfWord :=
  if E.n < 48 then (s.core E.n).prefetch.find? (fun p => decide (p.addr = va / 8 * 8))
  else
    match c.place with
    | .mem t pa =>
      let w := (pa + va - c.va) / 8 * 8
      let m := s.memOf t
      let v := s.viewMem E.n E.k t
      let l : List PfWord := [⟨w, m.word w, m.tag w, 0⟩, ⟨w, v.word w, v.tag w, 0⟩] ++ (s.core E.n).oldCode.filter (fun p => decide (p.addr = w))
      l[s.pick 62 % l.length]?
    | .unbacked _ => some ⟨va / 8 * 8, 0, tBUS, 0⟩
    | _ => none

/-- The cause of a fetched word, if it raises one: MC_BUS, or that of its tag (R57). -/
def codeTrap (E : Env) (va : Nat) (w : PfWord) : Option Trap :=
  if w.tag = tBUS then some ⟨ecMC_BUS, capInfo 0xF, va, 0⟩
  else loadTagTrap w.tag 0xF va (decide (va / 8 = E.pc / 8 + 1))

/-- The 32-bit instruction word at address a within an aligned 64-bit word. -/
def PfWord.half (w : PfWord) (a : Nat) : Nat := if a % 8 < 4 then w.data % 2 ^ 32 else w.data / 2 ^ 32

/-- The instruction word at virtual address va among the chunks of its fetch. -/
def fetchHalf (s : State) (E : Env) (cs : List Chunk) (va : Nat) : Option PfWord :=
  match cs.find? (fun c => decide (c.va ≤ va) && decide (va < c.va + c.len)) with
  | none => none
  | some c => codeWord s E c va

/-- The fetch of E.len bytes at the program counter: the checks, then the words in address order. -/
def fetchWords (s : State) (E : Env) : Fetched × State :=
  match fetchCheck s E with
  | (.trap t, s) => (.trap t, s)
  | (.wait w, s) => (.wait w, s)
  | (.ok cs, s) =>
    match fetchHalf s E cs E.pc with
    | none => (.hold, s)
    | some w0 =>
      match codeTrap E E.pc w0 with
      | some t => (.trap t, s)
      | none =>
        if E.len = 4 then (.word 0 (w0.half E.pc), s.startIssue { E with pfx := 0, ins := w0.half E.pc } w0.ready)
        else
          match fetchHalf s E cs (E.pc + 4) with
          | none => (.hold, s)
          | some w1 =>
            match codeTrap E (E.pc + 4) w1 with
            | some t => (.trap t, s)
            | none =>
              (.word (w0.half E.pc) (w1.half (E.pc + 4)),
               s.startIssue { E with pfx := w0.half E.pc, ins := w1.half (E.pc + 4) } (Nat.max w0.ready w1.ready))

/-- The fetch of the instruction at the program counter: 8 bytes when its first word is a prefix (R145). Until the first word can be
read, the length is that of the instruction commanded. -/
def fetch (s : State) (E : Env) : Fetched × State :=
  match (fetchWords s { E with len := 4 }).1 with
  | .word _ w => fetchWords s { E with len := if isPrefix w then 8 else 4 }
  | _ => fetchWords s E

/-! ## Completion -/

/-- loop_end_check of R160 from level n - 1 down: the next address, and the context with the counts it changes. -/
def loopEnd (s : State) (E : Env) (x : Nat) (ctx : Ctx) : Nat → Nat × Ctx
  | 0 => (x + 4, ctx)
  | n + 1 =>
    let count := fld (seeSr s E (nLCOUNT + n)) 31 0
    let last := (fld (seeSr s E (nLEND + n)) 63 2) * 4
    if count ≠ 0 ∧ last = x then
      let put := fun (ctx : Ctx) (v : Nat) =>
        { ctx.setSr (nLCOUNT + n) (word v) with
          flights := pushFlight ctx.flights (.sr (nLCOUNT + n)) (.w (ctx.srv (nLCOUNT + n))) (.w (word v)) 0 (s.core E.n).pace.last }
      if 1 < count then ((fld (seeSr s E (nLSTART + n)) 63 2) * 4, put ctx (count - 1))
      else loopEnd s E x (put ctx 0) n
    else loopEnd s E x ctx n

/-- The slot of an instruction has run: writes in flight age and the free values drawn for its operands are used up (R169). -/
def State.slotDone (s : State) (n k : Nat) : State :=
  let x := s.ctx n k
  let s := s.setCtx n k { x with flights := ageFlights x.flights, inRep := false, progress := none }
  { s with free := s.free + 1 }

/-- The late machine check that context k of core n can take at the boundary it stands at, BUSERR_ASYNC before HANDLER_WATCHDOG (R256,
R262). -/
def State.lateMa (s : State) (n k : Nat) : Option MaCause :=
  let st := s.nextStatus n k
  let mine := (s.core n).ma.filter (fun m => decide (m.ctx = k))
  if stGM st && !(stEXL st) && !(stEXL (s.ctx n (other k)).status) then
    (mine.find? (fun m => decide (m.code = ecBUSERR_ASYNC))).orElse (fun _ => mine.head?)
  else none

/-- The late machine check leaves the core and is entered at the next instruction (R244, R257). -/
def State.enterMa (s : State) (n k : Nat) (m : MaCause) : State :=
  let c := s.core n
  ((s.setCore n { c with ma := c.ma.erase m }).holdCheck n).enterExc n k ⟨m.code, m.info, m.addr, 0⟩ (s.pc n k)

/-- What comes at the boundary after a completed instruction while STATUS.SS is set: DEBUG_STEP, never on a core of the sealed world
(R119, R244); a late machine check that can be taken there comes first (R262). A context that does not run takes it when it does. -/
def State.stepTrap (s : State) (n k : Nat) : State :=
  if stSS (s.ctx n k).status && !(s.coreWorld n) then
    if (s.ctx n k).st ≠ .run then s.setCtx n k { s.ctx n k with due := some (ecDEBUG_STEP, 0, 0, 0) } else
    match s.lateMa n k with
    | some m => s.enterMa n k m
    | none => s.raiseTrap n k ⟨ecDEBUG_STEP, 0, 0, 0⟩ (s.pc n k)
  else s

/-- The aligned words from the one that holds address a to the one that holds address b. -/
def bodyWords (a b : Nat) : List Nat := (List.range (b / 8 + 1 - a / 8)).map (fun i => a / 8 * 8 + 8 * i)

/-- The innermost active loop level as the completed instruction leaves it: its number, its first and its last address. -/
def innerLevel (s : State) (E : Env) : Option (Nat × Nat × Nat) :=
  ([3, 2, 1, 0].find? (fun n => decide (fld ((s.ctx E.n E.k).srv (nLCOUNT + n)) 31 0 ≠ 0))).map (fun n =>
    (n, fld (seeSr s E (nLSTART + n)) 63 2 * 4, fld (seeSr s E (nLEND + n)) 63 2 * 4))

/-- The queue of a P-core when an instruction has completed and the stream goes on at next (R275, R279): the words before it leave; at
a loop-back of the innermost level whose body the queue holds, in at most four words, they are kept until the level ends. -/
def State.queueOn (s : State) (E : Env) (next : Nat) : State :=
  let c := s.core E.n
  let has := fun (a : Nat) => c.prefetch.any (fun p => decide (p.addr = a))
  let body := match innerLevel s E with
    | some (n, a, b) => if next = a ∧ E.endAddr = b ∧ (bodyWords a b).length ≤ 4 ∧ (bodyWords a b).all has then some n else none
    | none => none
  match body with
  | some n =>
    let b := match innerLevel s E with
      | some (_, a, b) => bodyWords a b
      | none => []
    s.setCore E.n { c with kept := some n, prefetch := b.filterMap (fun a => c.prefetch.find? (fun p => decide (p.addr = a))) }
  | none =>
    match c.kept with
    | some n =>
      if fld ((s.ctx E.n E.k).srv (nLCOUNT + n)) 31 0 ≠ 0 ∧ has (next / 8 * 8) = true then s else s.flushQueue E.n c.pace.last
    | none =>
      let rest := c.prefetch.dropWhile (fun p => decide (p.addr ≠ next / 8 * 8))
      if rest.isEmpty then s.flushQueue E.n c.pace.last
      else
        s.setCore E.n { c with
          prefetch := rest
          pace := if c.prefetch.length = 4 ∧ rest.length < 4 then { c.pace with port := Nat.max c.pace.port c.pace.last } else c.pace }

/-- The completed instruction of a P-core is the older of a pair (R272): it is pairable and issued as no younger one, no active level ends
at it, and the instruction after it is in the queue, decoded, and pairable or BR; neither carries a prefix. -/
def State.pairs (s : State) (E : Env) (next : Nat) : Bool :=
  let c := s.core E.n
  let ends := [0, 1, 2, 3].any (fun n => decide (fld (seeSr s E (nLCOUNT + n)) 31 0 ≠ 0)
    && decide (fld (seeSr s E (nLEND + n)) 63 2 * 4 = E.endAddr))
  decide (E.n < 48) && !c.pace.younger && decide (E.pfx = 0) && pairable E.ins && !ends &&
    (match c.prefetch.find? (fun p => decide (p.addr = next / 8 * 8)) with
     | some w => decide (w.ready ≤ c.pace.last) && decide (w.tag < 16) && (pairable (w.half next) || decide (wMajor (w.half next) = 0x16))
     | none => false)

/-- The older of a pair has issued, or not. -/
def State.setOlder (s : State) (n : Nat) (b : Bool) : State :=
  let c := s.core n
  s.setCore n { c with pace := { c.pace with older := b } }

/-- An instruction completes without a taken control transfer: the loop-end check gives the next address (R160). -/
def State.complete (s : State) (E : Env) : State :=
  let pairs := s.pairs E (E.endAddr + 4)
  let (next, x) := loopEnd s E E.endAddr (s.ctx E.n E.k) 4
  let s := (s.setCtx E.n E.k x).setPc E.n E.k next
  let s := if E.n < 48 ∧ x.st = .run then (s.queueOn E next).setOlder E.n pairs else s
  (s.slotDone E.n E.k).stepTrap E.n E.k

/-- A taken form-B branch of compatibility fetch enters the branch-target buffer of 64 entries, indexed by its address (R297). -/
def State.learnBranch (s : State) (E : Env) : State :=
  let c := s.core E.n
  if E.n < 48 ∧ c.line.isSome ∧ wMajor E.ins = 0x16 then
    s.setCore E.n { c with btb := tset c.btb (E.pc / 4 % 64) (E.pc, s.pc E.n E.k) }
  else s

/-- An instruction completes with a taken control transfer: its target is already in place, the prefetch queue is flushed
(R277), and no loop-end check is made (R161). The counts of the transfers hold the read and the decode of the target. -/
def State.completeTaken (s : State) (E : Env) : State :=
  let s := s.learnBranch E
  let s := s.flushQueue E.n ((s.core E.n).pace.last - 2)
  (s.slotDone E.n E.k).stepTrap E.n E.k

/-- A cause ends the instruction (R310: nothing of it stays but what the walk did to the TLB). MC_CSPARITY is reported; on a lockstep pair
it shows as a mismatch, and the pair fails over (R322). -/
def State.fail (s : State) (E : Env) (t : Trap) : State :=
  let s :=
    if t.code = ecMC_CSPARITY then
      let s := s.csMark E.n t
      if s.paired E.n then s.failPair E.n 0x10 else s.raiseTrap E.n E.k t E.pc
    else s.raiseTrap E.n E.k t E.pc
  { s with free := s.free + 1 }

/-- A context leaves its wait for an entry: MPROG records the request or the command it waited for (R96, R224, R312); under EXL MPROG is
left alone (R315). -/
def State.leaveWait (s : State) (n k : Nat) : State :=
  let x := s.ctx n k
  let put := fun (v : Word) =>
    s.setCtx n k { (if stEXL x.status then x else x.setSr nMPROG v) with wait := .none }
  match x.wait with
  | .cross _ req _ => put (mprogWord rtCROSS (s.pc n k) 1 req)
  | .kcmd cmd _ => put (mprogWord rtKCMD (s.pc n k) 1 cmd)
  | _ => s

/-- A context of a P-core runs, and the other one, if it ran, becomes READY (R122). -/
def State.switchTo (s : State) (n k : Nat) : State :=
  let c := s.core n
  let o := c.ctx (other k)
  let x := c.ctx k
  let c := c.setCtx k { x with st := .run }
  let s := s.setCore n (if n < 48 ∧ o.st = .run then c.setCtx (other k) { o with st := .ready } else c)
  if x.st = .run then s else s.refill n

/-- The environment of an instruction at which a context waits. -/
def State.waitEnv (s : State) (n k : Nat) : Env := { n := n, k := k, pc := s.pc n k, len := 4, pfx := 0, ins := 0, rep := false }

/-- The routine of a CROSS or KCMD wait (R308). -/
def Wait.routine : Wait → Option Nat
  | .cross _ _ _ => some rtCROSS
  | .kcmd _ _ => some rtKCMD
  | _ => Option.none

/-- The wait of an instruction reads its words: MC_CSPARITY when one of them is bad in both copies (R322), the wait recorded (R311). While
the other context holds EXL the wait goes on (R124). -/
def State.waitFault (s : State) (E : Env) : State :=
  match s.csTrap E.n ((s.ctx E.n E.k).wait).routine with
  | none => s
  | some t =>
    if stEXL (s.ctx E.n (other E.k)).status then s
    else ((s.leaveWait E.n E.k).switchTo E.n E.k).fail E t

/-- An access that cannot be checked yet holds its context at the instruction: on MV of a walked entry (R354), or on the
LOOKUP that it sends for the owner of a plot (R502); a LOOKUP without a route raises REMOTE_FAULT with reason 4. -/
def State.waitOn (s : State) (E : Env) (w : WaitFor) : State :=
  match w with
  | .mv va entry info =>
    let x := s.ctx E.n E.k
    ({ s with free := s.free + 1 }).setCtx E.n E.k { x with wait := .mv va entry info s.now }
  | .owner va capNo =>
    let p := plotOf va
    let node := s.askNode p
    let (id, s) := s.newReq
    match s.send (s.mkPkt pkLOOKUP node id 0 (p * 2 ^ 21) [] []) with
    | (none, s) => s.fail E ⟨ecREMOTE_FAULT, remoteInfo 0 capNo node 4 0, va, (s.ctx E.n E.k).waitElem⟩
    | (some link, s) =>
      let x := s.ctx E.n E.k
      ({ s with free := s.free + 1 }).setCtx E.n E.k { x with wait := .lookup p va capNo id node (s.now + s.rtmo) link }

/-- What every issue does first: the entry window of an interrupt closes (R250). -/
def State.beginIssue (s : State) (n : Nat) : State :=
  let c := s.core n
  s.setCore n { c with openEntry := none }

/-- A pair compares the word of an instruction of the table of R291 with its operands. -/
def State.formIns (s : State) (E : Env) : Option (List Val) → State
  | some l => s.form E.n (.ins E.ins l)
  | none => s

/-- Causes of order 13 to 15 of R262, which come after MC_CSPARITY. -/
def lateCause (code : Nat) : Bool :=
  decide (code = ecBREAK) || decide (code = ecCOMMIT_OVERFLOW) || decide (code = ecMC_BUS) || decide (code = ecREMOTE_FAULT)
    || decide (code = ecCROSS_TIMEOUT)

/-- The context waits where its checks have not yet ended: on MV, or for the owner of a plot. -/
def Wait.checking : Wait → Bool
  | .mv _ _ _ _ => true
  | .lookup _ _ _ _ _ _ _ => true
  | _ => false

/-- The routine that an instruction runs, if it runs one (R308). -/
def InsDef.routineAt (d : InsDef) (E : Env) (s : State) : Option Nat := d.which E s d.routine

/-- Decode, guard and execution, after the fetch has passed (orders 7 to 15 of R262); guard tells that the guard holds. A false guard
leaves the decode causes alone (R143). A control-store word bad in both copies raises MC_CSPARITY after the instruction's own
checks (R322), and that of the wait that a CROSS or KCMD enters when it waits. A micro-routine of a P-core waits for the store buffer to drain (R285), and
ends when its far writes are acknowledged (R288). -/
def execute (d : InsDef) (E : Env) (guard bad : Bool) (s : State) : Res :=
  match (if guard then s.breakAt E.n 0 E.pc E.len else none) with
  | some t => .trap t s
  | none =>
    if bad || d.reserved then .trap (trapReserved E) s
    else if !guard then .done s false
    else if d.vector && decide (fld (seeSr s E nVSTATE) 0 0 = 0) then .trap ⟨ecVLAZY, 0, 0, 0⟩ s
    else if d.priv && !(seeSup s E && (s.pcc E.n E.k).has pSYS) then .trap trapPRIV s
    else
      let routine := d.routineAt E s
      let micro := routine.isSome && decide (E.n < 48)
      let s := s.formIns E (d.compared E s)
      let res := d.run E (if micro then s.drain E.n else s)
      match s.csTrap E.n routine with
      | none =>
        (match res with
         | .done s taken => .done (if micro then s.sendFar E.n else s) taken
         | .hold s => .hold (s.waitFault E)
         | r => r)
      | some t =>
        let bad := Res.trap t s
        match res with
        | .trap t' s' => if lateCause t'.code then bad else .trap t' s'
        | .hold s' => if ((s'.ctx E.n E.k).wait).checking then .hold s' else bad
        | .stall => .stall
        | .done _ _ => bad

/-- The instruction is done. When its own effect has reset its core or released its context (gen no longer counts the resets),
nothing of it is left to complete. -/
def State.finish (s : State) (E : Env) (gen : Nat) (taken : Bool) : State :=
  if (s.core E.n).resets ≠ gen then
    (if (s.ctx E.n E.k).st = .idle then s.setCtx E.n E.k (s.ctx E.n E.k).cleared else s)
  else if taken then s.completeTaken E
  else s.complete E

/-- The guard of the instruction under way: p[PRED] XOR INV (R142). -/
def guardHolds (s : State) (E : Env) (h : Hdr) : Bool := (rdP s E 63 h.pred) != h.inv

/-- PRED = 0 with INV = 1, and a WIDE prefix that the instruction does not accept, are reserved (R142, R147). -/
def badHeader (h : Hdr) (d : InsDef) : Bool := (decide (h.pred = 0) && h.inv) || (h.wide.isSome && !d.wideOk)

/-- The header that a fetched pair of words has, for core n and context k. -/
def wordHdr (n k w : Nat) : Hdr := ⟨n, k, wPred w, wInv w, none⟩

/-- A context issues while it holds a cause that it met under the other context's EXL (R124): the cause is taken now. -/
def State.takeDue (s : State) (n k : Nat) (c : Nat × Nat × Nat × Nat) : State :=
  let s := s.setCtx n k { s.ctx n k with due := none }
  s.raiseTrap n k ⟨c.1, c.2.1, c.2.2.1, c.2.2.2⟩ (s.pc n k)

/-- How a command of an instruction of context k of core n meets the machine: nothing happens (the context does not issue now, the
queue does not hold the word, or another instruction stands at the program counter), a cause is raised or a wait begins before its
execution, or its words have been fetched: its own, or a reserved encoding. -/
inductive Start where
  | idle
  | over (s : State)
  | own (s : State)
  | reserved (E : Env) (s : State)

/-- The start of the issue of an instruction whose words are those of E. -/
def start (s : State) (E : Env) : Start :=
  if !(s.canIssue E.n E.k) then .idle
  else
    match (s.ctx E.n E.k).due with
    | some c => .over (s.takeDue E.n E.k c)
    | none =>
      match fetch (s.beginIssue E.n) E with
      | (.hold, _) => .idle
      | (.trap t, s) => .over (s.fail E t)
      | (.wait w, s) => .over (s.waitOn E w)
      | (.word p w, s) =>
        if p = E.pfx ∧ w = E.ins then .own s
        else
          match decodeIns E.n E.k p w with
          | some _ => .idle
          | none => .reserved { E with pfx := p, ins := w, len := if p = 0 then 4 else 8 } s

/-- RESERVED_OP of a fetched encoding that no instruction has (R150), after a breakpoint on its address (R262). -/
def State.reservedWord (s : State) (E : Env) : State :=
  match (if guardHolds s E (wordHdr E.n E.k E.ins) then s.breakAt E.n 0 E.pc E.len else none) with
  | some t => s.fail E t
  | none => s.fail E (trapReserved E)

/-- The issue of one core instruction without a REP prefix. -/
def issue (h : Hdr) (d : InsDef) (s : State) : Host.Outcome State Fault Refusal :=
  if !h.wf then .refused .illFormed
  else
    let E := mkEnv s h d false
    match start s E with
    | .idle => .next s
    | .over s => .next s
    | .reserved E s => .next (s.reservedWord E)
    | .own s1 =>
      match execute d E (guardHolds s1 E h) (badHeader h d) s1 with
      | .done s2 taken => .next (s2.finish E (s1.core E.n).resets taken)
      | .trap t s2 => .next (s2.fail E t)
      | .hold s2 => .next s2
      | .stall => .next s

/-- The writes of a REP element that is not the last are seen by the next element (R168): the flights the element added
are settled, those of earlier instructions stand. -/
def settleElement (before : Nat) (fl : List Flight) : List Flight :=
  fl.take before ++ (fl.drop before).map (fun f => { f with left := 0, seen := 0 })

/-- RPT.COUNT after an element that takes m of the count. -/
def State.repCount (s : State) (E : Env) (m : Nat) : State :=
  let x := s.ctx E.n E.k
  let c := fld (seeSr s E nRPT) 31 0 - m
  s.setCtx E.n E.k
    { x.setSr nRPT (word c) with
      flights := pushFlight x.flights (.sr nRPT) (.w (x.srv nRPT)) (.w (word c)) 0 (s.core E.n).pace.last }

/-- An element of a REP instruction that takes m of the count has run: the instruction completes when COUNT reaches zero, and
stays at its address otherwise; before counts the writes in flight from earlier instructions. -/
def State.elementDone (s : State) (E : Env) (before m : Nat) : State :=
  let count := fld (seeSr s E nRPT) 31 0
  let s := s.repCount E m
  if count - m = 0 then s.complete E
  else
    let x := s.ctx E.n E.k
    ({ s with free := s.free + 1 }).setCtx E.n E.k { x with flights := settleElement before x.flights, inRep := true }

/-- An instruction of which nothing beyond decode happens. -/
def InsDef.decodeOnly (d : InsDef) : InsDef :=
  { word := d.word, wideOk := d.wideOk, repOk := d.repOk, reserved := d.reserved, vector := false, priv := false, routine := none,
    run := fun _ s => .done s false }

/-- The issue of one element of a REP instruction (R163-R168): nothing beyond decode when the guard is false or COUNT is
zero; otherwise the element runs once and takes took of COUNT, and the instruction completes when COUNT reaches zero. The guard is
read before the first element alone. -/
def issueRep (h : Hdr) (d : InsDef) (took : Env → State → Nat) (s : State) : Host.Outcome State Fault Refusal :=
  if !h.wf then .refused .illFormed
  else
    let E := mkEnv s h d true
    match start s E with
    | .idle => .next s
    | .over s => .next s
    | .reserved E s => .next (s.reservedWord E)
    | .own s1 =>
      let count := fld (seeSr s1 E nRPT) 31 0
      let guarded := (s1.ctx E.n E.k).inRep || guardHolds s1 E h
      let d' := if count = 0 then d.decodeOnly else { d with routine := some (d.routine.getD rtREP) }
      let before := (s1.ctx E.n E.k).flights.length
      match execute d' E guarded (badHeader h d || !d.repOk || h.wide.isSome) s1 with
      | .trap t s2 => .next (s2.fail E t)
      | .hold s2 => .next s2
      | .stall => .next s
      | .done s2 _ =>
        if (s2.core E.n).resets ≠ (s1.core E.n).resets then .next (s2.finish E (s1.core E.n).resets false)
        else if !guarded || decide (count = 0) then .next (s2.complete E)
        else .next (s2.elementDone E before (took E s1))

end Sys2Proof.Machine
end

