-- ==== Sys2Proof/Machine/Alu.lean ====
section
/-! DEFINITION. Integer register instructions: groups 0x01 to 0x07 ("Scalar instruction reference", R175-R181). -/

namespace Sys2Proof.Machine

open Sys2Proof

/-- A register instruction of form T that writes a general register from two (R176): word fields, distance class d, and
the function of the two operands. -/
def insReg2 (word rd ra rb d : Nat) (f : Word → Word → Word) : InsDef :=
  { word := word, wideOk := false, repOk := true, reserved := false, vector := false, priv := false, routine := none,
    run := fun E s => .done (wrG s E rd (f (rdG s E 0 ra) (rdG s E 1 rb)) d) false }

/-- A register instruction that writes a general register from one; bad says that an operand field holds a reserved
value. -/
def insReg1 (word rd ra d : Nat) (bad : Bool) (f : Word → Word) : InsDef :=
  { word := word, wideOk := false, repOk := true, reserved := bad, vector := false, priv := false, routine := none,
    run := fun E s => .done (wrG s E rd (f (rdG s E 0 ra)) d) false }

/-- An immediate instruction of form I (R178): the immediate of R147 has width 10, or 30 under WIDE. -/
def insImm (h : Hdr) (fn rd ra imm : Nat) (f : Word → Word → Word) : InsDef :=
  { word := encI 0x02 fn rd ra imm, wideOk := true, repOk := true, reserved := false, vector := false, priv := false,
    routine := none,
    run := fun E s => .done (wrG s E rd (f (rdG s E 0 ra) (wrap (immOf h.wide imm 10))) 0) false }

/-- A compare of form T that writes a predicate (R179). -/
def insCmp (fn pd ra rb : Nat) (f : Word → Word → Bool) : InsDef :=
  { word := encT 0x04 fn (4 * pd) ra rb, wideOk := false, repOk := true, reserved := false, vector := false, priv := false,
    routine := none,
    run := fun E s => .done (wrP s E pd (f (rdG s E 0 ra) (rdG s E 1 rb)) 1) false }

/-- A compare of form I that writes a predicate (R179). -/
def insCmpI (h : Hdr) (fn pd ra imm : Nat) (f : Word → Word → Bool) : InsDef :=
  { word := encI 0x05 fn (4 * pd) ra imm, wideOk := true, repOk := true, reserved := false, vector := false, priv := false,
    routine := none,
    run := fun E s => .done (wrP s E pd (f (rdG s E 0 ra) (wrap (immOf h.wide imm 10))) 1) false }

/-- Predicate logic of group 0x06 (R179). -/
def insPred (fn pd pa pb : Nat) (f : Bool → Bool → Bool) : InsDef :=
  { word := encT 0x06 fn (4 * pd) (4 * pa) (4 * pb), wideOk := false, repOk := true, reserved := false, vector := false,
    priv := false, routine := none,
    run := fun E s => .done (wrP s E pd (f (rdP s E 0 pa) (rdP s E 1 pb)) 1) false }

/-- An instruction that needs the divider writes v to rd, waited (R180, R183): while the divider is busy it holds issue (R181); then the
divider is busy until DIVIDER_RESULT. -/
def divideRes (s : State) (E : Env) (rd : Nat) (v : Word) : Res :=
  if (s.core E.n).divBusy then .stall
  else
    let s := wrG s E rd v 0
    .done (s.setCore E.n { s.core E.n with divBusy := true }) false

/-- A divide (R180). -/
def insDivide (fn rd ra rb : Nat) (f : Word → Word → Word) : InsDef :=
  { word := encT 0x07 fn rd ra rb, wideOk := false, repOk := true, reserved := false, vector := false, priv := false,
    routine := none, run := fun E s => divideRes s E rd (f (rdG s E 0 ra) (rdG s E 1 rb)) }


/-- ADD (R177): wrap(a + b). -/
def insAdd (rd ra rb : Nat) : InsDef :=
  insReg2 (encT 0x01 0 rd ra rb) rd ra rb 0 (fun a b => a + b)

/-- The command ADD: issue of the instruction. -/
def execAdd (h : Hdr) (rd ra rb : Nat) (s : State) : Host.Outcome State Fault Refusal :=
  issue h (insAdd rd ra rb) s

/-- SUB (R177): wrap(a − b). -/
def insSub (rd ra rb : Nat) : InsDef :=
  insReg2 (encT 0x01 1 rd ra rb) rd ra rb 0 (fun a b => a - b)

/-- The command SUB: issue of the instruction. -/
def execSub (h : Hdr) (rd ra rb : Nat) (s : State) : Host.Outcome State Fault Refusal :=
  issue h (insSub rd ra rb) s

/-- AND (R177): a AND b. -/
def insAnd (rd ra rb : Nat) : InsDef :=
  insReg2 (encT 0x01 2 rd ra rb) rd ra rb 0 (fun a b => a &&& b)

/-- The command AND: issue of the instruction. -/
def execAnd (h : Hdr) (rd ra rb : Nat) (s : State) : Host.Outcome State Fault Refusal :=
  issue h (insAnd rd ra rb) s

/-- OR (R177): a OR b. -/
def insOr (rd ra rb : Nat) : InsDef :=
  insReg2 (encT 0x01 3 rd ra rb) rd ra rb 0 (fun a b => a ||| b)

/-- The command OR: issue of the instruction. -/
def execOr (h : Hdr) (rd ra rb : Nat) (s : State) : Host.Outcome State Fault Refusal :=
  issue h (insOr rd ra rb) s

/-- XOR (R177): a XOR b. -/
def insXor (rd ra rb : Nat) : InsDef :=
  insReg2 (encT 0x01 4 rd ra rb) rd ra rb 0 (fun a b => a ^^^ b)

/-- The command XOR: issue of the instruction. -/
def execXor (h : Hdr) (rd ra rb : Nat) (s : State) : Host.Outcome State Fault Refusal :=
  issue h (insXor rd ra rb) s

/-- ANDN (R177): a AND NOT b. -/
def insAndn (rd ra rb : Nat) : InsDef :=
  insReg2 (encT 0x01 5 rd ra rb) rd ra rb 0 (fun a b => a &&& ~~~b)

/-- The command ANDN: issue of the instruction. -/
def execAndn (h : Hdr) (rd ra rb : Nat) (s : State) : Host.Outcome State Fault Refusal :=
  issue h (insAndn rd ra rb) s

/-- SLL (R177): wrap(a << b[5:0]). -/
def insSll (rd ra rb : Nat) : InsDef :=
  insReg2 (encT 0x01 6 rd ra rb) rd ra rb 0 (fun a b => shl a (fld b 5 0))

/-- The command SLL: issue of the instruction. -/
def execSll (h : Hdr) (rd ra rb : Nat) (s : State) : Host.Outcome State Fault Refusal :=
  issue h (insSll rd ra rb) s

/-- SRL (R177): a >> b[5:0]. -/
def insSrl (rd ra rb : Nat) : InsDef :=
  insReg2 (encT 0x01 7 rd ra rb) rd ra rb 0 (fun a b => shr a (fld b 5 0))

/-- The command SRL: issue of the instruction. -/
def execSrl (h : Hdr) (rd ra rb : Nat) (s : State) : Host.Outcome State Fault Refusal :=
  issue h (insSrl rd ra rb) s

/-- SRA (R177): arithmetic right shift by b[5:0]. -/
def insSra (rd ra rb : Nat) : InsDef :=
  insReg2 (encT 0x01 8 rd ra rb) rd ra rb 0 (fun a b => sar a (fld b 5 0))

/-- The command SRA: issue of the instruction. -/
def execSra (h : Hdr) (rd ra rb : Nat) (s : State) : Host.Outcome State Fault Refusal :=
  issue h (insSra rd ra rb) s

/-- ROR (R177): a rotated right by b[5:0]. -/
def insRor (rd ra rb : Nat) : InsDef :=
  insReg2 (encT 0x01 9 rd ra rb) rd ra rb 0 (fun a b => rotr a (fld b 5 0))

/-- The command ROR: issue of the instruction. -/
def execRor (h : Hdr) (rd ra rb : Nat) (s : State) : Host.Outcome State Fault Refusal :=
  issue h (insRor rd ra rb) s

/-- MIN (R177): signed minimum. -/
def insMin (rd ra rb : Nat) : InsDef :=
  insReg2 (encT 0x01 10 rd ra rb) rd ra rb 0 (fun a b => if signed b < signed a then b else a)

/-- The command MIN: issue of the instruction. -/
def execMin (h : Hdr) (rd ra rb : Nat) (s : State) : Host.Outcome State Fault Refusal :=
  issue h (insMin rd ra rb) s

/-- MAX (R177): signed maximum. -/
def insMax (rd ra rb : Nat) : InsDef :=
  insReg2 (encT 0x01 11 rd ra rb) rd ra rb 0 (fun a b => if signed a < signed b then b else a)

/-- The command MAX: issue of the instruction. -/
def execMax (h : Hdr) (rd ra rb : Nat) (s : State) : Host.Outcome State Fault Refusal :=
  issue h (insMax rd ra rb) s

/-- MINU (R177): unsigned minimum. -/
def insMinu (rd ra rb : Nat) : InsDef :=
  insReg2 (encT 0x01 12 rd ra rb) rd ra rb 0 (fun a b => if b.toNat < a.toNat then b else a)

/-- The command MINU: issue of the instruction. -/
def execMinu (h : Hdr) (rd ra rb : Nat) (s : State) : Host.Outcome State Fault Refusal :=
  issue h (insMinu rd ra rb) s

/-- MAXU (R177): unsigned maximum. -/
def insMaxu (rd ra rb : Nat) : InsDef :=
  insReg2 (encT 0x01 13 rd ra rb) rd ra rb 0 (fun a b => if a.toNat < b.toNat then b else a)

/-- The command MAXU: issue of the instruction. -/
def execMaxu (h : Hdr) (rd ra rb : Nat) (s : State) : Host.Outcome State Fault Refusal :=
  issue h (insMaxu rd ra rb) s

/-- CLZ (R177): leading zero bits; 64 when a is 0. -/
def insClz (rd ra : Nat) : InsDef :=
  insReg1 (encT 0x01 16 rd ra 0) rd ra 0 false (fun a => word (clz a.toNat 64))

/-- The command CLZ: issue of the instruction. -/
def execClz (h : Hdr) (rd ra : Nat) (s : State) : Host.Outcome State Fault Refusal :=
  issue h (insClz rd ra) s

/-- CTZ (R177): trailing zero bits; 64 when a is 0. -/
def insCtz (rd ra : Nat) : InsDef :=
  insReg1 (encT 0x01 17 rd ra 0) rd ra 0 false (fun a => word (ctzFrom a.toNat 0 64))

/-- The command CTZ: issue of the instruction. -/
def execCtz (h : Hdr) (rd ra : Nat) (s : State) : Host.Outcome State Fault Refusal :=
  issue h (insCtz rd ra) s

/-- POPC (R177): number of 1 bits. -/
def insPopc (rd ra : Nat) : InsDef :=
  insReg1 (encT 0x01 18 rd ra 0) rd ra 0 false (fun a => word (popCount a.toNat 64))

/-- The command POPC: issue of the instruction. -/
def execPopc (h : Hdr) (rd ra : Nat) (s : State) : Host.Outcome State Fault Refusal :=
  issue h (insPopc rd ra) s

/-- BSWAP (R177): the eight bytes in reverse order. -/
def insBswap (rd ra : Nat) : InsDef :=
  insReg1 (encT 0x01 19 rd ra 0) rd ra 0 false (fun a => word (ofBytes (toBytes a.toNat 8).reverse))

/-- The command BSWAP: issue of the instruction. -/
def execBswap (h : Hdr) (rd ra : Nat) (s : State) : Host.Outcome State Fault Refusal :=
  issue h (insBswap rd ra) s

/-- SEXT (R177): sign-extended from the width the selector names; selectors 3-31 are reserved. -/
def insSext (rd ra sel : Nat) : InsDef :=
  insReg1 (encT 0x01 0x14 rd ra sel) rd ra 0 (decide (3 ≤ sel)) (fun a => wrap (signExtend a.toNat (8 * 2 ^ sel)))

/-- The command SEXT: issue of the instruction. -/
def execSext (h : Hdr) (rd ra sel : Nat) (s : State) : Host.Outcome State Fault Refusal :=
  issue h (insSext rd ra sel) s

/-- ZEXT (R177): zero-extended from the width the selector names; selectors 3-31 are reserved. -/
def insZext (rd ra sel : Nat) : InsDef :=
  insReg1 (encT 0x01 0x15 rd ra sel) rd ra 0 (decide (3 ≤ sel)) (fun a => word (a.toNat % 2 ^ (8 * 2 ^ sel)))

/-- The command ZEXT: issue of the instruction. -/
def execZext (h : Hdr) (rd ra sel : Nat) (s : State) : Host.Outcome State Fault Refusal :=
  issue h (insZext rd ra sel) s

/-- SLLI (R177): wrap(a << sh). -/
def insSlli (rd ra sh : Nat) : InsDef :=
  insReg1 (encT 0x01 (32 + sh / 32) rd ra (sh % 32)) rd ra 0 false (fun a => shl a sh)

/-- The command SLLI: issue of the instruction. -/
def execSlli (h : Hdr) (rd ra sh : Nat) (s : State) : Host.Outcome State Fault Refusal :=
  issue h (insSlli rd ra sh) s

/-- SRLI (R177): a >> sh. -/
def insSrli (rd ra sh : Nat) : InsDef :=
  insReg1 (encT 0x01 (34 + sh / 32) rd ra (sh % 32)) rd ra 0 false (fun a => shr a sh)

/-- The command SRLI: issue of the instruction. -/
def execSrli (h : Hdr) (rd ra sh : Nat) (s : State) : Host.Outcome State Fault Refusal :=
  issue h (insSrli rd ra sh) s

/-- SRAI (R177): arithmetic right shift by sh. -/
def insSrai (rd ra sh : Nat) : InsDef :=
  insReg1 (encT 0x01 (36 + sh / 32) rd ra (sh % 32)) rd ra 0 false (fun a => sar a sh)

/-- The command SRAI: issue of the instruction. -/
def execSrai (h : Hdr) (rd ra sh : Nat) (s : State) : Host.Outcome State Fault Refusal :=
  issue h (insSrai rd ra sh) s

/-- RORI (R177): a rotated right by sh. -/
def insRori (rd ra sh : Nat) : InsDef :=
  insReg1 (encT 0x01 (38 + sh / 32) rd ra (sh % 32)) rd ra 0 false (fun a => rotr a sh)

/-- The command RORI: issue of the instruction. -/
def execRori (h : Hdr) (rd ra sh : Nat) (s : State) : Host.Outcome State Fault Refusal :=
  issue h (insRori rd ra sh) s

/-- ADDI (R178). -/
def insAddi (h : Hdr) (rd ra imm : Nat) : InsDef :=
  insImm h 0 rd ra imm (fun a i => a + i)

/-- The command ADDI: issue of the instruction. -/
def execAddi (h : Hdr) (rd ra imm : Nat) (s : State) : Host.Outcome State Fault Refusal :=
  issue h (insAddi h rd ra imm) s

/-- ANDI (R178). -/
def insAndi (h : Hdr) (rd ra imm : Nat) : InsDef :=
  insImm h 1 rd ra imm (fun a i => a &&& i)

/-- The command ANDI: issue of the instruction. -/
def execAndi (h : Hdr) (rd ra imm : Nat) (s : State) : Host.Outcome State Fault Refusal :=
  issue h (insAndi h rd ra imm) s

/-- ORI (R178). -/
def insOri (h : Hdr) (rd ra imm : Nat) : InsDef :=
  insImm h 2 rd ra imm (fun a i => a ||| i)

/-- The command ORI: issue of the instruction. -/
def execOri (h : Hdr) (rd ra imm : Nat) (s : State) : Host.Outcome State Fault Refusal :=
  issue h (insOri h rd ra imm) s

/-- XORI (R178). -/
def insXori (h : Hdr) (rd ra imm : Nat) : InsDef :=
  insImm h 3 rd ra imm (fun a i => a ^^^ i)

/-- The command XORI: issue of the instruction. -/
def execXori (h : Hdr) (rd ra imm : Nat) (s : State) : Host.Outcome State Fault Refusal :=
  issue h (insXori h rd ra imm) s

/-- MOVI (R178): wrap(imm), the immediate of width 16, or 36 under WIDE. -/
def insMovi (h : Hdr) (rd imm : Nat) : InsDef :=
  { word := encK 0x03 0 rd imm, wideOk := true, repOk := true, reserved := false, vector := false, priv := false,
    routine := none, run := fun E s => .done (wrG s E rd (wrap (immOf h.wide imm 16)) 0) false }

/-- The command MOVI: issue of the instruction. -/
def execMovi (h : Hdr) (rd imm : Nat) (s : State) : Host.Outcome State Fault Refusal :=
  issue h (insMovi h rd imm) s

/-- MOVS (R178): wrap((d << k) + (imm mod (1 << k))). -/
def insMovs (h : Hdr) (rd imm : Nat) : InsDef :=
  { word := encK 0x03 1 rd imm, wideOk := true, repOk := true, reserved := false, vector := false, priv := false,
    routine := none,
    run := fun E s =>
      let k := immWidth h.wide 16
      .done (wrG s E rd (word ((rdG s E 0 rd).toNat * 2 ^ k + toField (immOf h.wide imm 16) k)) 0) false }

/-- The command MOVS: issue of the instruction. -/
def execMovs (h : Hdr) (rd imm : Nat) (s : State) : Host.Outcome State Fault Refusal :=
  issue h (insMovs h rd imm) s

/-- CEQ (R179). -/
def insCeq (pd ra rb : Nat) : InsDef :=
  insCmp 0 pd ra rb cmpEq

/-- The command CEQ: issue of the instruction. -/
def execCeq (h : Hdr) (pd ra rb : Nat) (s : State) : Host.Outcome State Fault Refusal :=
  issue h (insCeq pd ra rb) s

/-- CNE (R179). -/
def insCne (pd ra rb : Nat) : InsDef :=
  insCmp 1 pd ra rb cmpNe

/-- The command CNE: issue of the instruction. -/
def execCne (h : Hdr) (pd ra rb : Nat) (s : State) : Host.Outcome State Fault Refusal :=
  issue h (insCne pd ra rb) s

/-- CLT (R179). -/
def insClt (pd ra rb : Nat) : InsDef :=
  insCmp 2 pd ra rb cmpLt

/-- The command CLT: issue of the instruction. -/
def execClt (h : Hdr) (pd ra rb : Nat) (s : State) : Host.Outcome State Fault Refusal :=
  issue h (insClt pd ra rb) s

/-- CGE (R179). -/
def insCge (pd ra rb : Nat) : InsDef :=
  insCmp 3 pd ra rb cmpGe

/-- The command CGE: issue of the instruction. -/
def execCge (h : Hdr) (pd ra rb : Nat) (s : State) : Host.Outcome State Fault Refusal :=
  issue h (insCge pd ra rb) s

/-- CLTU (R179). -/
def insCltu (pd ra rb : Nat) : InsDef :=
  insCmp 4 pd ra rb cmpLtu

/-- The command CLTU: issue of the instruction. -/
def execCltu (h : Hdr) (pd ra rb : Nat) (s : State) : Host.Outcome State Fault Refusal :=
  issue h (insCltu pd ra rb) s

/-- CGEU (R179). -/
def insCgeu (pd ra rb : Nat) : InsDef :=
  insCmp 5 pd ra rb cmpGeu

/-- The command CGEU: issue of the instruction. -/
def execCgeu (h : Hdr) (pd ra rb : Nat) (s : State) : Host.Outcome State Fault Refusal :=
  issue h (insCgeu pd ra rb) s

/-- CTST (R179). -/
def insCtst (pd ra rb : Nat) : InsDef :=
  insCmp 6 pd ra rb cmpTst

/-- The command CTST: issue of the instruction. -/
def execCtst (h : Hdr) (pd ra rb : Nat) (s : State) : Host.Outcome State Fault Refusal :=
  issue h (insCtst pd ra rb) s

/-- CEQI (R179). -/
def insCeqi (h : Hdr) (pd ra imm : Nat) : InsDef :=
  insCmpI h 0 pd ra imm cmpEq

/-- The command CEQI: issue of the instruction. -/
def execCeqi (h : Hdr) (pd ra imm : Nat) (s : State) : Host.Outcome State Fault Refusal :=
  issue h (insCeqi h pd ra imm) s

/-- CNEI (R179). -/
def insCnei (h : Hdr) (pd ra imm : Nat) : InsDef :=
  insCmpI h 1 pd ra imm cmpNe

/-- The command CNEI: issue of the instruction. -/
def execCnei (h : Hdr) (pd ra imm : Nat) (s : State) : Host.Outcome State Fault Refusal :=
  issue h (insCnei h pd ra imm) s

/-- CLTI (R179). -/
def insClti (h : Hdr) (pd ra imm : Nat) : InsDef :=
  insCmpI h 2 pd ra imm cmpLt

/-- The command CLTI: issue of the instruction. -/
def execClti (h : Hdr) (pd ra imm : Nat) (s : State) : Host.Outcome State Fault Refusal :=
  issue h (insClti h pd ra imm) s

/-- CGEI (R179). -/
def insCgei (h : Hdr) (pd ra imm : Nat) : InsDef :=
  insCmpI h 3 pd ra imm cmpGe

/-- The command CGEI: issue of the instruction. -/
def execCgei (h : Hdr) (pd ra imm : Nat) (s : State) : Host.Outcome State Fault Refusal :=
  issue h (insCgei h pd ra imm) s

/-- PAND (R179). -/
def insPand (pd pa pb : Nat) : InsDef :=
  insPred 0 pd pa pb (fun a b => a && b)

/-- The command PAND: issue of the instruction. -/
def execPand (h : Hdr) (pd pa pb : Nat) (s : State) : Host.Outcome State Fault Refusal :=
  issue h (insPand pd pa pb) s

/-- POR (R179). -/
def insPor (pd pa pb : Nat) : InsDef :=
  insPred 1 pd pa pb (fun a b => a || b)

/-- The command POR: issue of the instruction. -/
def execPor (h : Hdr) (pd pa pb : Nat) (s : State) : Host.Outcome State Fault Refusal :=
  issue h (insPor pd pa pb) s

/-- PXOR (R179). -/
def insPxor (pd pa pb : Nat) : InsDef :=
  insPred 2 pd pa pb (fun a b => xor a b)

/-- The command PXOR: issue of the instruction. -/
def execPxor (h : Hdr) (pd pa pb : Nat) (s : State) : Host.Outcome State Fault Refusal :=
  issue h (insPxor pd pa pb) s

/-- PANDN (R179). -/
def insPandn (pd pa pb : Nat) : InsDef :=
  insPred 3 pd pa pb (fun a b => a && !b)

/-- The command PANDN: issue of the instruction. -/
def execPandn (h : Hdr) (pd pa pb : Nat) (s : State) : Host.Outcome State Fault Refusal :=
  issue h (insPandn pd pa pb) s

/-- PNOT (R179): NOT pa; the pb slot is zero. -/
def insPnot (pd pa : Nat) : InsDef :=
  insPred 4 pd pa 0 (fun a _ => !a)

/-- The command PNOT: issue of the instruction. -/
def execPnot (h : Hdr) (pd pa : Nat) (s : State) : Host.Outcome State Fault Refusal :=
  issue h (insPnot pd pa) s

/-- MUL (R180), of the multiply class. -/
def insMul (rd ra rb : Nat) : InsDef :=
  insReg2 (encT 0x07 0 rd ra rb) rd ra rb 2 (fun a b => a * b)

/-- The command MUL: issue of the instruction. -/
def execMul (h : Hdr) (rd ra rb : Nat) (s : State) : Host.Outcome State Fault Refusal :=
  issue h (insMul rd ra rb) s

/-- MULH (R180), of the multiply class. -/
def insMulh (rd ra rb : Nat) : InsDef :=
  insReg2 (encT 0x07 1 rd ra rb) rd ra rb 2 (fun a b => wrap ((signed a * signed b) / 2 ^ 64))

/-- The command MULH: issue of the instruction. -/
def execMulh (h : Hdr) (rd ra rb : Nat) (s : State) : Host.Outcome State Fault Refusal :=
  issue h (insMulh rd ra rb) s

/-- MULHU (R180), of the multiply class. -/
def insMulhu (rd ra rb : Nat) : InsDef :=
  insReg2 (encT 0x07 2 rd ra rb) rd ra rb 2 (fun a b => word ((a.toNat * b.toNat) / 2 ^ 64))

/-- The command MULHU: issue of the instruction. -/
def execMulhu (h : Hdr) (rd ra rb : Nat) (s : State) : Host.Outcome State Fault Refusal :=
  issue h (insMulhu rd ra rb) s

/-- MULHSU (R180), of the multiply class. -/
def insMulhsu (rd ra rb : Nat) : InsDef :=
  insReg2 (encT 0x07 3 rd ra rb) rd ra rb 2 (fun a b => wrap ((signed a * (b.toNat : Int)) / 2 ^ 64))

/-- The command MULHSU: issue of the instruction. -/
def execMulhsu (h : Hdr) (rd ra rb : Nat) (s : State) : Host.Outcome State Fault Refusal :=
  issue h (insMulhsu rd ra rb) s

/-- DIV (R180), waited. -/
def insDiv (rd ra rb : Nat) : InsDef :=
  insDivide 4 rd ra rb divSigned

/-- The command DIV: issue of the instruction. -/
def execDiv (h : Hdr) (rd ra rb : Nat) (s : State) : Host.Outcome State Fault Refusal :=
  issue h (insDiv rd ra rb) s

/-- DIVU (R180), waited. -/
def insDivu (rd ra rb : Nat) : InsDef :=
  insDivide 5 rd ra rb divUnsigned

/-- The command DIVU: issue of the instruction. -/
def execDivu (h : Hdr) (rd ra rb : Nat) (s : State) : Host.Outcome State Fault Refusal :=
  issue h (insDivu rd ra rb) s

/-- REM (R180), waited. -/
def insRem (rd ra rb : Nat) : InsDef :=
  insDivide 6 rd ra rb remSigned

/-- The command REM: issue of the instruction. -/
def execRem (h : Hdr) (rd ra rb : Nat) (s : State) : Host.Outcome State Fault Refusal :=
  issue h (insRem rd ra rb) s

/-- REMU (R180), waited. -/
def insRemu (rd ra rb : Nat) : InsDef :=
  insDivide 7 rd ra rb remUnsigned

/-- The command REMU: issue of the instruction. -/
def execRemu (h : Hdr) (rd ra rb : Nat) (s : State) : Host.Outcome State Fault Refusal :=
  issue h (insRemu rd ra rb) s

/-- The command DIVIDER_RESULT (R180, R181): a waited result becomes present, and the divider of the core is free. -/
def execDividerResult (core : Nat) (s : State) : Host.Outcome State Fault Refusal :=
  if 112 ≤ core then .refused .illFormed
  else
    let n := s.unit core
    let c := s.core n
    if c.divBusy then .next (s.setCore n { c with divBusy := false })
    else .next s

end Sys2Proof.Machine
end

