-- ==== Sys2Proof/Machine/Boot.lean ====
section
/-! DEFINITION. From SELFTEST to service, and reconfiguration: the result of the self-test, the application of an image, and the
commands that end a check or a quiesce ("The structure image and operating modes", R556, R557, R568-R574; R323, R328, R459). -/

namespace Sys2Proof.Machine

open Sys2Proof

/-! ## SELFTEST (R569) -/

/-- A unit that SELFTEST may find bad: the classes of R531 that name a unit it tests; a P-core is tested in its pair. -/
def testable (sc ix : Nat) : Bool :=
  subjectOk sc ix && decide (sc < 10) && !(decide (sc = 0) && decide (ix < 48))

/-- Pair k has passed: neither it, nor a core of it, nor its domain is bad. -/
def pairPassed (bad : List (Nat × Nat)) (k : Nat) : Bool :=
  !(bad.contains (1, k)) && !(bad.contains (0, 2 * k)) && !(bad.contains (0, 2 * k + 1)) && !(bad.contains (7, k))

/-- The fatal result of a self-test that leaves these units bad; 0 when it is not fatal (R569). -/
def fatalReason (bad : List (Nat × Nat)) : Nat :=
  if 4 < (bad.filter (fun e => decide (e.1 = 2))).length then 1
  else if !((List.range 24).any (pairPassed bad)) then 2
  else if bad.contains (7, 83) then 3
  else if bad.contains (9, 0) && bad.contains (9, 1) then 4
  else if bad.contains (7, 92) || bad.contains (7, 93) || bad.contains (7, 95) then 5
  else 0

/-- A pseudo-channel is RETIRED with no copy (R394). -/
def State.retireFresh (s : State) (pc : Nat) : State :=
  if s.pcState pc ≠ pcSERVICE then s
  else
    match s.freeRegion with
    | none => s
    | some r =>
      let s := s.setRf (.memPcstat pc) memPcstat_STATE pcRETIRED
      let s := { s with region := tset s.region pc (r, s.pcsInService) }
      ((s.setRf .memCap memCap_REGFREE (s.rf .memCap memCap_REGFREE - 1)).setRf .memCap memCap_INSVC
        (s.rf .memCap memCap_INSVC - 1)).satRf .memCap memCap_RETIRED 1

/-- A unit that is bad takes no part in service: what its block shows of it. failed tells that this self-test found it. -/
def State.outOfService (s : State) (sc ix : Nat) (failed : Bool) : State :=
  match sc with
  | 0 => if ix < 48 then s.setRf (.depPair (ix / 2)) depPair_STATE 2 else s.domainIfIdle ix
  | 1 => (s.setRf (.depPair ix) depPair_STATE 2).domainRetired ix
  | 2 => s.retireFresh ix
  | 6 => s.setRf (.keyUstat ix) keyUstat_STATE (if failed then 2 else 3)
  | 7 => if retirableDomain ix then (s.domainRetired ix).setRf (.ageDom ix) ageDom_STATE 3 else s
  | _ => s

/-- The unit is retired before CONFIGURE: it is recorded and its failure reported (R394, R535, R539). -/
def State.failUnit (s : State) (sc ix : Nat) : State := (s.retireMark sc ix).raise sc ix 0x12 0 0

/-- SELFTEST (R569): the test ends, having found the listed units bad beside those the retirement log names. -/
def execSelftest (failed : List (Nat × Nat)) (s : State) : Host.Outcome State Fault Refusal :=
  if !(failed.all (fun e => testable e.1 e.2)) then .refused .illFormed
  else if s.mode ≠ mdSELFTEST ∨ s.rf .sysMode sysMode_REASON ≠ 0 ∨ s.porLow = true ∨ s.wrstLow = true then
    .next s
  else
    let cold := decide (s.rf .pwrRstat pwrRstat_LAST = 0)
    let s : State := if cold then { s with retired := s.retLog } else s
    let before := s.retired
    let fresh := (failed.filter (fun e => !(before.contains e))).eraseDups
    let bad := before ++ fresh
    let s : State := fresh.foldl (fun s e => s.failUnit e.1 e.2) s
    let s : State := bad.foldl (fun s e => s.outOfService e.1 e.2 (fresh.contains e)) s
    if fatalReason bad ≠ 0 then .next (s.setRf .sysMode sysMode_REASON (fatalReason bad))
    else
      let temp := fun (pc : Nat) => s.rf (.pwrDom (64 + pc / 32)) pwrDom_TEMP
      let s : State := { s with
        mem := Mem.empty, tcms := [], cstore := [], csActive := none, pllOff := [], retired := bad
        cal := (List.range 128).map (fun pc => (pc, (⟨false, false, s.now, temp pc⟩ : CalRun)))
        drbgN := [(0, (0, s.now)), (1, (0, s.now))] }
      let s := s.setRf .clkStat clkStat_REF (5 + 2 * b2n s.ref100)
      let s := (s.setRf .keyDrbg keyDrbg_SRC0 (b2n (!(bad.contains (9, 0))))).setRf .keyDrbg keyDrbg_SRC1
        (b2n (!(bad.contains (9, 1))))
      let s := s.drbgHealth
      .next ({ s with avsTarget := s.railNeed }.setMode mdCONFIGURE)

/-! ## The application of an image (R570) -/

/-- n words of an image from offset a are written from physical address pa on, tagged INT, by IMG: line by line, a denied line discarded
(R355, R366). -/
def State.putImage (s : State) (f : Nat → Nat) (a pa n : Nat) : State :=
  (s.masterWriteBytes mIMG 0 pa ((List.range (8 * n)).map (fun i => f (a + i))) (n / 8 + 2)).2

/-- A capability is written as a capability store writes it, by IMG. -/
def State.putCap (s : State) (pa : Nat) (c : Cap) : State :=
  let lo := if c.tag then tCAPLO else tINT
  let hi := if c.tag then tCAPHI else tINT
  match s.ridge mIMG 0 true pa with
  | (none, s) => s
  | (some _, s) =>
  if !(backedDram pa) then s else
  (s.putWord .dram pa c.cursor.toNat lo none).putWord .dram (pa + 8) c.hi.toNat hi none

/-- The core under which a TCM record is kept: the two cores of a pair share what they hold. -/
def State.tcmUnit (s : State) (n : Nat) : Nat := s.unit n

/-- One record takes effect (R562-R565). -/
def State.applyRec (s : State) (f : Nat → Nat) (staged : Bool) (x : Sec) (r : ImgRec) : State :=
  match r with
  | .write pa v =>
    (match s.regAtPa imgQ pa with
    | none => s
    | some g =>
      let s := s.setOwner staged g v
      (regWrite s imgQ g v).getD s)
  | .param id ix len a => s.setParam f id ix len a
  | .tcm n off k a =>
    { s with cfg := { s.cfg with tcmImg := s.cfg.tcmImg ++ [(s.tcmUnit n, off, (List.range k).map (fun i => iWord f (a + 8 * i)))] } }
  | .format num a => s.putImage f a (s.rf (.ingFbase x.inst) ingFbase_ADDR * 2 ^ 19 + 0x800 * num) 256
  | .mint pa k n a =>
    if k = 0 then s.putImage f a pa n
    else
      match deriveDesc f a with
      | none => s
      | some c => s.putCap pa c
  | .bad => s

/-- An advance of the table's epoch, taken to its end (R371). -/
def State.rdgSettle (s : State) : State :=
  let s : State := { s.addRf .rdgEpochnum rdgEpochnum_CUR 1 with rdgStale := [] }
  (s.setRf .rdgEpochnum rdgEpochnum_REQ (s.rf .rdgEpochnum rdgEpochnum_CUR)).report 594

/-- Where in the system area IMG stages the CSTORE section of CONFIGURE (R570): a page of its own choice, with room for the section. -/
def stagePa : Nat := 0x1800000000 + 4096 * (Config.stagePage % (0xCCC00 - 0x11))

/-- What follows the sections of a type in CONFIGURE: the epoch advance after RIDGE, the control stores at CSTORE, and the load of
the TCMs after TCM. -/
def State.afterType (s : State) (f : Nat → Nat) (typ : Nat) : State :=
  match typ with
  | 3 => s.rdgSettle
  | 4 =>
    ((imgSecs f).filter (fun x => decide (x.typ = 4))).foldl (fun s x =>
      let s := s.putImage f x.off stagePa (0x11000 / 8)
      ((List.range 112).filter (fun n => decide (s.unit n = n))).foldl (fun s n =>
        let (v, s) := s.draw
        (s.csLoad n stagePa (decide (v % 2 = 0))).2) { s with csActive := some stagePa }) s
  | 5 => (s.cfg.tcmRange.map (fun e => s.unit e.1)).foldl (fun s n => s.tcmReload n) s
  | _ => s

/-- The records of one section type in directory order. -/
def State.applyType (s : State) (f : Nat → Nat) (staged : Bool) (typ : Nat) : State :=
  ((imgRecs f).filter (fun e => decide (e.1.typ = typ))).foldl (fun s e => s.applyRec f staged e.1 e.2.2) s

/-- The CODE sections of an image in flash at base, and the digests of their blocks (R557). -/
def State.recordCode (s : State) (f : Nat → Nat) (base : Nat) : State :=
  let code := ((imgSecs f).filter (fun x => decide (x.typ = 0xF))).map (fun x => (base + x.off, x.len))
  let blocks := (code.flatMap (fun e => (List.range (e.2 / 4096 + 1)).map (fun i => e.1 / 4096 + i))).eraseDups
  let dig := fun (b : Nat) => Config.sha256 ((List.range 4096).map (fun i => s.flashByte (4096 * b + i)))
  { s with cfg := { s.cfg with code := code, codeDig := blocks.map (fun b => (b, dig b)) } }

/-- The words that links and key units take again when they lose their state: the image's, where the reset column says so. -/
def State.recordRegs (s : State) : State :=
  let keys := (List.range 38).map (fun u => (Reg.keyUctl u, s.reg (.keyUctl u)))
  let links := (List.range 12).map (fun l => (Reg.cdlLctl l, setFld (s.reg (.cdlLctl l)) 7 4 0xF))
  { s with imgRegs := keys ++ links }

/-- Every core that is in service is released at its reset entry (R571). -/
def State.releaseCores (s : State) : State :=
  ((List.range 112).filter (fun n => decide (s.unit n = n))).foldl (fun s n =>
    let gone := (if s.paired n then s.isRetired 1 (n / 2) || decide (s.rf (.depPair (n / 2)) depPair_STATE = 2) else s.isRetired 0 n)
    let c := s.core n
    let r := Core.reset n (s.coreWorld n) (s.resetEntryOf n)
    s.setCore n { r with held := gone || c.off, off := c.off, csBad := c.csBad, csFailed := c.csFailed, resets := c.resets }) s

/-- The entry into service from CONFIGURE (R571): SALT is drawn, SEQ continues, links train, cores are released, and JOIN follows the
first admission. -/
def State.enterService (s : State) : State :=
  let (id, s) := s.drbgUse true
  let (v, s) := s.draw
  let salt := match id with
    | some i => ofBytes ((drbgBytes i 4).map BitVec.toNat)
    | none => v % 2 ^ 32
  let s : State := { s.setRf .cdlEst cdlEst_INC salt with salt := salt, joinDue := true }
  let s := s.setMode (if s.degr = 0 then mdSERVICE else mdDEGRADED)
  let s := s.jcStart
  let s := (List.range 12).foldl (fun s l => s.linkTrain l) s
  s.releaseCores

/-- An image that has passed its checks is applied (R570); base is where it lies in flash, none for one from the BAR2 window. -/
def State.configure (s : State) (f : Nat → Nat) (base : Option Nat) : State :=
  let s := applyOrder.foldl (fun s t => (s.applyType f false t).afterType f t) s
  let s := match base with
    | some b => (s.recordCode f b).setRf .mgtFwin mgtFwin_BASE b
    | none => s
  let s := s.recordRegs
  let s := (s.setReg .imgActive (word (imgId f))).setReg .imgActsvn (word (imgSvn f))
  (s.imgResult none).degrCompute.enterService

/-- CONFIGURE (R556, R570): the preferred slot is tried, then the other; when neither passes the device stays in CONFIGURE with
RECOVERY = 1. -/
def execConfigure (s : State) : Host.Outcome State Fault Refusal :=
  if s.mode ≠ mdCONFIGURE ∨ s.rf .sysMode sysMode_RECOVERY = 1 then .next s
  else
    let k := b2n ((s.flashByte 0).getLsbD 0)
    let base := fun (k : Nat) => if k = 0 then 0x00100000 else 0x02000000
    match s.imgCheck (s.slotImage k) false with
    | none => .next ({ s with slotUsed := k }.configure (s.slotImage k) (some (base k)))
    | some _ =>
      match s.imgCheck (s.slotImage (1 - k)) false with
      | none => .next ({ s with slotUsed := 1 - k }.configure (s.slotImage (1 - k)) (some (base (1 - k))))
      | some e =>
        let s := s.imgResult (some e)
        .next ((s.setRf .sysMode sysMode_RECOVERY 1).setRf .sysMode sysMode_REASON e.result)

/-! ## Checks and reconfiguration (R572) -/

/-- The staged image may be read: it lies in the system area window, and IMG is admitted to every line of it (R355, R366). -/
def State.stageOk (s : State) : Bool × State :=
  let a := s.rf .imgStage imgStage_ADDR * 4096
  if !(inSysWindow a) then (false, s)
  else
    match s.ridgeAll mIMG [(false, a)] with
    | (false, s) => (false, s)
    | (true, s) =>
      if 0x1F00000 < imgLength s.stagedImage then (true, s)
      else s.ridgeAll mIMG ((linesFrom a (imgLength s.stagedImage)).map (fun l => (false, l)))

/-- CHECK_COMPLETE (R572, R556): the check under way ends with its RESULT, and source 577 is reported; in recovery an image that passes
is applied. -/
def execCheckComplete (s : State) : Host.Outcome State Fault Refusal :=
  if s.rf .imgStat imgStat_BUSY = 0 ∨ s.mode = mdRECONFIG then .next s
  else if s.mode = mdCONFIGURE then
    let e := s.imgCheck s.barImage false
    let s := ((s.imgResult e).setRf .imgStat imgStat_BUSY 0).report 577
    match e with
    | some x => .next (s.setRf .sysMode sysMode_REASON x.result)
    | none => .next ((s.setRf .sysMode sysMode_RECOVERY 0).configure s.barImage none)
  else
    let (ok, s) := s.stageOk
    let e := if ok then s.imgCheck s.stagedImage true else some ⟨1, 0, 0⟩
    .next ((((s.imgResult e).setRf .imgStat imgStat_BUSY 0).setRf .imgStat imgStat_CHECKED (b2n e.isNone)).report 577)

/-- The slice is quiesced: every core of it is idle or held (R572). -/
def State.sliceIdle (s : State) : Bool := s.sliceCores.all (fun n => s.coreQui n)

/-- The cores of the slice, each pair under its even core. -/
def State.sliceUnits (s : State) : List Nat := (s.sliceCores.map (fun n => s.unit n)).eraseDups

/-- The links of the slice. -/
def State.sliceLinks (s : State) : List Nat := (List.range 12).filter (fun l => bit (s.rf .imgSllink imgSllink_LINKS) l)

/-- The control stores of the slice are loaded from a staged section, as MCS.LOADREQ loads each core (R328, R572). -/
def State.sliceCstore (s : State) (f : Nat → Nat) : State :=
  ((imgSecs f).filter (fun x => decide (x.typ = 4))).foldl (fun s x =>
    s.sliceUnits.foldl (fun s n =>
      let (v, s) := s.draw
      let (err, s) := s.csLoad n (s.rf .imgStage imgStage_ADDR * 4096 + x.off) (decide (v % 2 = 0))
      (s.setRf .mcsStat mcsStat_LASTCORE n).setRf .mcsStat mcsStat_ERR err) s) s

/-- Every section of a staged image is applied (R572, step 6). -/
def State.applyStaged (s : State) (f : Nat → Nat) : State :=
  let cores := (imgRecs f).filterMap (fun e => match e.2.2 with
    | .tcm n _ _ _ => some (s.tcmUnit n)
    | _ => none)
  let s : State := { s with cfg := { s.cfg with tcmImg := s.cfg.tcmImg.filter (fun e => !(cores.contains e.1)) } }
  applyOrder.foldl (fun s t => if t = 4 then s.sliceCstore f else s.applyType f true t) s

/-- The slice is released (R572, step 7). -/
def State.sliceRelease (s : State) : State :=
  let s : State := { s with recon := none, linkQui := [] }
  let s := s.sliceUnits.foldl (fun s n =>
    let s := (s.resetCoreState n).tcmReload n
    let c := s.core n
    let gone := (if s.paired n then s.isRetired 1 (n / 2) else s.isRetired 0 n)
    s.setCore n { c with quiesced := false, held := gone || c.off }) s
  let s := s.sliceLinks.foldl (fun s l => s.linkTrain l) s
  let s := s.setRf .imgStat imgStat_BUSY 0
  (s.setMode (if s.degr = 0 then mdSERVICE else mdDEGRADED)).report 579

/-- The slice having quiesced, its links go DOWN, the image is applied, and the slice is released. -/
def State.reconfigure (s : State) : State :=
  let f := s.stagedImage
  let s := s.sliceLinks.foldl (fun s l => if s.linkState l = lsDOWN then s else s.linkDown l 0) s
  let s := s.applyStaged f
  let s := (s.setReg .imgActive (word (imgId f))).setReg .imgActsvn (word (imgSvn f))
  (s.imgResult none).degrCompute.sliceRelease

/-- SLICE_QUIESCED (R572): both contexts of every core of the slice are IDLE, and the reconfiguration is made. -/
def execSliceQuiesced (s : State) : Host.Outcome State Fault Refusal :=
  if s.mode ≠ mdRECONFIG ∨ s.recon.isNone = true ∨ s.sliceIdle = false then .next s
  else .next s.reconfigure

/-- QUIESCE_TIMEOUT (R572): QTMO has passed; without FORCE the reconfiguration fails with RESULT 12, with it the remaining work of the
slice is ended as for retired units, and the reconfiguration is made. -/
def execQuiesceTimeout (s : State) : Host.Outcome State Fault Refusal :=
  match s.recon with
  | none => .next s
  | some r =>
    if s.mode ≠ mdRECONFIG ∨ s.sliceIdle = true then .next s
    else
      let s := s.advanceTo (r.since + s.cfg.qtmo * 1000000)
      if r.force = false then .next (s.imgGiveUp ⟨12, 0, 0⟩)
      else .next (s.sliceUnits.foldl (fun s n => s.endCoreWork n) s).reconfigure

end Sys2Proof.Machine
end

