-- ==== Sys2Proof/Machine/Loads.lean ====
section
/-! DEFINITION. The memory operand of form M, and the load and store instructions of groups 0x0C to 0x0F ("Instruction
encoding, addressing and distances", R152-R157; "Scalar instruction reference", R184-R190). -/

namespace Sys2Proof.Machine

open Sys2Proof

/-! ## The memory operand -/

/-- A memory operand with its address computed: the authorising capability as read, the effective address, and the cursor
to write back (R152, R153). -/
structure Operand where
  cap : Cap
  ea  : Nat
  wb  : Option Nat
  deriving DecidableEq, Repr

/-- The reserved values of a memory operand (R152, R156): a mode the instruction does not accept, a scale above 4, an update
of c15, or a WIDE prefix with a mode other than offset (R147). -/
def memReserved (h : Hdr) (m : MemOp) (modes : List Nat) : Bool :=
  !(modes.contains m.am) || (decide (m.am = 1) && decide (4 < m.payload % 8)) || (decide (2 ≤ m.am) && decide (m.cb = 15))
    || (h.wide.isSome && decide (m.am ≠ 0))

/-- Every mode. -/
def allModes : List Nat := [0, 1, 2, 3]

/-- memory_access of R153 up to the check: s is the access size. -/
def memOperand (s : State) (E : Env) (h : Hdr) (m : MemOp) (size : Nat) : Operand :=
  let c := rdC s E 8 m.cb
  let cur := (c.cur : Int)
  let step := ((m.payload + 1) * size : Nat)
  if m.am = 0 then ⟨c, (wrap (cur + immOf h.wide m.payload 8 * size)).toNat, none⟩
  else if m.am = 1 then
    ⟨c, (wrap (cur + (rdG s E 9 (m.payload / 8)).toNat * 2 ^ (m.payload % 8))).toNat, none⟩
  else if m.am = 2 then ⟨c, c.cur, some (wrap (cur + step)).toNat⟩
  else
    let ea := (wrap (cur - step)).toNat
    ⟨c, ea, some ea⟩

/-- The update of cb after the access has completed (R155), of the ALU class (R185). -/
def writeBack (s : State) (E : Env) (cb : Nat) (o : Operand) : State :=
  match o.wb with
  | none => s
  | some a => wrC s E cb (o.cap.setCursor a) 0

/-! ## Remote accesses of an instruction -/

/-- An earlier request of the context to the plot of an address has not been answered (R510). -/
def State.plotBusy (s : State) (n k addr : Nat) : Bool :=
  let same := fun (r : RemoteReq) => decide (r.env.n = n) && decide (r.env.k = k) && decide (plotOf r.addr = plotOf addr)
  s.posted.any same || s.fab.postQ.any (fun e => same e.2)

/-- The number that stands for one not yet given: no packet carries it. -/
def noReq : Nat := 65536

/-- Sends a request of this context and holds the context for its answer (R509); without a route it ends with REMOTE_FAULT
reason 4 (R498). It is kept back while an earlier request of the context to the same plot has not been answered (R510). -/
def sendRemote (s : State) (r : RemoteReq) : Res :=
  if s.plotBusy r.env.n r.env.k r.addr then
    let r := { r with reqid := noReq }
    let x := s.ctx r.env.n r.env.k
    .hold (({ s with free := s.free + 1, fab := { s.fab with postQ := s.fab.postQ ++ [(true, r)] } }).setCtx r.env.n r.env.k
      { x with wait := .remote r })
  else
  let (id, s) := s.newReq
  let r := { r with reqid := id, due := s.now + s.rtmo }
  match s.send (s.mkPkt r.typ r.node id r.arg r.addr r.payload r.tags) with
  | (none, s) => .trap ⟨ecREMOTE_FAULT, remoteInfo 0 r.capNo r.node 4 0, r.addr, 0⟩ s
  | (some l, s) =>
    let x := s.ctx r.env.n r.env.k
    .hold (({ s with free := s.free + 1 }).setCtx r.env.n r.env.k { x with wait := .remote { r with link := l } })

/-- The request of an instruction for one access. -/
def remoteReq (E : Env) (typ node : Nat) (a : Acc) (arg : Nat) (payload : List Byte) (tags : List Nat) (mode dst : Nat)
    (wb : Option (Nat × Cap)) : RemoteReq :=
  { env := E, typ := typ, reqid := 0, node := node, link := 0, addr := a.ea, arg := arg, payload := payload, tags := tags,
    capNo := a.capNo, mode := mode, dst := dst, size := a.size, wb := wb, due := 0, resends := 0 }

/-- The write-back of an operand as a request records it: the capability as the instruction read it, with its new cursor (R155, R171). -/
def Operand.wbOf (o : Operand) (cb : Nat) : Option (Nat × Cap) := o.wb.map (fun a => (cb, o.cap.setCursor a))

/-- A capability may leave the device (R47, R507). -/
def Cap.mayLeave (c : Cap) : Bool :=
  !c.tag || (!c.world && !c.isLocal && !(c.has pDEVICE) && decide (c.otype ≠ otRETURN) && decide (c.otype ≠ otSAVE)
    && decide (c.otype ≠ otCROSS))

/-! ## Loads -/

/-- The value a load of a size leaves in its register: zero- or sign-extended to 64 bits (R185). -/
def extendLoad (v size : Nat) (sext : Bool) : Word := if sext then wrap (signExtend v (8 * size)) else word v

/-- A data load of a size into a general register (R185, R186). -/
def insLoad (h : Hdr) (major op size : Nat) (sext : Bool) (t : Nat) (m : MemOp) : InsDef :=
  { word := encM major op t m, wideOk := true, repOk := true, reserved := memReserved h m allModes, vector := false,
    priv := false, routine := none,
    run := fun E s =>
      let o := memOperand s E h m size
      let a : Acc := ⟨o.cap, m.cb, o.ea, size, kLOAD, pm pLOAD, 0, 0, false, true, true⟩
      match loadData s E a with
      | .trap t s => .trap t s
      | .wait w s => .hold (s.waitOn E w)
      | .remote node s =>
        sendRemote s (remoteReq E pkLOAD node a size [] [] (if sext then 2 else 1) t (o.wbOf m.cb))
      | .ok (v, d) s => .done (writeBack (wrG s E t (extendLoad v size sext) d) E m.cb o) false }

/-- The tags of a capability load (R58): none when the load gives a register, otherwise the cause. -/
def capTagTrap (lo hi capNo ea : Nat) : Option Trap :=
  let bad := fun (t : Nat) => decide (t = tPOISON) || decide (t = tRETREC) || decide (7 ≤ t)
  let one := fun (t a : Nat) (second : Bool) =>
    if t = tPOISON then (⟨ecMC_POISON, capInfo capNo, a, 0⟩ : Trap)
    else ⟨ecTAG_FAULT, capInfo capNo + t + 256 * b2n second, a, 0⟩
  let data := fun (t : Nat) => decide (t = tINT) || decide (t = tFLT)
  if bad lo then some (one lo ea false)
  else if bad hi then some (one hi (ea + 8) true)
  else if (lo = tCAPLO ∧ hi = tCAPHI) ∨ (data lo = true ∧ data hi = true) then none
  else if lo = tUNINIT ∨ lo = tCAPHI then some (one lo ea false)
  else some (one hi (ea + 8) true)

/-- A capability load at an aligned address: its value and distance class. -/
def loadCap (s : State) (E : Env) (a : Acc) : Did (Cap × Nat) :=
  match resolve s E a with
  | (.trap t, s) => .trap t s
  | (.wait w, s) => .wait w s
  | (.ok cs, s) =>
    match cs.head?.map Chunk.place with
    | some (.remote node) =>
      (match s.breakAt E.n 1 a.ea 16 with
       | some t => .trap t s
       | none => .remote node s)
    | some (.mem t pa) =>
      let m := s.ctxMem E.n E.k t
      let lo := m.tag pa
      let hi := m.tag (pa + 8)
      match capTagTrap lo hi a.capNo a.ea with
      | some t => .trap t s
      | none =>
        match s.breakAt E.n 1 a.ea 16 with
        | some t => .trap t s
        | none =>
          let s := s.beforeLoad E cs
          let m := s.ctxMem E.n E.k t
          .ok (⟨word (m.word pa), word (m.word (pa + 8)), decide (lo = tCAPLO)⟩, loadClass E cs) (s.farLoad E cs)
    | _ =>
      match s.breakAt E.n 1 a.ea 16 with
      | some t => .trap t s
      | none => .trap ⟨ecMC_BUS, capInfo a.capNo, a.ea, 0⟩ s

/-- LDC: a capability load into a capability register (R185). A mode that updates cb with cb as the destination is reserved
(R156). -/
def insLdc (h : Hdr) (t : Nat) (m : MemOp) : InsDef :=
  { word := encM 0x0F 0 (2 * t) m, wideOk := true, repOk := true,
    reserved := memReserved h m allModes || decide (t = 15) || (decide (2 ≤ m.am) && decide (m.cb = t)), vector := false,
    priv := false, routine := none,
    run := fun E s =>
      let o := memOperand s E h m 16
      let a : Acc := ⟨o.cap, m.cb, o.ea, 16, kLOAD, pm pLOAD + pm pLOADCAP, 0, 16, false, false, true⟩
      match loadCap s E a with
      | .trap t s => .trap t s
      | .wait w s => .hold (s.waitOn E w)
      | .remote node s => sendRemote s (remoteReq E pkLOAD node a (16 + 32) [] [] 3 t (o.wbOf m.cb))
      | .ok (v, d) s => .done (writeBack (wrC s E t v d) E m.cb o) false }

/-! ## Stores -/

/-- Defers a remote store of an ACTIVE transaction (R431, R432), or drops it in a DISCARDED one (R436); none when no
transaction is under way and the store is sent at once. -/
def deferRemote (s : State) (E : Env) (addr : Nat) (e : CbEntry) : Option (Did Unit) :=
  match (s.ctx E.n E.k).tx.state with
  | .none => none
  | .discarded => some (.ok () s)
  | .active =>
    if 256 < s.bufferUsed E.n + e.weight then some (.trap (trapOverflow s E.n addr true) s)
    else some (.ok () { s with cbuf := tset s.cbuf E.n (s.buffer E.n ++ [e]) })

/-- How a store instruction ends after its access. -/
def endStore (E : Env) (cb : Nat) (o : Operand) (r : RemoteReq) (deferred : Nat → CbEntry) : Did Unit → Res
  | .trap t s => .trap t s
  | .wait w s => .hold (s.waitOn E w)
  | .ok _ s => .done (writeBack s E cb o) false
  | .remote node s =>
    match deferRemote s E o.ea (deferred node) with
    | none => sendRemote s { r with node := node }
    | some (.trap t s) => .trap t s
    | some (.ok _ s) => .done (writeBack s E cb o) false
    | some _ => .done s false

/-- A data store of a size from a general register with a store type (R185, R186). -/
def insStore (h : Hdr) (major op size tag t : Nat) (m : MemOp) : InsDef :=
  { word := encM major op t m, wideOk := true, repOk := true, reserved := memReserved h m allModes, vector := false,
    priv := false, routine := none,
    run := fun E s =>
      let o := memOperand s E h m size
      let v := (rdG s E 0 t).toNat % 2 ^ (8 * size)
      let a : Acc := ⟨o.cap, m.cb, o.ea, size, kSTORE, pm pSTORE, 0, 0, false, true, true⟩
      let r := remoteReq E pkSTORE 0 a (size + (if tag = tFLT then 64 else 0)) ((toBytes v size).map (BitVec.ofNat 8)) [tag]
        0 0 (o.wbOf m.cb)
      endStore E m.cb o r (fun node => .rstore E.k node o.ea size v tag) (storeData s E a v tag) }

/-- The stored-capability rules that a store of c through an authority breaks (R45, R46), as bits of EINFO (R53). DESIGN CHOICE, unsafe: a
breach of R45 sets bit 18, the KEYADMIN storage rule, also for an unsealed capability without KEYADMIN; R53 has bit 16, the WORLD rule,
beside it and does not say which of the two R45 sets. -/
def storedRules (auth c : Cap) : Nat :=
  if !c.tag then 0
  else (if !auth.world && c.world && (!c.isSealed || c.has pKEYADMIN) then 2 ^ 18 else 0)
    + (if c.isLocal && !(auth.has pSTORELOCAL) then 2 ^ 17 else 0)

/-- The permissions a store of c needs (R186). -/
def storePerms (c : Cap) : Nat := pm pSTORE + (if c.tag then pm pSTORECAP else 0)

/-- The word writes of a capability store at a physical address (R59). -/
def capOps (pa : Nat) (c : Cap) : List WOp :=
  [⟨pa, 0xFF, c.cursor.toNat, .cap (if c.tag then tCAPLO else tINT)⟩,
   ⟨pa + 8, 0xFF, c.hi.toNat, .cap (if c.tag then tCAPHI else tINT)⟩]

/-- The old-tag check of a capability store on its two words (R59). -/
def capStoreTrap (lo hi capNo ea : Nat) : Option Trap :=
  if lo = tRETREC ∨ 7 ≤ lo then some ⟨ecTAG_FAULT, capInfo capNo + lo, ea, 0⟩
  else if hi = tRETREC ∨ 7 ≤ hi then some ⟨ecTAG_FAULT, capInfo capNo + hi + 256, ea + 8, 0⟩
  else none

/-- The rules that keep a capability on the device (R47, R507), for a store of c at an address that another node owns as far as this core
knows: EINFO[17]. DEDUCED: those of R507 are judged with those of R47, in step 3 of R52. -/
def leaveRule (s : State) (E : Env) (a : Acc) (c : Cap) : Nat :=
  if a.cap.has pDEVICE || a.cap.world || c.mayLeave then 0
  else match (plotOwner s E a.kind a.ea).1 with
    | .node _ => 2 ^ 17
    | _ => 0

/-- A capability store at an aligned address. -/
def storeCap (s : State) (E : Env) (a : Acc) (c : Cap) : Did Unit :=
  match resolve s E { a with rules := a.rules ||| leaveRule s E a c } with
  | (.trap t, s) => .trap t s
  | (.wait w, s) => .wait w s
  | (.ok cs, s) =>
    match cs.head? with
    | some ch =>
      match ch.place with
      | .remote node =>
        (match s.breakAt E.n 2 a.ea 16 with
         | some t => .trap t s
         | none => .remote node s)
      | .mem t pa =>
        let m := s.checkMem E.n E.k t
        match capStoreTrap (m.tag pa) (m.tag (pa + 8)) a.capNo a.ea with
        | some t => .trap t s
        | none =>
          match s.breakAt E.n 2 a.ea 16 with
          | some t => .trap t s
          | none =>
            let ps := [(⟨a.ea, t, ch.se, capOps pa c⟩ : Put)]
            match overflowTrap s E a.ea ps with
            | some t => .trap t s
            | none => .ok () ((s.perform E ps).sampleFar E (s.farStores E cs))
      | _ =>
        match s.breakAt E.n 2 a.ea 16 with
        | some t => .trap t s
        | none =>
          (match overflowTrap s E a.ea (unbackedPuts cs) with
           | some t => .trap t s
           | none => .ok () (s.lateStore E cs a.ea 16))
    | none => .ok () s

/-- STC: a capability store (R185, R186). -/
def insStc (h : Hdr) (t : Nat) (m : MemOp) : InsDef :=
  { word := encM 0x0F 1 (2 * t) m, wideOk := true, repOk := true, reserved := memReserved h m allModes, vector := false,
    priv := false, routine := none,
    run := fun E s =>
      let o := memOperand s E h m 16
      let c := rdC s E 0 t
      let a : Acc := ⟨o.cap, m.cb, o.ea, 16, kSTORE, storePerms c, storedRules o.cap c, 16, false, false, true⟩
      let tags := if c.tag then [tCAPLO, tCAPHI] else [tINT, tINT]
      let r := remoteReq E pkSTORE 0 a (16 + 32) (wordBytes [c.cursor.toNat, c.hi.toNat]) tags 0 0 (o.wbOf m.cb)
      endStore E m.cb o r (fun node => .rcap E.k node o.ea c) (storeCap s E a c) }

/-- LDB (R185): a load of 1 byte, sign-extended. -/
def insLdb (h : Hdr) (t : Nat) (m : MemOp) : InsDef := insLoad h 0x0C 0 1 true t m

/-- The command LDB: issue of the instruction. -/
def execLdb (h : Hdr) (t : Nat) (m : MemOp) (s : State) : Host.Outcome State Fault Refusal :=
  issue h (insLdb h t m) s

/-- LDH (R185): a load of 2 bytes, sign-extended. -/
def insLdh (h : Hdr) (t : Nat) (m : MemOp) : InsDef := insLoad h 0x0C 1 2 true t m

/-- The command LDH: issue of the instruction. -/
def execLdh (h : Hdr) (t : Nat) (m : MemOp) (s : State) : Host.Outcome State Fault Refusal :=
  issue h (insLdh h t m) s

/-- LDW (R185): a load of 4 bytes, sign-extended. -/
def insLdw (h : Hdr) (t : Nat) (m : MemOp) : InsDef := insLoad h 0x0C 2 4 true t m

/-- The command LDW: issue of the instruction. -/
def execLdw (h : Hdr) (t : Nat) (m : MemOp) (s : State) : Host.Outcome State Fault Refusal :=
  issue h (insLdw h t m) s

/-- LD (R185): a load of 8 bytes, sign-extended. -/
def insLd (h : Hdr) (t : Nat) (m : MemOp) : InsDef := insLoad h 0x0C 3 8 true t m

/-- The command LD: issue of the instruction. -/
def execLd (h : Hdr) (t : Nat) (m : MemOp) (s : State) : Host.Outcome State Fault Refusal :=
  issue h (insLd h t m) s

/-- LDBU (R185): a load of 1 byte, zero-extended. -/
def insLdbu (h : Hdr) (t : Nat) (m : MemOp) : InsDef := insLoad h 0x0C 4 1 false t m

/-- The command LDBU: issue of the instruction. -/
def execLdbu (h : Hdr) (t : Nat) (m : MemOp) (s : State) : Host.Outcome State Fault Refusal :=
  issue h (insLdbu h t m) s

/-- LDHU (R185): a load of 2 bytes, zero-extended. -/
def insLdhu (h : Hdr) (t : Nat) (m : MemOp) : InsDef := insLoad h 0x0C 5 2 false t m

/-- The command LDHU: issue of the instruction. -/
def execLdhu (h : Hdr) (t : Nat) (m : MemOp) (s : State) : Host.Outcome State Fault Refusal :=
  issue h (insLdhu h t m) s

/-- LDWU (R185): a load of 4 bytes, zero-extended. -/
def insLdwu (h : Hdr) (t : Nat) (m : MemOp) : InsDef := insLoad h 0x0C 6 4 false t m

/-- The command LDWU: issue of the instruction. -/
def execLdwu (h : Hdr) (t : Nat) (m : MemOp) (s : State) : Host.Outcome State Fault Refusal :=
  issue h (insLdwu h t m) s

/-- STB (R185): a store of 1 byte with tag INT. -/
def insStb (h : Hdr) (t : Nat) (m : MemOp) : InsDef := insStore h 0x0D 0 1 tINT t m

/-- The command STB: issue of the instruction. -/
def execStb (h : Hdr) (t : Nat) (m : MemOp) (s : State) : Host.Outcome State Fault Refusal :=
  issue h (insStb h t m) s

/-- STH (R185): a store of 2 bytes with tag INT. -/
def insSth (h : Hdr) (t : Nat) (m : MemOp) : InsDef := insStore h 0x0D 1 2 tINT t m

/-- The command STH: issue of the instruction. -/
def execSth (h : Hdr) (t : Nat) (m : MemOp) (s : State) : Host.Outcome State Fault Refusal :=
  issue h (insSth h t m) s

/-- STW (R185): a store of 4 bytes with tag INT. -/
def insStw (h : Hdr) (t : Nat) (m : MemOp) : InsDef := insStore h 0x0D 2 4 tINT t m

/-- The command STW: issue of the instruction. -/
def execStw (h : Hdr) (t : Nat) (m : MemOp) (s : State) : Host.Outcome State Fault Refusal :=
  issue h (insStw h t m) s

/-- ST (R185): a store of 8 bytes with tag INT. -/
def insSt (h : Hdr) (t : Nat) (m : MemOp) : InsDef := insStore h 0x0D 3 8 tINT t m

/-- The command ST: issue of the instruction. -/
def execSt (h : Hdr) (t : Nat) (m : MemOp) (s : State) : Host.Outcome State Fault Refusal :=
  issue h (insSt h t m) s

/-- LDF32 (R185): a load of 4 bytes; bits 63:32 are zeroed. -/
def insLdf32 (h : Hdr) (t : Nat) (m : MemOp) : InsDef := insLoad h 0x0E 0 4 false t m

/-- The command LDF32: issue of the instruction. -/
def execLdf32 (h : Hdr) (t : Nat) (m : MemOp) (s : State) : Host.Outcome State Fault Refusal :=
  issue h (insLdf32 h t m) s

/-- LDF64 (R185): a load of 8 bytes. -/
def insLdf64 (h : Hdr) (t : Nat) (m : MemOp) : InsDef := insLoad h 0x0E 1 8 false t m

/-- The command LDF64: issue of the instruction. -/
def execLdf64 (h : Hdr) (t : Nat) (m : MemOp) (s : State) : Host.Outcome State Fault Refusal :=
  issue h (insLdf64 h t m) s

/-- STF32 (R185): a store of 4 bytes with tag FLT. -/
def insStf32 (h : Hdr) (t : Nat) (m : MemOp) : InsDef := insStore h 0x0E 2 4 tFLT t m

/-- The command STF32: issue of the instruction. -/
def execStf32 (h : Hdr) (t : Nat) (m : MemOp) (s : State) : Host.Outcome State Fault Refusal :=
  issue h (insStf32 h t m) s

/-- STF64 (R185): a store of 8 bytes with tag FLT. -/
def insStf64 (h : Hdr) (t : Nat) (m : MemOp) : InsDef := insStore h 0x0E 3 8 tFLT t m

/-- The command STF64: issue of the instruction. -/
def execStf64 (h : Hdr) (t : Nat) (m : MemOp) (s : State) : Host.Outcome State Fault Refusal :=
  issue h (insStf64 h t m) s

/-- The command LDC: issue of the instruction. -/
def execLdc (h : Hdr) (t : Nat) (m : MemOp) (s : State) : Host.Outcome State Fault Refusal :=
  issue h (insLdc h t m) s

/-- The command STC: issue of the instruction. -/
def execStc (h : Hdr) (t : Nat) (m : MemOp) (s : State) : Host.Outcome State Fault Refusal :=
  issue h (insStc h t m) s

end Sys2Proof.Machine
end

