-- ==== Sys2Proof/Machine/Tags.lean ====
section
/-! DEFINITION. Reservations and conditional stores (group 0x10), and the tag instructions (group 0x11) with the progress
record of resumable routines ("Scalar instruction reference", R191-R198; "Micro-routines and the control store",
R311-R315). -/

namespace Sys2Proof.Machine

open Sys2Proof

/-! ## Progress of resumable routines -/

/-- Where a routine starts: from PROG when MPROG names it at this address, otherwise from its beginning (R314). While EXL is set it starts
from its beginning, or goes on after a wait inside it from the progress that the sequencer keeps (R315). -/
def resumePoint (s : State) (E : Env) (routine : Nat) : Nat :=
  let m := if stEXL (seeStatus s E) then ((s.ctx E.n E.k).progress).getD 0 else seeSr s E nMPROG
  if fld m 63 56 = routine ∧ fld m 47 32 = bits E.pc 17 2 then fld m 31 0 else 0

/-- The hardware writes a state register of the context: complete for the next instruction (R74, R117). -/
def State.hwSr (s : State) (E : Env) (num : Nat) (v : Word) : State :=
  let x := s.ctx E.n E.k
  s.setCtx E.n E.k
    { x.setSr num v with flights := pushFlight x.flights (.sr num) (.w (x.srv num)) (.w v) 0 (s.core E.n).pace.last }

/-- Records progress in MPROG (R311, R313), or inside the sequencer while EXL is set (R315). -/
def State.progress (s : State) (E : Env) (routine prog : Nat) : State :=
  if stEXL (s.ctx E.n E.k).status then
    s.setCtx E.n E.k { s.ctx E.n E.k with progress := some (mprogWord routine E.pc 0 prog) }
  else s.hwSr E nMPROG (mprogWord routine E.pc 0 prog)

/-- A routine that completes sets MPROG to zero (R314), unless EXL is set (R315). -/
def State.progressEnd (s : State) (E : Env) : State :=
  if stEXL (s.ctx E.n E.k).status then s else s.hwSr E nMPROG 0

/-- An interrupt or an MA cause is acceptable to context k of core n now (condition 4 of R319; R246, R256). -/
def State.acceptable (s : State) (n k : Nat) : Bool :=
  let c := s.core n
  let st := s.seenStatus n k
  let free := !(stEXL st) && stGM st && !(stEXL (c.ctx (other k)).status)
  let ma := free && c.ma.any (fun m => decide (m.ctx = k))
  let t := 2 * n + k
  let irq := free && stIE st && (match s.bestPending t with
    | none => false
    | some i => decide (Nat.max (s.runpri t) (s.rf (.intcTgt t) intcTgt_THRESH) < s.srcLevelOf i))
  ma || irq

/-- How many interruption points a resumable routine passes before it stops for an acceptable interrupt or MA cause: when
one is acceptable, the moment it arrived is not fixed here and a free value gives it; otherwise it never stops. -/
def State.patience (s : State) (E : Env) : Option Nat × State :=
  if s.acceptable E.n E.k then
    let (v, s) := s.draw
    (some v, s)
  else (none, s)

/-- The routine stops at an interruption point and stays at its address. -/
def stopHere (s : State) : Res := .hold { s with free := s.free + 1 }

/-- Patience spent. -/
def spent (p : Option Nat) : Bool := p == some 0
/-- One interruption point passed. -/
def passOne (p : Option Nat) : Option Nat := p.map (fun v => v - 1)

/-! ## Reservations -/

/-- LDRES and LDRESC set the reservation of the context on success (R192). -/
def State.reserve (s : State) (E : Env) (ea size : Nat) (isCap : Bool) (t : Tgt) (pa : Nat) : State :=
  let x := s.ctx E.n E.k
  s.setCtx E.n E.k { x with resv := some ⟨ea, size, isCap, t, lineOf pa⟩ }

/-- The reservation of the context ends. -/
def State.unreserve (s : State) (n k : Nat) : State := s.setCtx n k { s.ctx n k with resv := none }

/-- Where an aligned access of an atomic lies. -/
def atomPlace (s : State) (E : Env) (a : Acc) : Option (Tgt × Nat) :=
  match (resolve s E a).1 with
  | .ok (⟨_, _, .mem t pa, _⟩ :: _) => some (t, pa)
  | _ => none

/-- LDRES (R191, R192): an aligned 8-byte load that sets the reservation. -/
def insLdres (t cb : Nat) : InsDef :=
  { word := encM 0x10 0 t ⟨cb, 0, 0⟩, wideOk := false, repOk := false, reserved := false, vector := false, priv := false,
    routine := none,
    run := fun E s =>
      let c := rdC s E 8 cb
      let a : Acc := ⟨c, cb, c.cur, 8, kLOAD, pm pLOAD, 0, 8, true, false, false⟩
      let p := atomPlace s E a
      match loadData s E a with
      | .trap t s => .trap t s
      | .wait w s => .hold (s.waitOn E w)
      | .remote _ s => .trap (trapPerm cb (2 ^ 20) c.cur) s
      | .ok (v, d) s =>
        let s := match p with
          | some (tg, pa) => s.reserve E c.cur 8 false tg pa
          | none => s
        .done (wrG s E t (word v) d) false }

/-- The command LDRES: issue of the instruction. -/
def execLdres (h : Hdr) (t cb : Nat) (s : State) : Host.Outcome State Fault Refusal := issue h (insLdres t cb) s

/-- LDRESC (R191, R192): a capability load that sets the reservation. -/
def insLdresc (t cb : Nat) : InsDef :=
  { word := encM 0x10 2 (2 * t) ⟨cb, 0, 0⟩, wideOk := false, repOk := false, reserved := decide (t = 15), vector := false,
    priv := false, routine := none,
    run := fun E s =>
      let c := rdC s E 8 cb
      let a : Acc := ⟨c, cb, c.cur, 16, kLOAD, pm pLOAD + pm pLOADCAP, 0, 16, true, false, false⟩
      let p := atomPlace s E a
      match loadCap s E a with
      | .trap t s => .trap t s
      | .wait w s => .hold (s.waitOn E w)
      | .remote _ s => .trap (trapPerm cb (2 ^ 20) c.cur) s
      | .ok (v, d) s =>
        let s := match p with
          | some (tg, pa) => s.reserve E c.cur 16 true tg pa
          | none => s
        .done (wrC s E t v d) false }

/-- The command LDRESC: issue of the instruction. -/
def execLdresc (h : Hdr) (t cb : Nat) (s : State) : Host.Outcome State Fault Refusal := issue h (insLdresc t cb) s

/-- reservation_covers of R193. -/
def Ctx.covers (x : Ctx) (ea size : Nat) (isCap : Bool) : Bool :=
  match x.resv with
  | some r => decide (r.ea = ea) && decide (r.size = size) && (r.isCap == isCap)
  | none => false

/-- stcond of R193 once the access has been resolved to words: the old-tag checks, the drain, the store when the reservation
covers it, the end of the reservation, and the predicate. In a handler transaction the line is noted for R195. -/
def stcondAt (s : State) (E : Env) (a : Acc) (isCap : Bool) (pd : Nat) (ch : Chunk) (ops : List WOp)
    (tags : Option Trap) : Res :=
  match tags with
  | some t => .trap t s
  | none =>
    match s.breakAt E.n 2 a.ea a.size with
    | some t => .trap t s
    | none =>
      let ok := (s.ctx E.n E.k).covers a.ea a.size isCap
      let finish := fun (s : State) => Res.done (wrP (s.unreserve E.n E.k) E pd ok 0) false
      let s := (s.drain E.n).maDue E.n E.k
      match ch.place with
      | .mem t pa =>
        let ps := [(⟨a.ea, t, ch.se, ops⟩ : Put)]
        if ok then
          match overflowTrap s E a.ea ps with
          | some t => .trap t s
          | none =>
            let held := s.fate E a.ea t ch.se pa = .held
            let s := (s.perform E ps).drain E.n
            let x := s.ctx E.n E.k
            let s := if held then s.setCtx E.n E.k { x with tx := { x.tx with lines := x.tx.lines ++ [(t, lineOf pa)] } }
                     else s
            finish s
        else finish s
      | _ =>
        if ok then
          match overflowTrap s E a.ea (unbackedPuts [ch]) with
          | some t => .trap t s
          | none => finish (s.lateStore E [ch] a.ea a.size)
        else finish s

/-- STCOND (R191, R193). -/
def insStcond (t cb pd : Nat) : InsDef :=
  { word := encM 0x10 1 t ⟨cb, 0, 32 * pd⟩, wideOk := false, repOk := false, reserved := false, vector := false,
    priv := false, routine := none,
    run := fun E s =>
      let c := rdC s E 8 cb
      let v := (rdG s E 0 t).toNat
      let a : Acc := ⟨c, cb, c.cur, 8, kSTORE, pm pSTORE, 0, 8, true, false, false⟩
      match resolve s E a with
      | (.trap t, s) => .trap t s
      | (.wait w, s) => .hold (s.waitOn E w)
      | (.ok cs, s) =>
        match cs.head? with
        | none => .done s false
        | some ch => stcondAt s E a false pd ch (ch.dataOps a.ea v tINT) (storeTags s E cb a.ea v tINT [ch]) }

/-- The command STCOND: issue of the instruction. -/
def execStcond (h : Hdr) (t cb pd : Nat) (s : State) : Host.Outcome State Fault Refusal := issue h (insStcond t cb pd) s

/-- STCONDC (R191, R193). -/
def insStcondc (t cb pd : Nat) : InsDef :=
  { word := encM 0x10 3 (2 * t) ⟨cb, 0, 32 * pd⟩, wideOk := false, repOk := false, reserved := false, vector := false,
    priv := false, routine := none,
    run := fun E s =>
      let c := rdC s E 8 cb
      let v := rdC s E 0 t
      let a : Acc := ⟨c, cb, c.cur, 16, kSTORE, storePerms v, storedRules c v, 16, true, false, false⟩
      match resolve s E a with
      | (.trap t, s) => .trap t s
      | (.wait w, s) => .hold (s.waitOn E w)
      | (.ok cs, s) =>
        match cs.head? with
        | none => .done s false
        | some ch =>
          let (ops, tags) := match ch.place with
            | .mem t pa =>
              let m := s.checkMem E.n E.k t
              (capOps pa v, capStoreTrap (m.tag pa) (m.tag (pa + 8)) cb a.ea)
            | _ => ([], none)
          stcondAt s E a true pd ch ops tags }

/-- The command STCONDC: issue of the instruction. -/
def execStcondc (h : Hdr) (t cb pd : Nat) (s : State) : Host.Outcome State Fault Refusal := issue h (insStcondc t cb pd) s

/-! ## GETTAG -/

/-- GETTAG (R57, R197): the tag of the aligned word at the effective address. -/
def insGettag (h : Hdr) (t : Nat) (m : MemOp) : InsDef :=
  { word := encM 0x11 0 t m, wideOk := true, repOk := true, reserved := memReserved h m [0, 1], vector := false, priv := false,
    routine := none,
    run := fun E s =>
      let o := memOperand s E h m 8
      let a : Acc := ⟨o.cap, m.cb, o.ea, 8, kLOAD, pm pLOAD, 0, 8, false, false, true⟩
      match resolve s E a with
      | (.trap t, s) => .trap t s
      | (.wait w, s) => .hold (s.waitOn E w)
      | (.ok cs, s) =>
        match cs.head?.map Chunk.place with
        | some (.remote node) =>
          (match s.breakAt E.n 1 o.ea 8 with
           | some t => .trap t s
           | none => sendRemote s (remoteReq E pkLOAD node a (8 + 64) [] [] 1 t none))
        | some (.mem tg pa) =>
          let tag := (s.ctxMem E.n E.k tg).tag pa
          if 7 ≤ tag then .trap ⟨ecTAG_FAULT, capInfo m.cb + tag, o.ea, 0⟩ s
          else
            match s.breakAt E.n 1 o.ea 8 with
            | some t => .trap t s
            | none =>
              let s := s.beforeLoad E cs
              .done (wrG (s.noteFar E cs) E t (word tag) (loadClass E cs)) false
        | _ =>
          match s.breakAt E.n 1 o.ea 8 with
          | some t => .trap t s
          | none => .trap ⟨ecMC_BUS, capInfo m.cb, o.ea, 0⟩ s }

/-- The command GETTAG: issue of the instruction. -/
def execGettag (h : Hdr) (t : Nat) (m : MemOp) (s : State) : Host.Outcome State Fault Refusal := issue h (insGettag h t m) s

/-! ## CLEARTAG and CLEARTAGP -/

/-- The lines of a range that writes of the context would newly hold in the commit buffer (R65, R432); fuel bounds the lines. -/
def rangeLines (s : State) (E : Env) (a : Acc) (va stop : Nat) : Nat → List (Tgt × Nat)
  | 0 => []
  | fuel + 1 =>
    if stop ≤ va then []
    else
      let len := Nat.min (va / 64 * 64 + 64) stop - va
      let here := match (chunkAt s E a va len).1 with
        | .ok [⟨_, _, .mem t pa, se⟩] => if s.fate E va t se pa = .held then [(t, lineOf pa)] else []
        | _ => []
      here ++ rangeLines s E a (va + len) stop fuel

/-- The old-tag check of the CLEARTAG row of R59 on one word: sys tells SYS on the capability at supervisor level. -/
def clearTagTrap (tag capNo addr : Nat) (sys second : Bool) : Option Trap :=
  if 7 ≤ tag ∨ (tag = tRETREC ∧ sys = false) then some ⟨ecTAG_FAULT, capInfo capNo + tag + 256 * b2n second, addr, 0⟩ else none

/-- The granules of CLEARTAG from done on (R313): each ends at a line boundary or at the end of the range; a granule that
faults is wholly undone, and the progress before it is recorded (R311). -/
def clearLoop (E : Env) (a : Acc) (routine fill ea count : Nat) (sys : Bool) : Nat → Option Nat → Nat → State → Res
  | 0, _, _, s => .done s false
  | fuel + 1, patience, done, s =>
    if count ≤ done then .done (s.progressEnd E) false
    else
      let va := ea + done
      let len := Nat.min (va / 64 * 64 + 64) (ea + count) - va
      match chunkAt s E a va len with
      | (.trap t, s) => .trap t s
      | (.wait w, s) => .hold (s.waitOn E w)
      | (.ok cs, s) =>
        let next := fun (s : State) =>
          if count ≤ done + len then Res.done (s.progressEnd E) false
          else
            let s := s.progress E routine (done + len)
            if spent patience then stopHere s
            else clearLoop E a routine fill ea count sys fuel (passOne patience) (done + len) s
        match cs.head? with
        | some ⟨_, _, .mem t pa, se⟩ =>
          let ws := wordsOf pa len
          let m := s.checkMem E.n E.k t
          match ws.findSome? (fun w => clearTagTrap (m.tag w) a.capNo (va + (w - pa)) sys
            (decide ((va + (w - pa)) / 8 = ea / 8 + 1))) with
          | some t => .trap t s
          | none =>
            match s.breakAt E.n 2 va len with
            | some t => .trap t s
            | none =>
              next ((s.perform E [(⟨va, t, se, ws.map (fun w => ⟨w, 0xFF, 0, .raw fill⟩)⟩ : Put)]).sampleFar E (s.farStores E cs))
        | _ => next (s.lateStore E cs va len)

/-- CLEARTAG and CLEARTAGP (R63, R65, R197): steps 1 to 5 of R52 for the part not yet done, the level the POISON fill needs,
the judgement of the commit buffer over the range, then the granules. -/
def clearRun (routine fill t cb : Nat) (E : Env) (s : State) : Res :=
  let c := rdC s E 8 cb
  let count := (rdG s E 0 t).toNat
  let done := resumePoint s E routine
  let poison := decide (fill = tPOISON)
  if count ≠ 0 ∧ count ≤ done ∧ done ≠ 0 then .done (s.progressEnd E) false
  else
    let ea := c.cur
    let a : Acc := ⟨c, cb, ea + done, count - done, kSTORE, pm pSTORE + (if poison then pm pSYS else 0), 0, 8, false, false, false⟩
    match capCheck s E a with
    | some t => .trap t s
    | none =>
      if poison && !(seeSup s E) then .trap trapPRIV s
      else if ea % 8 ≠ 0 ∨ count % 8 ≠ 0 then .trap ⟨ecALIGN, capInfo cb, ea, 0⟩ s
      else if count = 0 then .done (s.progressEnd E) false
      else
        match boundsCheck c cb (ea + done) (count - done) with
        | some t => .trap t s
        | none =>
          let need := s.cbNeed E.n E.k (rangeLines s E a (ea + done) (ea + count) (count / 64 + 2))
          if (s.ctx E.n E.k).tx.state = .active ∧ 256 < s.bufferUsed E.n + need then
            .trap (trapOverflow s E.n (ea + done) false) s
          else
            let sys := c.has pSYS && seeSup s E
            let (p, s) := s.patience E
            clearLoop E a routine fill ea count sys (count / 64 + 3) p done s

/-- CLEARTAG (R63, R197). -/
def insCleartag (t cb : Nat) : InsDef :=
  { word := encM 0x11 1 t ⟨cb, 0, 0⟩, wideOk := false, repOk := false, reserved := false, vector := false, priv := false,
    routine := some rtCLEARTAG, run := clearRun rtCLEARTAG tUNINIT t cb }

/-- The command CLEARTAG: issue of the instruction. -/
def execCleartag (h : Hdr) (t cb : Nat) (s : State) : Host.Outcome State Fault Refusal := issue h (insCleartag t cb) s

/-- CLEARTAGP (R63, R197). -/
def insCleartagp (t cb : Nat) : InsDef :=
  { word := encM 0x11 2 t ⟨cb, 0, 0⟩, wideOk := false, repOk := false, reserved := false, vector := false, priv := false,
    routine := some rtCLEARTAGP, run := clearRun rtCLEARTAGP tPOISON t cb }

/-- The command CLEARTAGP: issue of the instruction. -/
def execCleartagp (h : Hdr) (t cb : Nat) (s : State) : Host.Outcome State Fault Refusal := issue h (insCleartagp t cb) s

/-! ## CPYT -/

/-- One resolved word place of CPYT. -/
def cpytPlace (s : State) (E : Env) (a : Acc) : Resolved × State := chunkAt s E a a.ea 8

/-- The words an element of CPYT copies (R64, R198), from the source word and its partner: a pair within the range whole, a
half without its partner in the range as a cleared word, any other word as it is. -/
def cpytWords (m : Mem) (pa count : Nat) : List (Nat × Nat) :=
  let t := m.tag pa
  if t = tCAPLO ∧ pa % 16 = 0 ∧ m.tag (pa + 8) = tCAPHI ∧ 2 ≤ count then [(m.word pa, t), (m.word (pa + 8), tCAPHI)]
  else if t = tCAPLO ∨ t = tCAPHI ∨ t = tUNINIT then [(0, tUNINIT)]
  else [(m.word pa, t)]

/-- How much of RPT.COUNT the element at hand takes (R198). -/
def cpytTook (cs : Nat) (E : Env) (s : State) : Nat :=
  let c := rdC s E 0 cs
  let a : Acc := ⟨c, cs, c.cur, 8, kLOAD, pm pLOAD, 0, 0, false, false, false⟩
  match (cpytPlace s E a).1 with
  | .ok [⟨_, _, .mem t pa, _⟩] => (cpytWords (s.ctxMem E.n E.k t) pa (fld (seeSr s E nRPT) 31 0)).length
  | _ => 1

/-- The old-tag check of the CPYT row of R59: RETREC and the reserved values fault. -/
def cpytDstTrap (tag capNo addr : Nat) (second : Bool) : Option Trap :=
  if tag = tRETREC ∨ 7 ≤ tag then some ⟨ecTAG_FAULT, capInfo capNo + tag + 256 * b2n second, addr, 0⟩ else none

/-- One element of CPYT (R64, R65, R198): the checks over what remains of both ranges, then one word or one pair. -/
def cpytRun (cs cb : Nat) (E : Env) (s : State) : Res :=
  let src := rdC s E 0 cs
  let dst := rdC s E 8 cb
  let count := fld (seeSr s E nRPT) 31 0
  let a : Acc := ⟨src, cs, src.cur, 8 * count, kLOAD, pm pLOAD, 0, 0, false, false, false⟩
  let b : Acc := ⟨dst, cb, dst.cur, 8 * count, kSTORE, pm pSTORE, 0, 0, false, false, false⟩
  match capCheck s E a with
  | some t => .trap t s
  | none =>
    match capCheck s E b with
    | some t => .trap t s
    | none =>
      if src.cur % 8 ≠ 0 then .trap ⟨ecALIGN, capInfo cs, src.cur, 0⟩ s
      else if dst.cur % 8 ≠ 0 ∨ src.cur % 16 ≠ dst.cur % 16 then .trap ⟨ecALIGN, capInfo cb, dst.cur, 0⟩ s
      else
        match (boundsCheck src cs src.cur (8 * count)).orElse (fun _ => boundsCheck dst cb dst.cur (8 * count)) with
        | some t => .trap t s
        | none =>
          match cpytPlace s E { a with size := 8 } with
          | (.trap t, s) => .trap t s
          | (.wait w, s) => .hold (s.waitOn E w)
          | (.ok scs, s) =>
            match cpytPlace s E { b with size := 8 } with
            | (.trap t, s) => .trap t s
            | (.wait w, s) => .hold (s.waitOn E w)
            | (.ok dcs, s) =>
              match scs.head?, dcs.head? with
              | some ⟨_, _, .mem t pa, _⟩, some d =>
                let m := s.ctxMem E.n E.k t
                let tag := m.tag pa
                if tag = tPOISON then .trap ⟨ecMC_POISON, capInfo cs, src.cur, 0⟩ s
                else if tag = tRETREC ∨ 7 ≤ tag then .trap ⟨ecTAG_FAULT, capInfo cs + tag, src.cur, 0⟩ s
                else
                  let ws := cpytWords m pa count
                  let isPair := decide (ws.length = 2)
                  let v : Cap := ⟨word (m.word pa), word (m.word (pa + 8)), true⟩
                  let lack := if isPair && !(src.has pLOADCAP) then some (trapPerm cs (pm pLOADCAP) src.cur) else none
                  let found := dst.missing (storePerms v) + storedRules dst v
                  let lack := lack.orElse (fun _ => if isPair && decide (found ≠ 0) then some (trapPerm cb found dst.cur) else none)
                  match lack with
                  | some t => .trap t s
                  | none =>
                    let k := ws.length
                    let move := fun (s : State) =>
                      let s := s.progress E rtCPYT (resumePoint s E rtCPYT + k)
                      let s := if count ≤ k then s.progressEnd E else s
                      let s := wrC s E cs (src.setCursor ((src.cur + 8 * k) % 2 ^ 64)) 0
                      Res.done (wrC s E cb (dst.setCursor ((dst.cur + 8 * k) % 2 ^ 64)) 0) false
                    let stop := (s.breakAt E.n 1 src.cur (8 * k)).orElse (fun _ => s.breakAt E.n 2 dst.cur (8 * k))
                    match d.place with
                    | .mem dt dpa =>
                      let dm := s.checkMem E.n E.k dt
                      let ops : List WOp := ((List.range k).zip ws).map (fun e => ⟨dpa + 8 * e.1, 0xFF, e.2.1, .raw e.2.2⟩)
                      let tags := (List.range k).findSome? (fun i =>
                        cpytDstTrap (dm.tag (dpa + 8 * i)) cb (dst.cur + 8 * i) (decide (i = 1)))
                      (match tags.orElse (fun _ => stop) with
                       | some t => .trap t s
                       | none =>
                         let need := s.cbNeed E.n E.k (rangeLines s E b dst.cur (dst.cur + 8 * count) (count / 8 + 2))
                         if (s.ctx E.n E.k).tx.state = .active ∧ 256 < s.bufferUsed E.n + need then
                           .trap (trapOverflow s E.n dst.cur false) s
                         else
                           move (((s.noteFar E scs).perform E [(⟨dst.cur, dt, d.se, ops⟩ : Put)]).sampleFar E (s.farStores E dcs)))
                    | _ =>
                      match stop with
                      | some t => .trap t s
                      | none => move (s.lateStore E dcs dst.cur (8 * k))
              | _, _ => .trap ⟨ecMC_BUS, capInfo cs, src.cur, 0⟩ s

/-- CPYT (R64, R197, R198): one element. -/
def insCpyt (cs cb : Nat) : InsDef :=
  { word := encM 0x11 3 (2 * cs) ⟨cb, 2, 0⟩, wideOk := false, repOk := true, reserved := decide (cb = 15) || decide (cs = 15),
    vector := false, priv := false, routine := some rtCPYT, run := cpytRun cs cb }

/-- The command CPYT: one element under its REP prefix; without a REP prefix the encoding is reserved (R197). -/
def execCpyt (h : Hdr) (rep : Bool) (cs cb : Nat) (s : State) : Host.Outcome State Fault Refusal :=
  if rep then issueRep h (insCpyt cs cb) (cpytTook cs) s
  else issue h { insCpyt cs cb with reserved := true } s

end Sys2Proof.Machine
end

