-- ==== Sys2Proof/Machine/Control.lean ====
section
/-! DEFINITION. Control transfers, the return stack, hardware loops, gates and levels ("Scalar instruction reference",
R199-R201; "Worlds, privilege and gates", R74-R86; "Registers, windows and contexts", R111-R113; "Instruction encoding,
addressing and distances", R157-R162). -/

namespace Sys2Proof.Machine

open Sys2Proof

/-! ## Hardware writes of registers (R74: visible to the next instruction) -/

/-- Forgets the writes in flight to the locations that p names: the hardware has written them since. -/
def Ctx.landed (x : Ctx) (p : Loc → Bool) : Ctx := { x with flights := x.flights.filter (fun f => !(p f.loc)) }

/-- The hardware writes a capability state register. -/
def State.hwCsr (s : State) (E : Env) (num : Nat) (c : Cap) : State :=
  let x := s.ctx E.n E.k
  s.setCtx E.n E.k ((x.setCsr num c).landed (fun l => decide (l = .csr num)))

/-- The hardware writes a capability register. -/
def State.hwCap (s : State) (E : Env) (c : Nat) (v : Cap) : State :=
  let x := s.ctx E.n E.k
  s.setCtx E.n E.k ((x.setCap c v).landed (fun l => decide (l = .c c)))

/-- Moves the program counter of the context by a signed number of bytes from the address of the instruction (R157, R37). -/
def State.jumpBy (s : State) (E : Env) (bytes : Int) : State := s.setPc E.n E.k (wrap ((E.pc : Int) + bytes)).toNat

/-! ## Branches and jumps -/

/-- A control-transfer instruction. -/
def insXfer (word : Nat) (reserved : Bool) (routine : Option Nat) (run : Env → State → Res) : InsDef :=
  { word := word, wideOk := false, repOk := false, reserved := reserved, vector := false, priv := false, routine := routine,
    run := run }

/-- offset22 of form B in bytes (R157). -/
def offset22 (off : Nat) : Int := 4 * signExtend off 22

/-- BR (R199). -/
def insBr (off : Nat) : InsDef := insXfer (encB 0x16 off) false none (fun E s => .done (s.jumpBy E (offset22 off)) true)

/-- The command BR: issue of the instruction. -/
def execBr (h : Hdr) (off : Nat) (s : State) : Host.Outcome State Fault Refusal := issue h (insBr off) s

/-- Steps 1 to 4 of R200 for a transfer through a capability. -/
def targetTrap (s : State) (E : Env) (c : Cap) (ca : Nat) : Option Trap :=
  let found := c.missing (pm pEXEC) + (if !((s.ctx E.n E.k).world) && c.world then 2 ^ 16 else 0)
  if !c.valid then some (trapInvalid c ca)
  else if c.isSealed then some (trapSealed c ca)
  else if found ≠ 0 then some (trapPerm ca found c.cur)
  else if c.cur % 4 ≠ 0 then some ⟨ecALIGN, capInfo ca, c.cur, 0⟩
  else none

/-- JMP (R199, R200). -/
def insJmp (ca : Nat) : InsDef :=
  insXfer (encC 0x18 0 0 ca 0) false none (fun E s =>
    let c := rdC s E 0 ca
    match targetTrap s E c ca with
    | some t => .trap t s
    | none => .done (s.setPcc E.n E.k c) true)

/-- The command JMP: issue of the instruction. -/
def execJmp (h : Hdr) (ca : Nat) (s : State) : Host.Outcome State Fault Refusal := issue h (insJmp ca) s

/-- JMPX (R199, R200). -/
def insJmpx (src : Nat) : InsDef :=
  insXfer (encC 0x18 3 0 0 src) false none (fun E s =>
    let t := (wrap ((E.pc : Int) + 4 * signed (rdG s E 0 src))).toNat
    if t % 4 ≠ 0 then .trap ⟨ecALIGN, capInfo 0xF, t, 0⟩ s
    else .done (s.setPc E.n E.k t) true)

/-- The command JMPX: issue of the instruction. -/
def execJmpx (h : Hdr) (src : Nat) (s : State) : Host.Outcome State Fault Refusal := issue h (insJmpx src) s

/-! ## The return stack -/

/-- RSTACK with a reason and the word concerned (R80). -/
def trapRstack (reason addr : Nat) : Trap := ⟨ecRSTACK, reason, addr % 2 ^ 64, 0⟩

/-- Reason 0 of R80: RSTK untagged, invalid, sealed, or lacking LOAD or STORE. -/
def rstkBad (r : Cap) : Bool := !r.valid || r.isSealed || !(r.has pLOAD) || !(r.has pSTORE)

/-- The word places of resolved chunks, in ascending order: memory, or none where nothing is backed. -/
def wordPlaces (cs : List Chunk) : List (Option (Tgt × Nat)) :=
  cs.flatMap (fun c => match c.place with
    | .mem t pa => (wordsOf pa c.len).map (fun w => some (t, w))
    | _ => List.replicate (c.len / 8) none)

/-- An access of a micro-routine to words through a capability (R339: reads of kind 0, writes of kind 1): never of a plain
data access, never sent to another node. -/
def routineAcc (c : Cap) (capNo ea size kind perms : Nat) : Acc := ⟨c, capNo, ea, size, kind, perms, 0, 0, false, false, false⟩

/-- The words with their tags at resolved places, of the memory that view gives for each target; a place that is not backed
raises MC_BUS. -/
def placeWords (view : Tgt → Mem) (capNo ea : Nat) (cs : List Chunk) : Except Trap (List (Nat × Nat)) :=
  (wordPlaces cs).foldr (fun p acc => match p with
    | none => .error ⟨ecMC_BUS, capInfo capNo, ea, 0⟩
    | some (t, a) => match acc with
      | .error e => .error e
      | .ok l => .ok (((view t).word a, (view t).tag a) :: l)) (.ok [])

/-- Words as the context reads them past its commit buffer, which never holds records, save areas or vector areas (R83, R133,
R135). -/
def rawWords (s : State) (E : Env) (capNo ea : Nat) (cs : List Chunk) : Except Trap (List (Nat × Nat)) :=
  placeWords (s.viewMem E.n E.k) capNo ea cs

/-- Words as the context sees them, its commit buffer merged over memory (R187, R433). -/
def ctxWords (s : State) (E : Env) (capNo ea : Nat) (cs : List Chunk) : Except Trap (List (Nat × Nat)) :=
  placeWords (s.ctxMem E.n E.k) capNo ea cs

/-- Writes words with their tags past the commit buffer (R83, R133, R135): each place that is backed through the store
buffer, and one late bus error when a place is not. -/
def writeRaw (s : State) (E : Env) (ea : Nat) (cs : List Chunk) (ws : List (Nat × Nat)) : State :=
  let ps := (wordPlaces cs).zip ws
  let s := ps.foldl (fun (s : State) e => match e.1 with
    | some (t, a) => s.enqueue E.n E.k t (groupByLine [(⟨a, 0xFF, e.2.1, .raw e.2.2⟩ : WOp)])
    | none => s) s
  if ps.any (fun e => e.1.isNone) then s.lateBus E ea 8 false else s

/-- What a push needs once its checks have passed: the RSTK capability, the record's address, and its places. -/
structure PushAt where
  rstk : Cap
  addr : Nat
  cs   : List Chunk
  deriving DecidableEq, Repr

/-- How a check of the return stack ends. -/
inductive StackDid (α : Type) where
  | ok (a : α) (s : State)
  | trap (t : Trap) (s : State)
  | wait (w : WaitFor) (s : State)

/-- The push checks of R80 for a record of a size, then the access checks of its words. DEDUCED: of reason 0, where no record is reached,
the word concerned is the one that the cursor of RSTK names. -/
def pushCheck (s : State) (E : Env) (size : Nat) : StackDid PushAt :=
  let r := seeCsr s E nRSTK
  let new := (wrap ((r.cur : Int) - size)).toNat
  if rstkBad r then .trap (trapRstack 0 r.cur) s
  else if r.cur % 16 ≠ 0 ∨ r.cur < r.base + size ∨ r.top < r.cur then .trap (trapRstack 1 new) s
  else
    match resolve s E (routineAcc r 0 new size kSTORE (pm pSTORE)) with
    | (.trap t, s) => .trap t s
    | (.wait w, s) => .wait w s
    | (.ok cs, s) => .ok ⟨r, new, cs⟩ s

/-- The push itself (R78): the words of the record with tag RETREC, and the cursor of RSTK. -/
def State.push (s : State) (E : Env) (p : PushAt) (ws : List Nat) : State :=
  (writeRaw s E p.addr p.cs (ws.map (fun w => (w, tRETREC)))).hwCsr E nRSTK (p.rstk.setCursor p.addr)

/-- The control word of a record (R78). -/
def controlWord (ctxid depth : Nat) (vclr t14 t7 : Bool) (kind : Nat) : Nat :=
  ctxid % 2 ^ 16 * 2 ^ 32 + depth % 32 * 2 ^ 16 + b2n vclr * 2 ^ 8 + b2n t14 * 32 + b2n t7 * 16 + kind % 4

/-- WDEPTH.DEPTH as the instruction sees it. -/
def seeDepth (s : State) (E : Env) : Nat := fld (seeSr s E nWDEPTH) 4 0

/-- CALL and CALLC after steps 1 to 4 of R200: the depth, the push, then the transfer. -/
def callTo (s : State) (E : Env) (target : Cap) : Res :=
  let d := seeDepth s E
  if 16 ≤ d then .trap ⟨ecWINDOW_DEPTH, 0, 0, 0⟩ s
  else
    match pushCheck s E 16 with
    | .trap t s => .trap t s
    | .wait w s => .hold (s.waitOn E w)
    | .ok p s =>
      let ctl := controlWord (seeSr s E nCTXID).toNat d false false false 1
      let s := s.push E p [ctl, (E.pc + E.len) % 2 ^ 64]
      .done ((s.hwSr E nWDEPTH (word (d + 1))).setPcc E.n E.k target) true

/-- CALL (R112, R199). -/
def insCall (off : Nat) : InsDef :=
  insXfer (encB 0x17 off) false none (fun E s =>
    callTo s E ((s.pcc E.n E.k).setCursor (wrap ((E.pc : Int) + offset22 off)).toNat))

/-- The command CALL: issue of the instruction. -/
def execCall (h : Hdr) (off : Nat) (s : State) : Host.Outcome State Fault Refusal := issue h (insCall off) s

/-- CALLC (R112, R199, R200). -/
def insCallc (ca : Nat) : InsDef :=
  insXfer (encC 0x18 1 0 ca 0) false none (fun E s =>
    let c := rdC s E 0 ca
    match targetTrap s E c ca with
    | some t => .trap t s
    | none => callTo s E c)

/-- The command CALLC: issue of the instruction. -/
def execCallc (h : Hdr) (ca : Nat) (s : State) : Host.Outcome State Fault Refusal := issue h (insCallc ca) s

/-! ## What PASS and its return clear -/

/-- A ring register belongs to one of windows 0 to d, or to rows 0-7 of the slot above them (R113). -/
def ringKept (wbase d i : Nat) : Bool :=
  let off := (i / 16 + 18 - wbase % 18) % 18
  decide (off ≤ d) || (decide (off = d + 1) && decide (i % 16 < 8))

/-- The clearing that PASS and the PASS return share (R77, R79, R113): the ring outside the windows in use, g0-g7, c0 and
c8-c13, p1-p7, and v0-v31 when VCLR is 1. d is the caller's depth. -/
def Ctx.gateClear (x : Ctx) (d : Nat) (vclr : Bool) : Ctx :=
  let wbase := fld (x.srv nWBASE) 4 0
  let gone := fun (n : Nat) => decide (n = 0) || (decide (8 ≤ n) && decide (n ≤ 13))
  let x := { x with
    g := []
    ring := x.ring.filter (fun e => ringKept wbase d e.1)
    preds := []
    caps := x.caps.filter (fun e => !(gone e.1))
    vec := if vclr then [] else x.vec }
  x.landed (fun l => match l with
    | .g _ => true
    | .ring i => !(ringKept wbase d i)
    | .p _ => true
    | .c n => gone n
    | .v _ => vclr
    | _ => false)

/-! ## Gates -/

/-- A gate descriptor whose contents have been accepted (R75, R76). -/
structure Gate where
  code : Cap
  data : Cap
  vclr : Bool
  ro   : Bool
  deriving DecidableEq, Repr

/-- Step 7 of R82 on the words of a descriptor: POISON, RETREC and the reserved tags. -/
def gateTags (ws : List (Nat × Nat)) (capNo ea : Nat) : Option Trap :=
  ((List.range ws.length).zip ws).findSome? (fun e =>
    let t := e.2.2
    if t = tPOISON then some ⟨ecMC_POISON, capInfo capNo, ea + 8 * e.1, 0⟩
    else if t = tRETREC ∨ 7 ≤ t then some ⟨ecTAG_FAULT, capInfo capNo + t + 256 * b2n (decide (e.1 = 1)), ea + 8 * e.1, 0⟩
    else none)

/-- Step 8 of R82 on the words of a descriptor at ea (R75, R76), for a core of a world. -/
def gateOf (ws : List (Nat × Nat)) (capNo ea : Nat) (world : Bool) : Except Trap Gate :=
  let w := fun (i : Nat) => ((ws[i]?).getD (0, 0)).1
  let t := fun (i : Nat) => ((ws[i]?).getD (0, 0)).2
  let code : Cap := ⟨word (w 0), word (w 1), decide (t 0 = tCAPLO) && decide (t 1 = tCAPHI)⟩
  let isData := decide (t 2 = tCAPLO) && decide (t 3 = tCAPHI)
  let data : Cap := if isData then ⟨word (w 2), word (w 3), true⟩ else Cap.null
  let invalid : Trap := ⟨ecCAP_INVALID, capInfo capNo + 2 ^ 5, ea, 0⟩
  if !code.valid || code.isSealed then .error invalid
  else if !isData && !(decide (t 2 = tINT) && decide (t 3 = tINT)) then .error invalid
  else if t 4 ≠ tINT ∧ t 4 ≠ tUNINIT then .error invalid
  else if bits (w 4) 63 2 ≠ 0 then .error invalid
  else
    let found := code.missing (pm pEXEC) + (if code.world != world then 2 ^ 16 else 0)
    if found ≠ 0 then .error (trapPerm capNo found ea)
    else .ok ⟨code, data, bit (w 4) 0, bit (w 4) 1⟩

/-- Window register w[m] of the current window, past any shadow bank (R111). -/
def windowReg (s : State) (E : Env) (m : Nat) : Word :=
  s.gloc E.n E.k (.ring (ringIndex (fld (seeSr s E nWBASE) 4 0) (seeDepth s E) m))

/-- Bytes of a capability. -/
def capBytes (c : Cap) : List Byte := wordBytes [c.cursor.toNat, c.hi.toNat]

/-- Tags of a capability's two words. -/
def capTags (c : Cap) : List Nat := if c.tag then [tCAPLO, tCAPHI] else [tINT, tINT]

/-- A remote PASS (R212, R213, R214, R507): the checks on c1 to c6, then the request, deferred in an ACTIVE transaction for
PASS and sent at once for PASSR. Within a read-only service it raises CAP_PERM with EINFO[21] (R515). -/
def passAway (s : State) (E : Env) (ro : Bool) (ca node : Nat) (gate : Cap) : Res :=
  let args := (List.range 6).map (fun i => rdC s E (10 + i) (i + 1))
  let regs := (List.range 8).map (fun i => windowReg s E (16 + i))
  if (s.ctx E.n E.k).tx.service = 3 then .trap (trapPerm ca (2 ^ 21) gate.cur) s
  else if args.any (fun c => !c.mayLeave) then .trap (trapPerm ca (2 ^ 17) gate.cur) s
  else
    let payload := capBytes gate ++ args.flatMap capBytes ++ wordBytes (regs.map BitVec.toNat)
    let tags := capTags gate ++ args.flatMap capTags ++ List.replicate 8 tINT
    let r : RemoteReq := { env := E, typ := pkPASS, reqid := 0, node := node, link := 0, addr := gate.cur, arg := b2n ro,
                           payload := payload, tags := tags, capNo := ca, mode := 4, dst := 0, size := 64, wb := none,
                           due := 0, resends := 0 }
    if ro then sendRemote s r
    else
      match deferRemote s E gate.cur (.rpass E.k node ro gate args regs) with
      | none => sendRemote s r
      | some (.trap t s) => .trap t s
      | some (.ok _ s) => .done s false
      | some _ => .done s false

/-- PASS and PASSR (R77, R82, R213). DESIGN CHOICE, safe: a code cursor of the descriptor that is not word-aligned raises the ALIGN of R141
after step 10 of R82, whose table does not list it. -/
def passRun (ro : Bool) (ca : Nat) (E : Env) (s : State) : Res :=
  let g := rdC s E 0 ca
  if !g.valid then .trap (trapInvalid g ca) s
  else if g.otype ≠ otGATE then
    .trap (if g.isSealed then trapSealed g ca else trapPerm ca 0 g.cur) s
  else
    let openCtx := !((s.ctx E.n E.k).world)
    let found := g.missing (pm pPASS) + (if openCtx && g.world then 2 ^ 16 else 0)
      + (if g.has pDEVICE && decide (g.cur < 0x1800000000) then 2 ^ 19 else 0)
      + (if g.has pDEVICE && inSysWindow g.cur then g.missing (pm pSYS) else 0)
    if found ≠ 0 then .trap (trapPerm ca found g.cur) s
    else if g.has pDEVICE && inSysWindow g.cur && !(seeSup s E) then .trap trapPRIV s
    else if g.cur % 64 ≠ 0 then .trap ⟨ecALIGN, capInfo ca, g.cur, 0⟩ s
    else
      match boundsCheck g ca g.cur 64 with
      | some t => .trap t s
      | none =>
        match chunkAt s E { routineAcc g ca g.cur 16 kLOAD 0 with far := true } g.cur 64 with
        | (.trap t, s) => .trap t s
        | (.wait w, s) => .hold (s.waitOn E w)
        | (.ok cs, s) =>
          match cs.head?.map Chunk.place with
          | some (.remote node) => passAway s E ro ca node g
          | _ =>
            match ctxWords s E ca g.cur cs with
            | .error t => .trap t s
            | .ok ws =>
              match gateTags ws ca g.cur with
              | some t => .trap t s
              | none =>
                match gateOf ws ca g.cur ((s.ctx E.n E.k).world) with
                | .error t => .trap t s
                | .ok d =>
                  if ro && !d.ro then .trap (trapPerm ca (2 ^ 21) g.cur) s
                  else
                    let depth := seeDepth s E
                    if 16 ≤ depth then .trap ⟨ecWINDOW_DEPTH, 0, 0, 0⟩ s
                    else
                      match pushCheck (s.noteFar E cs) E 64 with
                      | .trap t s => .trap t s
                      | .wait w s => .hold (s.waitOn E w)
                      | .ok p s =>
                        if d.code.cur % 4 ≠ 0 then .trap ⟨ecALIGN, capInfo ca, d.code.cur, 0⟩ s
                        else
                          let c7 := rdC s E 17 7
                          let c14 := rdC s E 24 14
                          let pcc := s.pcc E.n E.k
                          let ctl := controlWord (seeSr s E nCTXID).toNat depth d.vclr c14.tag c7.tag 2
                          let s := s.push E p [ctl, (E.pc + E.len) % 2 ^ 64, pcc.hi.toNat, c7.cursor.toNat, c7.hi.toNat,
                                               c14.cursor.toNat, c14.hi.toNat, p.addr]
                          let s := s.setCtx E.n E.k ((s.ctx E.n E.k).gateClear depth d.vclr)
                          let s := ((s.hwSr E nWDEPTH (word (depth + 1))).hwCap E 7 d.data).hwCap E 14 Cap.null
                          .done (s.setPcc E.n E.k d.code) true

/-- PASS. -/
def insPass (ca : Nat) : InsDef :=
  { insXfer (encC 0x1E 0 0 ca 0) false (some rtPASS) (passRun false ca) with compared := fun E s => some [.c (rdC s E 0 ca)] }

/-- The command PASS: issue of the instruction. -/
def execPass (h : Hdr) (ca : Nat) (s : State) : Host.Outcome State Fault Refusal := issue h (insPass ca) s

/-- PASSR. -/
def insPassr (ca : Nat) : InsDef :=
  { insXfer (encC 0x1E 1 0 ca 0) false (some rtPASS) (passRun true ca) with compared := fun E s => some [.c (rdC s E 0 ca)] }

/-- The command PASSR: issue of the instruction. -/
def execPassr (h : Hdr) (ca : Nat) (s : State) : Host.Outcome State Fault Refusal := issue h (insPassr ca) s

/-! ## RET -/

/-- The reply of a remote-PASS service (R514): PASSREPLY with c1-c6 and w0-w7, a capability that may not leave being sent with
its tag clear (R507); a requester that is lost gets none (R522). Then the
context is released and its transaction, if any, discarded (R515). -/
def remoteReturn (s : State) (E : Env) (node reqid : Nat) : State :=
  let args := (List.range 6).map (fun i =>
    let c := rdC s E (10 + i) (i + 1)
    if c.mayLeave then c else { c with tag := false })
  let regs := (List.range 8).map (fun i => windowReg s E i)
  let p := s.mkPkt pkPASSREPLY node reqid 0 0 (args.flatMap capBytes ++ wordBytes (regs.map BitVec.toNat))
    (args.flatMap capTags ++ List.replicate 8 tINT)
  let tx := (s.ctx E.n E.k).tx
  let mine := fun (r : RPReq) => decide (2 ≤ tx.service) && decide (r.num = tx.req)
  let s := if s.fab.rpRun.any (fun r => mine r && r.gone) then s else (s.send p).2
  let s := { s with fab := { s.fab with rpRun := s.fab.rpRun.filter (fun r => !(mine r)) } }
  let s := s.dropBuffer E.n E.k
  s.releaseCtx E.n E.k

/-- RET (R79-R81, R199, R200, R514). -/
def retRun (E : Env) (s : State) : Res :=
  let d := seeDepth s E
  if d = 0 then .trap ⟨ecWINDOW_UNDER, 0, 0, 0⟩ s
  else
    let r := seeCsr s E nRSTK
    let a := r.cur
    if rstkBad r then .trap (trapRstack 0 a) s
    else if a < r.base ∨ r.top < a + 16 then .trap (trapRstack 2 a) s
    else
      match resolve s E (routineAcc r 0 a 16 kLOAD (pm pLOAD)) with
      | (.trap t, s) => .trap t s
      | (.wait w, s) => .hold (s.waitOn E w)
      | (.ok cs, s) =>
        match rawWords s E 0 a cs with
        | .error t => .trap t s
        | .ok head =>
          let ctl := ((head[0]?).getD (0, 0)).1
          let kind := bits ctl 1 0
          if ((head[0]?).getD (0, 0)).2 ≠ tRETREC then .trap (trapRstack 3 a) s
          else if kind = 0 then .trap (trapRstack 4 a) s
          else
            let size := if kind = 1 then 16 else 64
            if r.top < a + size then .trap (trapRstack 2 a) s
            else
              match resolve s E (routineAcc r 0 a size kLOAD (pm pLOAD)) with
              | (.trap t, s) => .trap t s
              | (.wait w, s) => .hold (s.waitOn E w)
              | (.ok cs, s) =>
                match rawWords s E 0 a cs with
                | .error t => .trap t s
                | .ok ws =>
                  let w := fun (i : Nat) => ((ws[i]?).getD (0, 0)).1
                  match ((List.range ws.length).zip ws).find? (fun e => decide (e.2.2 ≠ tRETREC)) with
                  | some e => .trap (trapRstack 3 (a + 8 * e.1)) s
                  | none =>
                    if bits ctl 47 32 ≠ fld (seeSr s E nCTXID) 15 0 then .trap (trapRstack 5 a) s
                    else if kind ≠ 1 ∧ w 7 ≠ a then .trap (trapRstack 6 (a + 56)) s
                    else if bits ctl 20 16 ≠ d - 1 then .trap (trapRstack 7 a) s
                    else
                      match resolve s E (routineAcc r 0 a size kSTORE (pm pSTORE)) with
                      | (.trap t, s) => .trap t s
                      | (.wait w, s) => .hold (s.waitOn E w)
                      | (.ok cs, s) =>
                        let s0 := s.noteFar E cs
                        let s := (writeRaw s0 E a cs (List.replicate (size / 8) (0, tUNINIT))).hwCsr E nRSTK
                          (r.setCursor (a + size))
                        let s := s.hwSr E nWDEPTH (word (d - 1))
                        if kind = 1 then .done (s.setPc E.n E.k (w 1)) true
                        else if kind = 3 then
                          .hold (remoteReturn { s0 with free := s0.free + 1 } E (bits (w 1) 9 0) (bits (w 1) 31 16))
                        else
                          let s := s.setCtx E.n E.k ((s.ctx E.n E.k).gateClear (d - 1) (bit ctl 8))
                          let s := (s.hwCap E 7 ⟨word (w 3), word (w 4), bit ctl 4⟩).hwCap E 14 ⟨word (w 5), word (w 6), bit ctl 5⟩
                          .done (s.setPcc E.n E.k ⟨word (w 1), word (w 2), true⟩) true

/-- The record that RET finds is that of a CALL, so that the pipeline itself carries the instruction out (R308). -/
def retOfCall (E : Env) (s : State) : Bool :=
  let r := seeCsr s E nRSTK
  match (resolve s E (routineAcc r 0 r.cur 16 kLOAD (pm pLOAD))).1 with
  | .ok cs => (match rawWords s E 0 r.cur cs with
    | .ok (w :: _) => decide (bits w.1 1 0 = 1)
    | _ => false)
  | _ => false

/-- RET. -/
def insRet : InsDef := { insXfer (encC 0x18 2 0 0 0) false (some rtRET) retRun with which := fun E s r => if retOfCall E s then none else r }

/-- The command RET: issue of the instruction. -/
def execRet (h : Hdr) (s : State) : Host.Outcome State Fault Refusal := issue h insRet s

/-! ## Hardware loops -/

/-- LOOP (R159): with a register count, COUNT holds the specifier in bits 8:4 and bits 3:0 are zero. It is a taken control transfer
whatever its count (R277): past the body when it is zero, to the body's first instruction otherwise. -/
def insLoop (lvl : Nat) (imm : Bool) (len count : Nat) : InsDef :=
  insXfer (encL lvl (b2n imm) len count) (!imm && decide (count % 16 ≠ 0)) none (fun E s =>
    let n := if imm then count else fld (rdG s E 0 (count / 16)) 31 0
    let start := (E.pc + 4) % 2 ^ 64
    let last := (E.pc + 4 * (len + 1)) % 2 ^ 64
    let s := ((s.hwSr E (nLSTART + lvl) (word (start / 4 * 4))).hwSr E (nLEND + lvl) (word (last / 4 * 4))).hwSr E (nLCOUNT + lvl) (word n)
    .done (s.setPc E.n E.k (if n = 0 then last + 4 else start)) true)

/-- The command LOOP: issue of the instruction. -/
def execLoop (h : Hdr) (lvl : Nat) (imm : Bool) (len count : Nat) (s : State) : Host.Outcome State Fault Refusal :=
  issue h (insLoop lvl imm len count) s

/-! ## Levels -/

/-- The checks of R86 on ASC.ENTRY or ASC.RET. -/
def ascTrap (s : State) (E : Env) (c : Cap) : Option Trap :=
  let found := c.missing (pm pEXEC) + (if c.world != (s.ctx E.n E.k).world then 2 ^ 16 else 0)
  if !c.valid then some (trapInvalid c 0xC)
  else if found ≠ 0 then some (trapPerm 0xC found c.cur)
  else if c.cur % 4 ≠ 0 then some ⟨ecALIGN, capInfo 0xC, c.cur, 0⟩
  else none

/-- c14 is exchanged with ASC.STACK and RSTK with ASC.RSTK (R84, R85). -/
def State.ascSwap (s : State) (E : Env) : State :=
  let c14 := rdC s E 1 14
  let stack := seeCsr s E nASCSTACK
  let rstk := seeCsr s E nRSTK
  let ascRstk := seeCsr s E nASCRSTK
  (((s.hwCap E 14 stack).hwCsr E nASCSTACK c14).hwCsr E nRSTK ascRstk).hwCsr E nASCRSTK rstk

/-- ASCEND (R84, R86). -/
def insAscend : InsDef :=
  insXfer (encC 0x1E 4 0 0 0) false none (fun E s =>
    if seeSup s E then .trap trapPRIV s
    else
      let e := seeCsr s E nASCENTRY
      match ascTrap s E e with
      | some t => .trap t s
      | none =>
        let ret := (s.pcc E.n E.k).setCursor ((E.pc + E.len) % 2 ^ 64)
        let s := ((s.hwCsr E nASCRET ret).setPcc E.n E.k e).ascSwap E
        .done (s.hwSr E nSTATUS (setFlag (s.ctx E.n E.k).status 0 true)) true)

/-- The command ASCEND: issue of the instruction. -/
def execAscend (h : Hdr) (s : State) : Host.Outcome State Fault Refusal := issue h insAscend s

/-- DESCEND (R85, R86). -/
def insDescend : InsDef :=
  insXfer (encC 0x1E 5 0 0 0) false none (fun E s =>
    if !(seeSup s E) then .trap trapPRIV s
    else
      let r := seeCsr s E nASCRET
      match ascTrap s E r with
      | some t => .trap t s
      | none =>
        let s := (s.setPcc E.n E.k r).ascSwap E
        .done (s.hwSr E nSTATUS (setFlag (s.ctx E.n E.k).status 0 false)) true)

/-- The command DESCEND: issue of the instruction. -/
def execDescend (h : Hdr) (s : State) : Host.Outcome State Fault Refusal := issue h insDescend s

end Sys2Proof.Machine
end

