-- ==== Sys2Proof/Machine/System.lean ====
section
/-! DEFINITION. ERET, the barriers, TLB invalidation, save areas and vector areas: most of group 0x1F ("Capability, system and
vector instruction reference", R216-R219; "Registers, windows and contexts", R126-R137). -/

namespace Sys2Proof.Machine

open Sys2Proof

/-- An instruction of group 0x1F (R216). -/
def insSys (fn ca src : Nat) (priv : Bool) (routine : Option Nat) (run : Env → State → Res) : InsDef :=
  { word := encC 0x1F fn 0 ca src, wideOk := false, repOk := false, reserved := false, vector := false, priv := priv,
    routine := routine, run := run }

/-! ## ERET and the barriers -/

/-- ERET (R217, R255): the return, after which earlier late bus errors are due (R258). -/
def insEret : InsDef :=
  insSys 0 0 0 true none (fun E s =>
    match s.eret E.n E.k with
    | .error t => .trap t s
    | .ok s => .hold ((({ s with free := s.free + 1 }).drain E.n |>.maDue E.n E.k).stepTrap E.n E.k))

/-- The command ERET: issue of the instruction. -/
def execEret (h : Hdr) (s : State) : Host.Outcome State Fault Refusal := issue h insEret s

/-- FENCE (R218): every earlier store is visible, and late bus errors are due (R258). -/
def insFence : InsDef := insSys 1 0 0 false none (fun E s => .done ((s.drain E.n).maDue E.n E.k) false)

/-- The command FENCE: issue of the instruction. -/
def execFence (h : Hdr) (s : State) : Host.Outcome State Fault Refusal := issue h insFence s

/-- FENCESL (R218). -/
def insFencesl : InsDef := insSys 2 0 0 false none (fun E s => .done ((s.drain E.n).maDue E.n E.k) false)

/-- The command FENCESL: issue of the instruction. -/
def execFencesl (h : Hdr) (s : State) : Host.Outcome State Fault Refusal := issue h insFencesl s

/-- ISYNC (R218, R207): what was fetched is discarded, and the stores of the context are visible to later fetches; the queue is flushed, and
the loop-end check is still made (R277). -/
def insIsync : InsDef :=
  insSys 3 0 0 false none (fun E s =>
    let s := s.drain E.n
    .done ((s.setCore E.n { s.core E.n with oldCode := [] }).flushQueue E.n (s.core E.n).pace.last) false)

/-- The command ISYNC: issue of the instruction. -/
def execIsync (h : Hdr) (s : State) : Host.Outcome State Fault Refusal := issue h insIsync s

/-! ## TLB invalidation -/

/-- The page number of an address in a space, bits above the width of the space ignored (R219, R329). -/
def pageOf (space : Bool) (a : Nat) : Nat := if space then a % 2 ^ 40 / 2 ^ 14 else a % 2 ^ 48 / 2 ^ 14

/-- A TLBI instruction with an address (R219): sealed forms raise PRIV in an open-world context (R216). -/
def insTlbi (fn gs : Nat) (space wide : Bool) : InsDef :=
  insSys fn 0 gs true none (fun E s =>
    if space && !((s.ctx E.n E.k).world) then .trap trapPRIV s
    else
      let vpn := pageOf space (rdG s E 0 gs).toNat
      if wide then .done (s.tlbDropWhere (fun n => !space || s.coreWorld n) (fun e => e.hits space vpn)) false
      else .done (s.tlbDropPage E.n space vpn) false)

/-- TLBIV (R219). -/
def insTlbiv (gs : Nat) : InsDef := insTlbi 0x008 gs false false
/-- The command TLBIV: issue of the instruction. -/
def execTlbiv (h : Hdr) (gs : Nat) (s : State) : Host.Outcome State Fault Refusal := issue h (insTlbiv gs) s

/-- TLBIVS (R219). -/
def insTlbivs (gs : Nat) : InsDef := insTlbi 0x009 gs true false
/-- The command TLBIVS: issue of the instruction. -/
def execTlbivs (h : Hdr) (gs : Nat) (s : State) : Host.Outcome State Fault Refusal := issue h (insTlbivs gs) s

/-- TLBIVD (R219). -/
def insTlbivd (gs : Nat) : InsDef := insTlbi 0x00A gs false true
/-- The command TLBIVD: issue of the instruction. -/
def execTlbivd (h : Hdr) (gs : Nat) (s : State) : Host.Outcome State Fault Refusal := issue h (insTlbivd gs) s

/-- TLBIVSD (R219). -/
def insTlbivsd (gs : Nat) : InsDef := insTlbi 0x00B gs true true
/-- The command TLBIVSD: issue of the instruction. -/
def execTlbivsd (h : Hdr) (gs : Nat) (s : State) : Host.Outcome State Fault Refusal := issue h (insTlbivsd gs) s

/-- TLBIALL (R219): every entry of the core. -/
def insTlbiall : InsDef :=
  insSys 0x00C 0 0 true none (fun E s => .done (s.setCore E.n ((s.core E.n).tlbKeep (fun _ => false))) false)
/-- The command TLBIALL: issue of the instruction. -/
def execTlbiall (h : Hdr) (s : State) : Host.Outcome State Fault Refusal := issue h insTlbiall s

/-- TLBIALLD (R219): every entry of every core. -/
def insTlbialld : InsDef :=
  insSys 0x00D 0 0 true none (fun E s =>
    .done (s.tlbDropWhere (fun _ => true) (fun _ => true)) false)
/-- The command TLBIALLD: issue of the instruction. -/
def execTlbialld (h : Hdr) (s : State) : Host.Outcome State Fault Refusal := issue h insTlbialld s

/-! ## Save areas -/

/-- A register of a context as a micro-routine of the instruction sees it (R171). -/
def seeG (s : State) (E : Env) (i : Nat) : Nat :=
  (seeVal (s.ctx E.n E.k).flights (.g i) (.w (tget (s.ctx E.n E.k).g i 0)) (s.sight E.n (200 + i))).word.toNat
def seeRing (s : State) (E : Env) (i : Nat) : Nat :=
  (seeVal (s.ctx E.n E.k).flights (.ring i) (.w (tget (s.ctx E.n E.k).ring i 0)) (s.sight E.n (300 + i))).word.toNat
def seeCap (s : State) (E : Env) (i : Nat) : Cap :=
  (seeVal (s.ctx E.n E.k).flights (.c i) (.c ((s.ctx E.n E.k).cap i)) (s.sight E.n (240 + i))).cap

/-- The two words of a capability as a capability store writes them, with their tags (R59). -/
def capWords (c : Cap) : List (Nat × Nat) :=
  [(c.cursor.toNat, if c.tag then tCAPLO else tINT), (c.hi.toNat, if c.tag then tCAPHI else tINT)]

/-- A data word of a save area. -/
def intWord (v : Nat) : Nat × Nat := (v, tINT)

/-- The STATUS that SAVEL saves (R127, R130, R131): SUP, WORLD, GM and IE of ESTATUS while EXL is set, of STATUS otherwise. -/
def savedStatus (s : State) (E : Env) : Nat :=
  let st := seeStatus s E
  let w := if stEXL st then s.seenBank E.n E.k (s.seenInUse E.n E.k) nESTATUS else st
  (w &&& 0x1B).toNat

/-- The c15 that SAVEL saves (R130, R131). -/
def savedPcc (s : State) (E : Env) : Cap :=
  if stEXL (seeStatus s E) then
    { (s.ctx E.n E.k).cap 15 with cursor := s.seenBank E.n E.k (s.seenInUse E.n E.k) nEPC }
  else (s.pcc E.n E.k).setCursor ((E.pc + E.len) % 2 ^ 64)

/-- The capabilities that a save writes in an area. -/
def areaCaps (s : State) (E : Env) (area : Nat) : List Cap :=
  if area = 0 then [seeCsr s E nRSTK]
  else if area = 1 then (List.range 15).map (seeCap s E)
  else if area = 2 then
    savedPcc s E :: [nASCENTRY, nASCSTACK, nASCRET, nASCRSTK, nVAREA].map (seeCsr s E)
  else []

/-- The 30 words that a save writes in an area (R127, R128). -/
def areaWords (s : State) (E : Env) (area : Nat) : List (Nat × Nat) :=
  let sr := fun (n : Nat) => intWord (seeSr s E n).toNat
  if area = 0 then
    let preds := (List.range 7).foldl (fun a i => a + b2n (rdP s E (30 + i) (i + 1)) * 2 ^ (9 + i)) 1
    let mprog := if stEXL (seeStatus s E) then sr nMPROG else intWord 0
    [intWord preds, intWord (savedStatus s E), sr nCTXID, mprog, sr nRPT, sr nVSTATE, sr nPKMLO, sr nPKMHI]
      ++ (List.range 8).map (fun i => intWord (seeG s E i))
      ++ (List.range 12).map (fun i => sr (nLSTART + i)) ++ capWords (seeCsr s E nRSTK)
  else if area = 1 then (areaCaps s E 1).flatMap capWords
  else if area = 2 then (areaCaps s E 2).flatMap capWords ++ List.replicate 18 (intWord 0)
  else if area = 3 then
    intWord (seeDepth s E * 2 ^ 8 + fld (seeSr s E nWBASE) 4 0) :: (List.range 29).map (fun i => intWord (seeRing s E i))
  else
    (List.range 30).map (fun w =>
      let i := 29 + 30 * (area - 4) + w
      intWord (if i < 288 then seeRing s E i else 0))

/-- One area of a chain whose checks have passed. -/
structure Area where
  no  : Nat
  cap : Cap
  cs  : List Chunk
  deriving DecidableEq, Repr

/-- Steps 2 to 5 of R129 on SAREA (link address none) or on a link. caps lists what a save writes through it. -/
def areaTrap (s : State) (E : Env) (c : Cap) (linkAt : Option Nat) (caps : List Cap) : Option Trap :=
  let at' := linkAt.getD c.cur
  let need := pm pLOAD + pm pSTORE + pm pLOADCAP + pm pSTORECAP + pm pSTORELOCAL
  let rules := caps.foldl (fun r k => r ||| storedRules c k) 0
  let sealOk := if linkAt.isSome then !c.isSealed else decide (c.otype = 0) || decide (c.otype = otSAVE)
  let plain : Cap := c.withFld 49 34 0
  if !c.valid then some ⟨ecCAP_INVALID, capInfo 0xE + c.invalidInfo, at', 0⟩
  else if !sealOk then some ⟨ecCAP_SEALED, capInfo 0xE, at', 0⟩
  else
    match capCheck s E { routineAcc plain 0xE c.cur 256 kLOAD need with rules := rules } with
    | some t => some (if linkAt.isSome then { t with addr := if t.code = ecPRIV then 0 else at' } else t)
    | none =>
      if c.cur % 256 ≠ 0 then some ⟨ecALIGN, capInfo 0xE, at', 0⟩
      else (boundsCheck plain 0xE c.cur 256).map (fun t => if linkAt.isSome then { t with addr := at' } else t)

/-- Steps 2 to 7 of R129 area by area along the chain: left areas from area no on, through capability c; wr tells a save. The areas
before the first to be moved are only passed through: nothing is written there (R129, R314). -/
def chain (s : State) (E : Env) (wr : Bool) (start : Nat) : Nat → Nat → Cap → Option Nat → StackDid (List Area)
  | 0, _, _, _ => .ok [] s
  | left + 1, no, c, linkAt =>
    match areaTrap s E c linkAt (if wr && decide (start ≤ no) then areaCaps s E no else []) with
    | some t => .trap t s
    | none =>
      let plain : Cap := c.withFld 49 34 0
      let a := routineAcc plain 0xE c.cur 256 kLOAD 0
      match chunkAt s E a c.cur 256 with
      | (.trap t, s) => .trap t s
      | (.wait w, s) => .wait w s
      | (.ok cs, s) =>
        let st := if wr && decide (start ≤ no) then chunkAt s E { a with kind := kSTORE } c.cur 256 else (.ok cs, s)
        match st with
        | (.trap t, s) => .trap t s
        | (.wait w, s) => .wait w s
        | (.ok cs, s) =>
          if left = 0 then .ok [⟨no, plain, cs⟩] s
          else
            match rawWords s E 0xE c.cur cs with
            | .error t => .trap t s
            | .ok ws =>
              let lo := (ws[30]?).getD (0, 0)
              let hi := (ws[31]?).getD (0, 0)
              match capTagTrap lo.2 hi.2 0xE (c.cur + 0xF0) with
              | some t => .trap t s
              | none =>
                let link : Cap := ⟨word lo.1, word hi.1, decide (lo.2 = tCAPLO)⟩
                match chain (s.noteFar E cs) E wr start left (no + 1) link (some (c.cur + 0xF0)) with
                | .ok l s => .ok (⟨no, plain, cs⟩ :: l) s
                | r => r

/-- What the tags of the 30 words that a save writes forbid (R59): a word tagged RETREC or with a reserved tag takes no store. -/
def saveTagTrap (s : State) (E : Env) (a : Area) : Option Trap :=
  (((wordPlaces a.cs).take 30).zip (List.range 30)).findSome? (fun e => match e.1 with
    | some (t, at') => storeTagTrap ((s.viewMem E.n E.k t).tag at') 0xFF 0xE (a.cap.cur + 8 * e.2) (decide (e.2 = 1))
    | none => none)

/-- The BREAK of a breakpoint on the link words that a chain of areas reads (R376). -/
def linkBreak (s : State) (E : Env) (areas : List Area) : Option Trap :=
  areas.dropLast.findSome? (fun a => s.breakAt E.n 1 (a.cap.cur + 0xF0) 16)

/-- The granules of a save: each area in turn from the one PROG names (R311, R313). -/
def saveLoop (E : Env) (routine : Nat) : Option Nat → List Area → State → Res
  | _, [], s =>
    let c := seeCsr s E nSAREA
    .done ((s.progressEnd E).hwCsr E nSAREA (c.withFld 49 34 otSAVE)) false
  | p, a :: as, s =>
    match (saveTagTrap s E a).orElse (fun _ => s.breakAt E.n 2 a.cap.cur 240) with
    | some t => .trap t s
    | none =>
      let s := writeRaw s E a.cap.cur a.cs (areaWords s E a.no)
      if as.isEmpty then saveLoop E routine p as s
      else
        let s := s.progress E routine (a.no + 1)
        if spent p then stopHere s else saveLoop E routine (passOne p) as s

/-- SAVEL and SAVEH over areas lo to hi of the chain (R126-R133), from the one PROG names; a PROG beyond them completes with nothing
written (R314). -/
def saveRun (routine lo hi : Nat) (E : Env) (s : State) : Res :=
  let start := Nat.max lo (resumePoint s E routine)
  if hi < start then .done (s.progressEnd E) false
  else
    match chain s E true start (hi + 1) 0 (seeCsr s E nSAREA) none with
    | .trap t s => .trap t s
    | .wait w s => .hold (s.waitOn E w)
    | .ok areas s =>
      match linkBreak s E areas with
      | some t => .trap t s
      | none =>
        let (p, s) := s.patience E
        saveLoop E routine p (areas.filter (fun a => decide (start ≤ a.no))) s

/-- SAVEL. -/
def insSavel : InsDef := insSys 0x018 0 0 true (some rtSAVEL) (saveRun rtSAVEL 0 2)
/-- The command SAVEL: issue of the instruction. -/
def execSavel (h : Hdr) (s : State) : Host.Outcome State Fault Refusal := issue h insSavel s

/-- SAVEH. -/
def insSaveh : InsDef := insSys 0x019 0 0 true (some rtSAVEH) (saveRun rtSAVEH 3 12)
/-- The command SAVEH: issue of the instruction. -/
def execSaveh (h : Hdr) (s : State) : Host.Outcome State Fault Refusal := issue h insSaveh s

/-- Which words of an area a load reads as capabilities: the first word of each pair. -/
def capSlots (area : Nat) : List Nat :=
  if area = 0 then [28]
  else if area = 1 then (List.range 15).map (fun k => 2 * k)
  else if area = 2 then [0, 2, 4, 6, 8, 10]
  else []

/-- How many words of an area a load reads. -/
def wordsRead (area : Nat) : Nat := if area = 2 then 12 else if area = 12 then 19 else 30

/-- Step 8 of R129 on the words of an area at ea. -/
def areaTags (area ea : Nat) (ws : List (Nat × Nat)) : Option Trap :=
  (List.range (wordsRead area)).findSome? (fun i =>
    let t := ((ws[i]?).getD (0, 0)).2
    if (capSlots area).contains i then capTagTrap t ((ws[i + 1]?).getD (0, 0)).2 0xE (ea + 8 * i)
    else if (capSlots area).contains (i - 1) ∧ 0 < i then none
    else loadTagTrap t 0xE (ea + 8 * i) (decide (i = 1)))

/-- Step 9 of R129 on the words of an area. -/
def areaFormat (s : State) (E : Env) (area ea : Nat) (ws : List (Nat × Nat)) : Option Trap :=
  let w := fun (i : Nat) => ((ws[i]?).getD (0, 0)).1
  let bad : Trap := ⟨ecCAP_INVALID, capInfo 0xE + 2 ^ 6, ea, 0⟩
  if area = 0 then
    if bits (w 0) 7 0 ≠ 1 then some bad
    else if bit (w 1) 1 != (s.ctx E.n E.k).world then some (trapPerm 0xE (2 ^ 16) (ea + 8))
    else none
  else if area = 3 then
    if 17 < bits (w 0) 4 0 ∨ 16 < bits (w 0) 12 8 ∨ bits (w 0) 7 5 ≠ 0 ∨ bits (w 0) 63 13 ≠ 0 then some bad else none
  else none

/-- A capability read from two words of an area. -/
def areaCap (ws : List (Nat × Nat)) (i : Nat) : Cap :=
  let lo := (ws[i]?).getD (0, 0)
  let hi := (ws[i + 1]?).getD (0, 0)
  ⟨word lo.1, word hi.1, decide (lo.2 = tCAPLO)⟩

/-- What a load of an area writes at once (R127, R128); STATUS, c15 and MPROG are written last (R130, R131). -/
def loadArea (s : State) (E : Env) (area : Nat) (ws : List (Nat × Nat)) : State :=
  let w := fun (i : Nat) => word ((ws[i]?).getD (0, 0)).1
  let keep := fun (n : Nat) (s : State) (v : Word) => s.hwSr E n (srMergeOf n v)
  if area = 0 then
    let x := s.ctx E.n E.k
    let x := { x with
      preds := (List.range 7).map (fun i => (i + 1, flag (w 0) (9 + i)))
      g := (List.range 8).map (fun i => (i, w (8 + i))) }
    let s := s.setCtx E.n E.k (x.landed (fun l => match l with
      | .p _ => true
      | .g _ => true
      | _ => false))
    let s := keep nPKMHI (keep nPKMLO (keep nVSTATE (keep nRPT (keep nCTXID s (w 2)) (w 4)) (w 5)) (w 6)) (w 7)
    let s := (List.range 12).foldl (fun s i => keep (nLSTART + i) s (w (16 + i))) s
    s.hwCsr E nRSTK (areaCap ws 28)
  else if area = 1 then (List.range 15).foldl (fun s i => s.hwCap E i (areaCap ws (2 * i))) s
  else if area = 2 then
    let s := ((List.range 4).zip [nASCENTRY, nASCSTACK, nASCRET, nASCRSTK]).foldl
      (fun s e => s.hwCsr E e.2 (areaCap ws (2 + 2 * e.1))) s
    s.hwCsr E nVAREA (areaCap ws 10)
  else
    let base := if area = 3 then 0 else 29 + 30 * (area - 4)
    let s := if area = 3 then keep nWDEPTH (keep nWBASE s (word (fld (w 0) 4 0))) (word (fld (w 0) 12 8)) else s
    let x := s.ctx E.n E.k
    let ring := (List.range 30).foldl (fun (r : Tab Nat Word) j =>
      if area = 3 then (if j = 0 then r else tset r (j - 1) (w j))
      else if base + j < 288 then tset r (base + j) (w j) else r) x.ring
    s.setCtx E.n E.k ({ x with ring := ring }.landed (fun l => match l with
      | .ring _ => true
      | _ => false))
where
  /-- The RW bits of a saved word. -/
  srMergeOf (n : Nat) (v : Word) : Word :=
    if n = nCTXID then v &&& 0xFFFF
    else if n = nRPT then v &&& 0xFFFFFFFF
    else if n = nVSTATE then v &&& 0x7F03
    else if nLSTART ≤ n ∧ n < nLCOUNT then v &&& 0xFFFFFFFFFFFFFFFC
    else if nLCOUNT ≤ n then v &&& 0xFFFFFFFF
    else v

/-- The last step of LOADL (R130, R131, R136): VSTATE.RES, then STATUS, c15 and MPROG, of the bank's ESTATUS and EPC while EXL
is set. Answers whether execution goes on at the restored c15. -/
def loadLast (s : State) (E : Env) (st mprog : Word) (pcc : Cap) : State × Bool :=
  let vh := (s.ctx E.n E.k).csrv nVHOLD
  let va := (s.ctx E.n E.k).csrv nVAREA
  let res := vh.tag && decide (vh.cursor = va.cursor) && decide (vh.hi = va.hi)
  let s := s.hwSr E nVSTATE (setFlag ((s.ctx E.n E.k).srv nVSTATE) 0 res)
  let mp := mprog &&& 0xFF01FFFFFFFFFFFF
  let put := fun (old : Word) => setFlag (setFlag (setFlag old 0 (flag st 0)) 3 (flag st 3)) 4 (flag st 4)
  if stEXL (s.ctx E.n E.k).status then
    let b := (s.core E.n).inUse
    let c := s.core E.n
    let bank := ((c.bank b).setR nESTATUS (put ((c.bank b).r nESTATUS))).setR nEPC (word (pcc.cur / 4 * 4))
    let s := s.setCore E.n (c.setBank b bank)
    let x := s.ctx E.n E.k
    let s := s.setCtx E.n E.k ((x.setCap 15 pcc).landed (fun l => match l with
      | .bank _ _ => true
      | _ => false))
    (s.hwSr E nMPROG mp, false)
  else
    let s := s.hwSr E nSTATUS (put (s.ctx E.n E.k).status)
    let s := s.setCtx E.n E.k ((s.ctx E.n E.k).setCap 15 pcc)
    (s.hwSr E nMPROG mp, true)

/-- The granules of a load: each area in turn, its tags and format checked as it is read (R129, R132). low tells LOADL; st,
mprog and pcc are what LOADL writes last. -/
def loadLoop (E : Env) (routine : Nat) (low : Bool) (st mprog : Word) : Option Nat → List Area → State → Res
  | _, [], s => .done (s.progressEnd E) false
  | p, a :: as, s =>
    match rawWords s E 0xE a.cap.cur a.cs with
    | .error t => .trap t s
    | .ok ws =>
      match ((areaTags a.no a.cap.cur ws).orElse (fun _ => areaFormat s E a.no a.cap.cur ws)).orElse
          (fun _ => s.breakAt E.n 1 a.cap.cur (8 * wordsRead a.no)) with
      | some t => .trap t s
      | none =>
        let s := loadArea (s.noteFar E a.cs) E a.no ws
        if low && decide (a.no = 2) then
          let (s, taken) := loadLast s E st mprog (areaCap ws 0)
          .done s taken
        else if as.isEmpty then .done (s.progressEnd E) false
        else
          let s := s.progress E routine (a.no + 1)
          if spent p then stopHere s else loadLoop E routine low st mprog (passOne p) as s

/-- LOADL and LOADH over areas lo to hi of the chain (R126-R132), from the one PROG names. A PROG beyond them completes with nothing
written: LOADH sets MPROG to zero then, LOADL does not (R314). -/
def loadRun (routine lo hi : Nat) (low : Bool) (E : Env) (s : State) : Res :=
  let start := Nat.max lo (resumePoint s E routine)
  if hi < start then .done (if low then s else s.progressEnd E) false
  else
    match chain s E false start (hi + 1) 0 (seeCsr s E nSAREA) none with
    | .trap t s => .trap t s
    | .wait w s => .hold (s.waitOn E w)
    | .ok areas s =>
      match linkBreak s E areas with
      | some t => .trap t s
      | none =>
        let head := match areas.head? with
          | some a => (match rawWords s E 0xE a.cap.cur a.cs with
            | .ok ws => ws
            | .error _ => [])
          | none => []
        let (p, s) := s.patience E
        loadLoop E routine low (word ((head[1]?).getD (0, 0)).1) (word ((head[3]?).getD (0, 0)).1) p
          (areas.filter (fun a => decide (start ≤ a.no))) s

/-- LOADL. -/
def insLoadl : InsDef := insSys 0x01A 0 0 true (some rtLOADL) (loadRun rtLOADL 0 2 true)
/-- The command LOADL: issue of the instruction. -/
def execLoadl (h : Hdr) (s : State) : Host.Outcome State Fault Refusal := issue h insLoadl s

/-- LOADH. -/
def insLoadh : InsDef := insSys 0x01B 0 0 true (some rtLOADH) (loadRun rtLOADH 3 12 false)
/-- The command LOADH: issue of the instruction. -/
def execLoadh (h : Hdr) (s : State) : Host.Outcome State Fault Refusal := issue h insLoadh s

/-! ## Vector areas -/

/-- The checks of a vector area of 2 KiB (R135), over the part from register start on (R314): as a vector access through the capability,
with its alignment and an SE bar. -/
def vecArea (s : State) (E : Env) (c : Cap) (start : Nat) (wr : Bool) : StackDid (List Chunk) :=
  let a : Acc := ⟨c, 0xE, c.cur + 64 * start, 2048 - 64 * start, if wr then kSTORE else kLOAD, pm pLOAD + pm pSTORE, 0, 64, true, false, false⟩
  match resolve s E a with
  | (.trap t, s) => .trap t s
  | (.wait w, s) => .wait w s
  | (.ok cs, s) => .ok cs s

/-- The eight words of a vector register. -/
def vecWords (v : VReg) : List (Nat × Nat) := (List.range 8).map (fun i => intWord (bits v.toNat (64 * i + 63) (64 * i)))

/-- The granules of VSPILL: one register each (R308). -/
def spillLoop (E : Env) (c : Cap) (places : List (Option (Tgt × Nat))) : Option Nat → List Nat → State → Res
  | _, [], s => .done ((s.progressEnd E).hwCsr E nVHOLD { c with tag := false }) false
  | p, i :: is, s =>
    let here := (places.drop (8 * i)).take 8
    let ea := c.cur + 64 * i
    let bad := (here.zip (List.range 8)).findSome? (fun e => match e.1 with
      | some (t, a) => storeTagTrap ((s.viewMem E.n E.k t).tag a) 0xFF 0xE (ea + 8 * e.2) (decide (e.2 = 1))
      | none => none)
    match bad.orElse (fun _ => s.breakAt E.n 2 ea 64) with
    | some t => .trap t s
    | none =>
      let v := seeVec s i
      let s := (here.zip (vecWords v)).foldl (fun (s : State) e => match e.1 with
        | some (t, a) => s.enqueue E.n E.k t (groupByLine [(⟨a, 0xFF, e.2.1, .data tINT⟩ : WOp)])
        | none => s) s
      let s := if here.any (fun o => o.isNone) then s.lateBus E ea 8 false else s
      if is.isEmpty then spillLoop E c places p is s
      else
        let s := s.progress E rtVSPILL (i + 1)
        if spent p then stopHere s else spillLoop E c places (passOne p) is s
where
  /-- A vector register as the routine sees it. -/
  seeVec (s : State) (i : Nat) : VReg :=
    let x := s.ctx E.n E.k
    (seeVal x.flights (.v i) (.v (x.vreg i)) (s.sight E.n (160 + i))).vec

/-- VSPILL (R135). -/
def insVspill : InsDef :=
  insSys 0x01C 0 0 true (some rtVSPILL) (fun E s =>
    let c := seeCsr s E nVHOLD
    let start := resumePoint s E rtVSPILL
    if !c.tag || decide (31 < start) then .done (s.progressEnd E) false
    else
      match vecArea s E c start true with
      | .trap t s => .trap t s
      | .wait w s => .hold (s.waitOn E w)
      | .ok cs s =>
        let (p, s) := s.patience E
        spillLoop E c (List.replicate (8 * start) none ++ wordPlaces cs) p ((List.range 32).drop start) (s.noteFar E cs))
/-- The command VSPILL: issue of the instruction. -/
def execVspill (h : Hdr) (s : State) : Host.Outcome State Fault Refusal := issue h insVspill s

/-- VFILL's last step (R135): VHOLD takes VAREA, RES and FILLED are set. -/
def fillLast (s : State) (E : Env) : State :=
  let va := seeCsr s E nVAREA
  let vs := setFlag (setFlag ((s.ctx E.n E.k).srv nVSTATE) 0 true) 1 true
  ((s.progressEnd E).hwCsr E nVHOLD va).hwSr E nVSTATE vs

/-- The value that VFILL reads for register i (R135): zero when FILLED is 0 (no places), otherwise its 64 bytes of the area. -/
def fillValue (s : State) (E : Env) (c : Cap) (places : Option (List (Option (Tgt × Nat)))) (i : Nat) : Except Trap Nat :=
  match places with
  | none => .ok 0
  | some ps =>
    let here := (ps.drop (8 * i)).take 8
    let ea := c.cur + 64 * i
    let bad := (here.zip (List.range 8)).findSome? (fun e => match e.1 with
      | some (t, a) => loadTagTrap ((s.viewMem E.n E.k t).tag a) 0xE (ea + 8 * e.2) (decide (e.2 = 1))
      | none => none)
    let bus := (here.zip (List.range 8)).findSome? (fun e =>
      if e.1.isNone then some (⟨ecMC_BUS, capInfo 0xE, ea + 8 * e.2, 0⟩ : Trap) else none)
    match (bad.orElse (fun _ => s.breakAt E.n 1 ea 64)).orElse (fun _ => bus) with
    | some t => .error t
    | none => .ok ((here.zip (List.range 8)).foldl (fun acc e => match e.1 with
        | some (t, a) => acc + (s.viewMem E.n E.k t).word a * 2 ^ (64 * e.2)
        | none => acc) 0)

/-- The granules of VFILL: one register each. -/
def fillLoop (E : Env) (c : Cap) (places : Option (List (Option (Tgt × Nat)))) : Option Nat → List Nat → State → Res
  | _, [], s => .done (fillLast s E) false
  | p, i :: is, s =>
    match fillValue s E c places i with
    | .error t => .trap t s
    | .ok v =>
      let x := s.ctx E.n E.k
      let s := s.setCtx E.n E.k ({ x with vec := tset x.vec i (BitVec.ofNat 512 v) }.landed (fun l => decide (l = Loc.v i)))
      if is.isEmpty then fillLoop E c places p is s
      else
        let s := s.progress E rtVFILL (i + 1)
        if spent p then stopHere s else fillLoop E c places (passOne p) is s

/-- VFILL (R135, R136), from the register that PROG names; a PROG beyond them completes with nothing written (R314). -/
def insVfill : InsDef :=
  insSys 0x01D 0 0 true (some rtVFILL) (fun E s =>
    let start := resumePoint s E rtVFILL
    let regs := (List.range 32).drop start
    let c := seeCsr s E nVAREA
    if 31 < start then .done (s.progressEnd E) false
    else if flag (seeSr s E nVSTATE) 1 = false then
      let (p, s) := s.patience E
      fillLoop E c none p regs s
    else
      match vecArea s E c start false with
      | .trap t s => .trap t s
      | .wait w s => .hold (s.waitOn E w)
      | .ok cs s =>
        let (p, s) := s.patience E
        fillLoop E c (some (List.replicate (8 * start) none ++ wordPlaces cs)) p regs (s.noteFar E cs))
/-- The command VFILL: issue of the instruction. -/
def execVfill (h : Hdr) (s : State) : Host.Outcome State Fault Refusal := issue h insVfill s

end Sys2Proof.Machine
end

