-- ==== Sys2Proof/Machine/Place.lean ====
section
/-! DEFINITION. Placing work: the pair that starts a frame or a CROSS service (R406), the descriptors that a start reads
(R75, R92, the handler-descriptor table before R427), and the registers a start sets (R92, R428). -/

namespace Sys2Proof.Machine

open Sys2Proof

/-! ## The choice of R406 -/

/-- Pair k serves the given world now: formed by the image, bound to the world, in service, powered, released, not halted. -/
def State.pairServes (s : State) (world : Bool) (k : Nat) : Bool :=
  let n := 2 * k
  let c := s.core n
  s.paired n && (s.coreWorld n == world) && !c.held && !c.off && !c.quiesced && !c.csFailed && s.clockRuns n && (decide (s.rf (.depPair k) depPair_STATE = 0) || decide (s.rf (.depPair k) depPair_STATE = 3))
    && decide (s.rf (.dbgCorectl n) dbgCorectl_HALTED = 0)

/-- The lower idle context of a core, if it has one. -/
def State.idleCtx (s : State) (n : Nat) : Option Nat :=
  [0, 1].find? (fun k => decide ((s.ctx n k).st = .idle))

/-- Contexts of a core in RUN or READY. -/
def State.busyCtxs (s : State) (n : Nat) : Nat :=
  ([0, 1].filter (fun k => decide ((s.ctx n k).st = .run) || decide ((s.ctx n k).st = .ready))).length

/-- Keeps those for which p holds, unless none does: a criterion of R406 narrows the choice. -/
def narrow (p : Nat → Bool) (l : List Nat) : List Nat :=
  let m := l.filter p
  if m.isEmpty then l else m

/-- The pair of a non-empty list that follows, in rotation, the one last chosen. -/
def rotate (last : Option Nat) (l : List Nat) : Option Nat :=
  match last with
  | none => l.head?
  | some p => match l.find? (fun k => decide (p < k)) with
    | some k => some k
    | none => l.head?

/-- The pair for work of a queue (class q, or 64 + q for CROSS queue q) among those a mask names (R406, R438): die is the die
that criterion 1 prefers, and avoid the pair of a failed attempt. -/
def State.choosePair (s : State) (queue mask : Nat) (world : Bool) (die avoid : Option Nat) : Option Nat :=
  let l := (List.range 24).filter (fun k => bit mask k && s.pairServes world k && (s.idleCtx (2 * k)).isSome)
  let l := match avoid with
    | some a => narrow (fun k => decide (k ≠ a)) l
    | none => l
  let l := match die with
    | some d => narrow (fun k => decide (dieOfPair k = d)) l
    | none => l
  let l := narrow (fun k => decide (s.rf (.pwrDom k) pwrDom_LIMITED = 0) && decide (s.rf (.ageDom k) ageDom_STATE = 0)) l
  let least := l.foldl (fun m k => Nat.min m (s.busyCtxs (2 * k))) 2
  rotate (tfind s.lastPick queue) (l.filter (fun k => decide (s.busyCtxs (2 * k) = least)))

/-- The W-core for a queued W-core task of a world (R406): the same criteria over W-cores, of which the third counts the contexts that run.
No row of the table queues such a task. -/
def State.chooseWCore (s : State) (world : Bool) (die last : Option Nat) : Option Nat :=
  let l := (List.range 64).map (fun i => 48 + i)
  let l := l.filter (fun n => (s.coreWorld n == world) && s.coreRuns n && (s.idleCtx n).isSome)
  let l := match die with
    | some d => narrow (fun n => decide (dieOfCore n = d)) l
    | none => l
  let l := narrow (fun n => decide (s.rf (.pwrDom (n / 2)) pwrDom_LIMITED = 0) && decide (s.rf (.ageDom (n / 2)) ageDom_STATE = 0)) l
  let least := l.foldl (fun m n => Nat.min m (s.busyCtxs n)) 2
  rotate last (l.filter (fun n => decide (s.busyCtxs n = least)))

/-! ## Reading a descriptor -/

/-- The environment of a routine that a context runs before its first instruction. -/
def startEnv (n k : Nat) : Env := { n := n, k := k, pc := 0, len := 4, pfx := 0, ins := 0, rep := false }

/-- MC_CSPARITY in the start of a handler or a service on core n (R322): it is reported, and a lockstep pair fails over. -/
def State.startFails (s : State) (n : Nat) (t : Trap) : State :=
  let s := s.csMark n t
  if s.paired n then s.failPair n 0x10 else s

/-- What a started handler or service becomes when a word of its start routine is bad in both copies: starts go to pairs alone (R406), and
the work of a pair that fails over ends as R540 says. -/
def State.startChecked (s : State) (n routine : Nat) : State :=
  match s.csTrap n (some routine) with
  | none => s
  | some t => s.startFails n t

/-- The words with their tags at a virtual address of a world, read with the context's own translation and keys (R92, R428);
none when a check of translation fails. -/
def readDesc (s : State) (E : Env) (world : Bool) (va size : Nat) : Option (List (Nat × Nat)) × State :=
  let a := routineAcc (rootMemory world 0) 0 va size kLOAD 0
  match chunkAt s E a va size with
  | (.ok cs, s) => (match ctxWords s E 0 va cs with
      | .ok ws => (some ws, s)
      | .error _ => (none, s))
  | (.trap t, s) => (none, if t.code = ecMC_CSPARITY then s.startFails E.n t else s)
  | (_, s) => (none, s)

/-- A start on context k of core n meets an entry with MV set in the walk for one of its descriptors, each given by its space, address
and size. -/
def State.meetsMv (s : State) (E : Env) (ds : List (Bool × Nat × Nat)) : Bool :=
  ds.any (fun d => match (chunkAt s E (routineAcc (rootMemory d.1 0) 0 d.2.1 d.2.2 kLOAD 0) d.2.1 d.2.2).1 with
    | .wait (.mv _ _ _) => true
    | _ => false)

/-- The start numbered key must wait on MV (R354): the state in which it waits, since it first met the entry; none when it goes on, as it
does to its WALK_ERROR when 20 µs have passed. -/
def State.startWaits (s : State) (key : Nat) (E : Env) (ds : List (Bool × Nat × Nat)) : Option State :=
  if !(s.meetsMv E ds) then none
  else
    match tfind s.fab.startMv key with
    | none => some { s with fab := { s.fab with startMv := tset s.fab.startMv key s.now } }
    | some t => if s.now < t + 20000 then some s else none

/-- The start numbered key goes on: its wait is over. -/
def State.startGoes (s : State) (key : Nat) : State := { s with fab := { s.fab with startMv := tdel s.fab.startMv key } }

/-- The capability in two words of a descriptor, tagged when they are a capability pair. -/
def descCap (ws : List (Nat × Nat)) (i : Nat) : Cap :=
  let a := (ws[i]?).getD (0, 0)
  let b := (ws[i + 1]?).getD (0, 0)
  ⟨word a.1, word b.1, decide (a.2 = tCAPLO) && decide (b.2 = tCAPHI)⟩

/-- Two words hold no capability: INT, INT. -/
def descNone (ws : List (Nat × Nat)) (i : Nat) : Bool :=
  decide (((ws[i]?).getD (0, 0)).2 = tINT) && decide (((ws[i + 1]?).getD (0, 0)).2 = tINT)

/-- The five permissions of a context capability. -/
def fivePerms : Nat := pm pLOAD + pm pSTORE + pm pLOADCAP + pm pSTORECAP + pm pSTORELOCAL

/-- The context capability at offset 0x30 meets its row of the handler-descriptor table. -/
def ctxCapOk (c : Cap) (world : Bool) : Bool :=
  c.valid && !c.isSealed && (c.world == world) && decide (c.missing fivePerms = 0)
    && decide (48 * 0x8000 ≤ c.top - c.base)

/-- The four capabilities that a start derives from a context capability for slot i (R428): stack, return stack, save chain
and vector area. -/
def slotCaps (c : Cap) (i : Nat) : Cap × Cap × Cap × Cap :=
  let b := c.base + 0x8000 * i
  let w := c.world
  let ls := pm pLOAD + pm pSTORE
  (Cap.mk' (b + 0x2800) (b + 0x2800) 0x5800 fivePerms w true, Cap.mk' (b + 0x800) (b + 0x400) 0x400 ls w true,
   Cap.mk' (b + 0x1800) (b + 0x1800) 0x1000 fivePerms w true, Cap.mk' (b + 0x800) (b + 0x800) 0x800 ls w true)

/-! ## Starting -/

/-- STATUS of a context that a start sets: SUP as given, GM 1, IE 1, EXL 0. -/
def startStatus (st : Word) (sup : Bool) : Word :=
  setFlag (setFlag (setFlag (setFlag st 0 sup) 3 true) 4 true) 2 false

/-- Context k of core n starts with the capabilities and registers given, everything else being cleared (R92, R139, R316,
R428), and a transaction record. -/
def State.startCtx (s : State) (n k : Nat) (sup : Bool) (code c7 : Cap) (ctxCap : Cap) (caps : List (Nat × Cap))
    (g ring : Tab Nat Word) (tx : Tx) : State :=
  let x := (s.ctx n k).cleared
  let (stack, rstk, sarea, varea) := slotCaps ctxCap (2 * (n / 2) + k)
  let x := { x with
    g := g, ring := ring
    caps := [(15, code), (7, c7), (14, stack)] ++ caps
    csr := [(nRSTK, rstk), (nSAREA, sarea), (nVAREA, varea)]
    tx := tx }
  (s.setCtx n k (x.setStatus (startStatus x.status sup))).wake n k

end Sys2Proof.Machine
end

