-- ==== Sys2Proof/Machine/Cross.lean ====
section
/-! DEFINITION. CROSS between the worlds: issue, service start, reply and timeout ("Worlds, privilege and gates",
R87-R98). -/

namespace Sys2Proof.Machine

open Sys2Proof

/-- The serving world of a queue (R88). -/
def crossWorld (q : Nat) : Bool := decide (q < 32)

/-- Entries of a queue (R89). -/
def State.xqSize (s : State) (q : Nat) : Nat := 2 ^ s.rf (.xqcfg q) xqcfg_DEPTH

/-- Brings XQSTAT.OCC up to date: a request beyond the queue's size waits for space and is not queued (R91). -/
def State.xqOcc (s : State) (q : Nat) : State :=
  s.setRf (.xqstat q) xqstat_OCC (Nat.min (tget s.xq q []).length (s.xqSize q))

/-- A capability as it arrives in a context of a world (R93). -/
def crossFilter (toSealed : Bool) (c : Cap) : Cap :=
  if !toSealed && c.world && (!c.isSealed || c.has pKEYADMIN) then { c with tag := false } else c

/-- CROSS_TIMEOUT with its reason (R95). -/
def trapCross (reason : Nat) : Trap := ⟨ecCROSS_TIMEOUT, reason, 0, 0⟩

/-- CROSS_TIMEOUT is reported for a queue: the count, and MPROG zero at entry (R95, R261); under EXL MPROG is left alone (R315). -/
def State.crossTimedOut (s : State) (E : Env) (q : Nat) : State :=
  let s := s.addRf (.xqstat q) xqstat_TIMEOUTS 1
  if stEXL (s.ctx E.n E.k).status then s else s.hwSr E nMPROG 0

/-- The reply in w16-w23 and c1-c4 of the caller (R94), and the end of its CROSS. -/
def State.deliver (s : State) (E : Env) (regs : List Word) (caps : List Cap) : State :=
  let base := fld ((s.ctx E.n E.k).srv nWBASE) 4 0
  let depth := fld ((s.ctx E.n E.k).srv nWDEPTH) 4 0
  let s := ((List.range 8).zip regs).foldl (fun s e => s.setGloc E.n E.k (.ring (ringIndex base depth (16 + e.1))) e.2) s
  let s := ((List.range 4).zip caps).foldl (fun s e => s.hwCap E (e.1 + 1) e.2) s
  let x := s.ctx E.n E.k
  s.setCtx E.n E.k { x.landed (fun l => (List.range 8).any (fun i => decide (l = Loc.ring (ringIndex base depth (16 + i)))))
    with wait := .none, reply := none }

/-- The reply held by a context for an earlier request is discarded and counted in LATE (R96). -/
def State.dropReply (s : State) (n k : Nat) : State :=
  let x := s.ctx n k
  match x.reply with
  | none => s
  | some (req, _, _) =>
    let q := match tfind s.xout req with
      | some o => o.q
      | none => 0
    let s := (s.setCtx n k { x with reply := none }).addRf (.xqstat q) xqstat_LATE 1
    { s with xout := tdel s.xout req }

/-- The context enters WAIT for a request (R96, R121); a P-core runs its other context (R122). -/
def State.crossWait (s : State) (E : Env) (q req due : Nat) : State :=
  let x := s.ctx E.n E.k
  (s.setCtx E.n E.k { x with st := .wait, wait := .cross q req due }).switchAway E.n E.k

/-- The issue of a new request (R91): atomic; the caller waits. -/
def crossIssue (s : State) (E : Env) (q : Nat) : Res :=
  if s.rf (.xqcfg q) xqcfg_EN = 0 then .trap (trapCross 1) (s.crossTimedOut E q)
  else
    let s := (s.dropReply E.n E.k).boundary (.xqcfg q)
    let due := s.now + s.rf (.xqcfg q) xqcfg_TIMEOUT * 1000
    let req := s.reqNo
    let regs := (List.range 8).map (fun i => windowReg s E (16 + i))
    let caps := (List.range 4).map (fun i => rdC s E (10 + i) (i + 1))
    let stale := (s.xout.filter (fun e => decide (e.2.core = E.n) && decide (e.2.ctx = E.k))).map (fun e => e.1)
    let s := { s with
      reqNo := (req + 1) % 2 ^ 32
      xq := tset s.xq q (tget s.xq q [] ++ [(⟨req, E.n, E.k, regs, caps, due⟩ : CrossReq)])
      xout := tset (s.xout.filter (fun e => !(stale.contains e.1))) req ⟨E.n, E.k, q, due⟩
      free := s.free + 1 }
    .hold ((s.xqOcc q).crossWait E q req due)

/-- A CROSS that resumes the wait for a request (R96): a reply held is delivered, and the stream is fetched again (R277); a lost or expired
request raises CROSS_TIMEOUT, for which the context waits at the CROSS while the other one holds EXL (R124). DESIGN CHOICE, safe: a
reply that came in time and is held is delivered though TIMEOUT has passed before the resumption. -/
def crossResume (s : State) (E : Env) (q req : Nat) : Res :=
  let x := s.ctx E.n E.k
  match x.reply with
  | some (r, regs, caps) =>
    if r = req then
      let s := (s.deliver E regs caps).progressEnd E
      .done ({ s with xout := tdel s.xout req }.flushQueue E.n (s.core E.n).pace.last) false
    else if stEXL (s.ctx E.n (other E.k)).status then .stall
    else .trap (trapCross 0) (s.crossTimedOut E q)
  | none =>
    if stEXL (s.ctx E.n (other E.k)).status ∧ (match tfind s.xout req with
        | none => true
        | some o => s.xlost.contains req || decide (o.due ≤ s.now)) = true then .stall else
    match tfind s.xout req with
    | none => .trap (trapCross 0) (s.crossTimedOut E q)
    | some o =>
      if s.xlost.contains req then
        let s := s.crossTimedOut E q
        .trap (trapCross 2) { s with xout := tdel s.xout req, xlost := s.xlost.filter (fun r => decide (r ≠ req)) }
      else if o.due ≤ s.now then
        let s := s.crossTimedOut E q
        .trap (trapCross 0) { s with xout := tdel s.xout req }
      else .hold ({ s with free := s.free + 1 }.crossWait E q req o.due)

/-- The progress in MPROG is that of a wait of the routine at this instruction (R314). -/
def resumesWait (routine : Nat) (E : Env) (s : State) : Bool :=
  let m := seeSr s E nMPROG
  !(stEXL (seeStatus s E)) && decide (fld m 63 56 = routine) && flag m 48 && decide (fld m 47 32 = bits E.pc 17 2)

/-- The routine of an instruction that forms a request and waits for it: that of the wait when it resumes, otherwise that of the issue. -/
def waitOrIssue (wait issue : Nat) (E : Env) (s : State) (_ : Option Nat) : Option Nat :=
  some (if resumesWait wait E s then wait else issue)

/-- CROSS (R87, R91, R96); in a read-only remote-PASS service it raises CAP_PERM with EINFO[21] (R515). -/
def insCross (ca : Nat) : InsDef :=
  { insXfer (encC 0x1E 2 0 ca 0) false (some rtXISSUE) (fun E s =>
    let c := rdC s E 0 ca
    if (s.ctx E.n E.k).tx.service = 3 then .trap (trapPerm ca (2 ^ 21) c.cur) s
    else if !c.valid then .trap (trapInvalid c ca) s
    else if c.otype ≠ otCROSS then .trap (if c.isSealed then trapSealed c ca else trapPerm ca 0 c.cur) s
    else if 64 ≤ c.cur then .trap ⟨ecCAP_INVALID, capInfo ca + 2 ^ 5, c.cur, 0⟩ s
    else
      let q := c.cur
      let world := (s.ctx E.n E.k).world
      if c.world ≠ crossWorld q ∨ c.world = world then .trap (trapPerm ca (2 ^ 16) c.cur) s
      else
        if resumesWait rtCROSS E s then crossResume s E q (fld (seeSr s E nMPROG) 31 0)
        else crossIssue s E q)
    with which := waitOrIssue rtCROSS rtXISSUE, compared := fun E s => some [.c (rdC s E 0 ca)] }

/-- The command CROSS: issue of the instruction. -/
def execCross (h : Hdr) (ca : Nat) (s : State) : Host.Outcome State Fault Refusal := issue h (insCross ca) s


/-- The reply of a service reaches its caller (R94, R96, R97): delivered to a caller that waits, held for one that was
interrupted, otherwise discarded and counted in LATE. -/
def State.crossReply (s : State) (q req : Nat) (regs : List Word) (caps : List Cap) : State :=
  let late := fun (s : State) => s.addRf (.xqstat q) xqstat_LATE 1
  match tfind s.xout req with
  | none => late s
  | some o =>
    let x := s.ctx o.core o.ctx
    let caps := caps.map (crossFilter x.world)
    let E := s.waitEnv o.core o.ctx
    if x.wait = .cross q req o.due then
      let s := (s.deliver E regs caps).progressEnd E
      let s := { s with xout := tdel s.xout req }
      let waits := decide ((s.ctx o.core o.ctx).st = .wait)
      let s := s.complete E
      if waits then s.wake o.core o.ctx else s
    else if s.now < o.due then s.setCtx o.core o.ctx { x with reply := some (req, regs, caps) }
    else late { s with xout := tdel s.xout req }

/-- XREPLY (R94, R215): the reply, then the serving context becomes idle with all registers cleared. -/
def insXreply : InsDef :=
  { insXfer (encC 0x1E 3 0 0 0) false (some rtXREPLY) (fun E s =>
    let tx := (s.ctx E.n E.k).tx
    if tx.service ≠ 1 then .trap trapPRIV s
    else
      let regs := (List.range 8).map (fun i => windowReg s E i)
      let caps := (List.range 4).map (fun i => rdC s E (10 + i) (i + 1))
      let s := { s with free := s.free + 1 }
      .hold ((s.releaseCtx E.n E.k).crossReply tx.queue tx.req regs caps))
    with compared := fun _ _ => some [] }

/-- The command XREPLY: issue of the instruction. -/
def execXreply (h : Hdr) (s : State) : Host.Outcome State Fault Refusal := issue h insXreply s

/-- The start of a service for a request on context k of core n (R92): none when a descriptor fault ends it. -/
def crossStart (s : State) (q : Nat) (r : CrossReq) (n k : Nat) : Option State × State :=
  let world := crossWorld q
  let E := startEnv n k
  let gva := fld (s.reg (.xqentry q)) 63 6 * 64
  let cva := fld (s.reg (.xqctx q)) 63 7 * 128
  match readDesc s E world gva 64 with
  | (none, s) => (none, s)
  | (some ws, s) =>
    if (gateTags ws 0 gva).isSome then (none, s)
    else match gateOf ws 0 gva world with
      | .error _ => (none, s)
      | .ok g =>
        match readDesc s E world cva 128 with
        | (none, s) => (none, s)
        | (some ds, s) =>
          let cc := descCap ds 6
          if !(ctxCapOk cc world) || decide (g.code.cur % 4 ≠ 0) then (none, s)
          else
            let ring := (List.range 8).zip r.regs
            let caps := ((List.range 4).zip r.caps).map (fun e => (e.1 + 1, crossFilter world e.2))
            let tx := { Tx.none with service := 1, queue := q, req := r.req }
            (some (s.startCtx n k (decide (s.rf (.xqcfg q) xqcfg_SUP = 1)) g.code g.data cc caps [] ring tx), s)

/-- CROSS_SERVICE_START (R92): the request at the head of queue q starts on the pair the placement engine chooses. A
descriptor fault ends the request as reason 2, with an event whose subject is the context. -/
def execCrossServiceStart (q : Nat) (s : State) : Host.Outcome State Fault Refusal :=
  if 64 ≤ q then .refused .illFormed
  else if !s.serving then .next s
  else
    match tget s.xq q [] with
    | [] => .next s
    | r :: rest =>
      match s.choosePair (64 + q) (s.rf (.xqcfg q) xqcfg_SERVERS) (crossWorld q) none none with
      | none => .next s
      | some p =>
        let n := 2 * p
        let k := (s.idleCtx n).getD 0
        match s.startWaits (64 + q) (startEnv n k) [(crossWorld q, fld (s.reg (.xqentry q)) 63 6 * 64, 64),
            (crossWorld q, fld (s.reg (.xqctx q)) 63 7 * 128, 128)] with
        | some s => .next s
        | none =>
        let s := { s.startGoes (64 + q) with xq := tset s.xq q rest, lastPick := tset s.lastPick (64 + q) p }.xqOcc q
        match crossStart s q r n k with
        | (some s, _) => .next (s.startChecked n rtXSTART)
        | (none, s) =>
          let s := s.raise 13 (2 * n + k) 0x41 0 0
          .next { s with xlost := s.xlost ++ [r.req] }

/-- CROSS_TIMEOUT (R95): a waiting CROSS of a context ends, at once with reason 2 when its server is lost or its service
cannot start, otherwise with reason 0 when TIMEOUT has expired since its issue. -/
def execCrossTimeout (n k : Nat) (s : State) : Host.Outcome State Fault Refusal :=
  if 112 ≤ n ∨ 2 ≤ k then .refused .illFormed
  else
    match (s.ctx n k).wait with
    | .cross q req due =>
      if stEXL (s.ctx n (other k)).status then .next s
      else
        let E := s.waitEnv n k
        let lost := s.xlost.contains req
        let s := if lost then s else s.advanceTo due
        let waits := decide ((s.ctx n k).st = .wait)
        let s := s.setCtx n k { s.ctx n k with wait := .none }
        let s := (if waits then s.wake n k else s).crossTimedOut E q
        let s := { s with xout := tdel s.xout req, xlost := s.xlost.filter (fun r => decide (r ≠ req)) }
        .next (s.fail E (trapCross (if lost then 2 else 0)))
    | _ => .next s

end Sys2Proof.Machine
end

