-- ==== Sys2Proof/Machine/Derive.lean ====
section
/-! DEFINITION. Capability derivation, field reads and sealing: groups 0x1C and 0x1D ("Capability, system and vector
instruction reference", R208-R211; "Capabilities and tagged memory", R37-R40, R49-R51). -/

namespace Sys2Proof.Machine

open Sys2Proof

/-- Steps 1 and 2 of R211 on a source: tagged and valid, then unsealed. -/
def sourceTrap (c : Cap) (capNo : Nat) : Option Trap :=
  if !c.valid then some (trapInvalid c capNo) else if c.isSealed then some (trapSealed c capNo) else none

/-- An instruction of group 0x1C that writes a capability register (R209): f gives the result or a cause from the source and
the operand. Naming c15 as the destination is reserved (R110). -/
def insDerive (fn cd ca gs : Nat) (f : Cap → Word → Except Trap Cap) : InsDef :=
  { word := encC 0x1C fn cd ca gs, wideOk := false, repOk := true, reserved := decide (cd = 15), vector := false, priv := false,
    routine := none,
    run := fun E s =>
      match f (rdC s E 0 ca) (rdG s E 1 gs) with
      | .error t => .trap t s
      | .ok c => .done (wrC s E cd c 0) false }

/-- A derivation that requires its source tagged, valid and unsealed (R51). -/
def checked (ca : Nat) (f : Cap → Word → Except Trap Cap) (c : Cap) (x : Word) : Except Trap Cap :=
  match sourceTrap c ca with
  | some t => .error t
  | none => f c x

/-- CTRIM and CTRIMX: the narrowed capability, or CAP_BOUNDS with the requested base (R211). -/
def trimOrTrap (ca : Nat) (exact : Bool) (c : Cap) (x : Word) : Except Trap Cap :=
  match c.trim x.toNat exact with
  | some r => .ok r
  | none => .error ⟨ecCAP_BOUNDS, capInfo ca, c.cur, 0⟩

/-- A field read of group 0x1C (R209). -/
def insField (fn ca gd : Nat) (f : Cap → Word) : InsDef :=
  { word := encC 0x1C fn 0 ca gd, wideOk := false, repOk := true, reserved := false, vector := false, priv := false,
    routine := none, run := fun E s => .done (wrG s E gd (f (rdC s E 0 ca)) 0) false }

/-- The bounds field of the capability has no meaning as bounds: a key object, or a reserved E (R209). -/
def Cap.noBounds (c : Cap) : Bool := decide (c.otype = otKEY) || (decide (36 ≤ c.e) && decide (c.e ≤ 62))

/-- The value of CRDBASE (R209). -/
def Cap.readBase (c : Cap) : Word := if c.noBounds || decide (c.e = 63) then 0 else word c.base

/-- The value of CRDLEN (R209). -/
def Cap.readLen (c : Cap) : Word :=
  if c.noBounds then 0
  else if c.e = 63 then 0xFFFFFFFFFFFFFFFF
  else word (Nat.min (c.top - c.base) (2 ^ 64 - 1))

/-- The value of CRDFLAG (R209). -/
def Cap.readFlag (c : Cap) : Word := word (b2n c.tag + 2 * b2n c.isLocal + 4 * b2n c.world + 8 * b2n c.valid)


/-- CSTEP (R209): the cursor added to, under R37. -/
def insCstep (cd ca gs : Nat) : InsDef := insDerive 0x000 cd ca gs (checked ca (fun c x => .ok (c.setCursor ((c.cursor + x).toNat))))

/-- The command CSTEP: issue of the instruction. -/
def execCstep (h : Hdr) (cd ca gs : Nat) (s : State) : Host.Outcome State Fault Refusal := issue h (insCstep cd ca gs) s

/-- CAIM (R209): the cursor replaced, under R37. -/
def insCaim (cd ca gs : Nat) : InsDef := insDerive 0x001 cd ca gs (checked ca (fun c x => .ok (c.setCursor x.toNat)))

/-- The command CAIM: issue of the instruction. -/
def execCaim (h : Hdr) (cd ca gs : Nat) (s : State) : Host.Outcome State Fault Refusal := issue h (insCaim cd ca gs) s

/-- CTRIM (R209): bounds narrowed under R39. -/
def insCtrim (cd ca gs : Nat) : InsDef := insDerive 0x002 cd ca gs (checked ca (trimOrTrap ca false))

/-- The command CTRIM: issue of the instruction. -/
def execCtrim (h : Hdr) (cd ca gs : Nat) (s : State) : Host.Outcome State Fault Refusal := issue h (insCtrim cd ca gs) s

/-- CTRIMX (R209): bounds narrowed exactly under R40. -/
def insCtrimx (cd ca gs : Nat) : InsDef := insDerive 0x003 cd ca gs (checked ca (trimOrTrap ca true))

/-- The command CTRIMX: issue of the instruction. -/
def execCtrimx (h : Hdr) (cd ca gs : Nat) (s : State) : Host.Outcome State Fault Refusal := issue h (insCtrimx cd ca gs) s

/-- CSTRIP (R209): permissions masked. -/
def insCstrip (cd ca gs : Nat) : InsDef := insDerive 0x004 cd ca gs (checked ca (fun c x => .ok (c.withFld 63 50 (Nat.land c.perms (fld x 13 0)))))

/-- The command CSTRIP: issue of the instruction. -/
def execCstrip (h : Hdr) (cd ca gs : Nat) (s : State) : Host.Outcome State Fault Refusal := issue h (insCstrip cd ca gs) s

/-- CTETHER (R209): LOCAL set. -/
def insCtether (cd ca : Nat) : InsDef := insDerive 0x005 cd ca 0 (checked ca (fun c _ => .ok (c.withFld 32 32 1)))

/-- The command CTETHER: issue of the instruction. -/
def execCtether (h : Hdr) (cd ca : Nat) (s : State) : Host.Outcome State Fault Refusal := issue h (insCtether cd ca) s

/-- CCOPY (R209): all 128 bits and the tag, without a check. -/
def insCcopy (cd ca : Nat) : InsDef := insDerive 0x006 cd ca 0 (fun c _ => .ok c)

/-- The command CCOPY: issue of the instruction. -/
def execCcopy (h : Hdr) (cd ca : Nat) (s : State) : Host.Outcome State Fault Refusal := issue h (insCcopy cd ca) s

/-- CVOID (R209): the 128 bits with the tag clear, without a check. -/
def insCvoid (cd ca : Nat) : InsDef := insDerive 0x007 cd ca 0 (fun c _ => .ok { c with tag := false })

/-- The command CVOID: issue of the instruction. -/
def execCvoid (h : Hdr) (cd ca : Nat) (s : State) : Host.Outcome State Fault Refusal := issue h (insCvoid cd ca) s

/-- CRDCUR (R209): the cursor. -/
def insCrdcur (ca gd : Nat) : InsDef := insField 0x010 ca gd (fun c => c.cursor)

/-- The command CRDCUR: issue of the instruction. -/
def execCrdcur (h : Hdr) (ca gd : Nat) (s : State) : Host.Outcome State Fault Refusal :=
  issue h (insCrdcur ca gd) s

/-- CRDBASE (R209): the base. -/
def insCrdbase (ca gd : Nat) : InsDef := insField 0x011 ca gd (Cap.readBase)

/-- The command CRDBASE: issue of the instruction. -/
def execCrdbase (h : Hdr) (ca gd : Nat) (s : State) : Host.Outcome State Fault Refusal :=
  issue h (insCrdbase ca gd) s

/-- CRDLEN (R209): the length. -/
def insCrdlen (ca gd : Nat) : InsDef := insField 0x012 ca gd (Cap.readLen)

/-- The command CRDLEN: issue of the instruction. -/
def execCrdlen (h : Hdr) (ca gd : Nat) (s : State) : Host.Outcome State Fault Refusal :=
  issue h (insCrdlen ca gd) s

/-- CRDPERM (R209): the permissions. -/
def insCrdperm (ca gd : Nat) : InsDef := insField 0x013 ca gd (fun c => word c.perms)

/-- The command CRDPERM: issue of the instruction. -/
def execCrdperm (h : Hdr) (ca gd : Nat) (s : State) : Host.Outcome State Fault Refusal :=
  issue h (insCrdperm ca gd) s

/-- CRDTYPE (R209): the object type. -/
def insCrdtype (ca gd : Nat) : InsDef := insField 0x014 ca gd (fun c => word c.otype)

/-- The command CRDTYPE: issue of the instruction. -/
def execCrdtype (h : Hdr) (ca gd : Nat) (s : State) : Host.Outcome State Fault Refusal :=
  issue h (insCrdtype ca gd) s

/-- CRDFLAG (R209): tag, LOCAL, WORLD and validity. -/
def insCrdflag (ca gd : Nat) : InsDef := insField 0x015 ca gd (Cap.readFlag)

/-- The command CRDFLAG: issue of the instruction. -/
def execCrdflag (h : Hdr) (ca gd : Nat) (s : State) : Host.Outcome State Fault Refusal :=
  issue h (insCrdflag ca gd) s

/-- CRDHI (R209): the second word as held. -/
def insCrdhi (ca gd : Nat) : InsDef := insField 0x016 ca gd (fun c => c.hi)

/-- The command CRDHI: issue of the instruction. -/
def execCrdhi (h : Hdr) (ca gd : Nat) (s : State) : Host.Outcome State Fault Refusal :=
  issue h (insCrdhi ca gd) s

/-! ## Sealing: group 0x1D -/

/-- An instruction of group 0x1D of the ALU class (R210). src is the content of bits 13:9. -/
def insSeal (fn cd ca src : Nat) (f : Env → State → Except Trap Cap) : InsDef :=
  { word := encC 0x1D fn cd ca src, wideOk := false, repOk := true, reserved := decide (cd = 15), vector := false, priv := false,
    routine := none,
    run := fun E s =>
      match f E s with
      | .error t => .trap t s
      | .ok c => .done (wrC s E cd c 0) false }

/-- CCLOSE (R49, R211): the sealed target, or the first cause. DESIGN CHOICE, unsafe: CCLOSE, COPEN and CKDROP make no access,
and R53 gives no other EADDR; their CAP_PERM reports the cursor of the capability that lacks the permission. -/
def close (ca cs : Nat) (t a : Cap) (sup : Bool) : Except Trap Cap :=
  let hw := decide (a.cur = otGATE) || decide (a.cur = otCROSS)
  let lack := a.missing (pm pSEAL + (if hw then pm pSYS else 0))
  match (sourceTrap t ca).orElse (fun _ => sourceTrap a cs) with
  | some e => .error e
  | none =>
    if lack ≠ 0 ∨ neverSealed a.cur = true then .error (trapPerm cs lack a.cur)
    else if a.cur < a.base ∨ a.top ≤ a.cur ∨ 0xFFFF < a.cur then .error ⟨ecCAP_BOUNDS, capInfo cs, a.cur, 0⟩
    else if hw && !sup then .error trapPRIV
    else .ok ((t.withFld 49 34 a.cur).withFld 32 32 (b2n (t.isLocal || a.isLocal)))

/-- CCLOSE. -/
def insCclose (cd ca cs : Nat) : InsDef :=
  insSeal 0 cd ca (2 * cs) (fun E s => close ca cs (rdC s E 0 ca) (rdC s E 1 cs) (seeSup s E))

/-- The command CCLOSE: issue of the instruction. -/
def execCclose (h : Hdr) (cd ca cs : Nat) (s : State) : Host.Outcome State Fault Refusal := issue h (insCclose cd ca cs) s

/-- COPEN (R50, R211): the unsealed target, or the first cause. -/
def unclose (ca cs : Nat) (t a : Cap) : Except Trap Cap :=
  if !t.valid then .error (trapInvalid t ca)
  else
    match sourceTrap a cs with
    | some e => .error e
    | none =>
      let lack := a.missing (pm pUNSEAL)
      if t.otype = 0 ∨ 0xFFEF < t.otype then .error (trapPerm ca 0 t.cur)
      else if lack ≠ 0 ∨ a.cur ≠ t.otype then .error (trapPerm cs lack a.cur)
      else if a.cur < a.base ∨ a.top ≤ a.cur then .error ⟨ecCAP_BOUNDS, capInfo cs, a.cur, 0⟩
      else .ok ((t.withFld 49 34 0).withFld 32 32 (b2n (t.isLocal || a.isLocal)))

/-- COPEN. -/
def insCopen (cd ca cs : Nat) : InsDef :=
  insSeal 1 cd ca (2 * cs) (fun E s => unclose ca cs (rdC s E 0 ca) (rdC s E 1 cs))

/-- The command COPEN: issue of the instruction. -/
def execCopen (h : Hdr) (cd ca cs : Nat) (s : State) : Host.Outcome State Fault Refusal := issue h (insCopen cd ca cs) s

/-- ckdrop of R210. -/
def ckdrop (k : Cap) (x : Word) : Cap :=
  let r := (k.withFld 63 50 (Nat.land k.perms (fld x 13 0))).withFld 30 0 (Nat.land k.rights (fld x 44 14))
  if flag x 63 then r.withFld 32 32 1 else r

/-- CKDROP (R51, R210, R211). -/
def insCkdrop (cd ca gs : Nat) : InsDef :=
  insSeal 2 cd ca gs (fun E s =>
    let k := rdC s E 0 ca
    if !k.valid then .error (trapInvalid k ca)
    else if k.otype ≠ otKEY then .error (trapPerm ca 0 k.cur)
    else .ok (ckdrop k (rdG s E 1 gs)))

/-- The command CKDROP: issue of the instruction. -/
def execCkdrop (h : Hdr) (cd ca gs : Nat) (s : State) : Host.Outcome State Fault Refusal := issue h (insCkdrop cd ca gs) s

end Sys2Proof.Machine
end

