-- ==== Sys2Proof/Machine/Float.lean ====
section
/-! DEFINITION. IEEE 754 binary64 and binary32 arithmetic in exact integers, rounding to nearest, ties to even, with the
canonical quiet NaN and full subnormals (R182, R183). -/

namespace Sys2Proof.Machine

/-- A binary format: p fraction bits and w exponent bits. -/
structure Fmt where
  p : Nat
  w : Nat
  deriving DecidableEq, Repr

/-- binary64. -/
def f64 : Fmt := ⟨52, 11⟩
/-- binary32. -/
def f32 : Fmt := ⟨23, 8⟩
/-- The format FN[6] selects: 1 for binary32 (R183). -/
def fmtOf (single : Bool) : Fmt := if single then f32 else f64

/-- The exponent bias. -/
def Fmt.bias (f : Fmt) : Nat := 2 ^ (f.w - 1) - 1
/-- The width of the format. -/
def Fmt.width (f : Fmt) : Nat := 1 + f.w + f.p
/-- The canonical quiet NaN (R182). -/
def Fmt.nan (f : Fmt) : Nat := (2 ^ f.w - 1) * 2 ^ f.p + 2 ^ (f.p - 1)
/-- Infinity with a sign. -/
def Fmt.inf (f : Fmt) (neg : Bool) : Nat := b2n neg * 2 ^ (f.w + f.p) + (2 ^ f.w - 1) * 2 ^ f.p
/-- Zero with a sign. -/
def Fmt.zero (f : Fmt) (neg : Bool) : Nat := b2n neg * 2 ^ (f.w + f.p)

/-- A float value taken apart: a NaN, an infinity, or the exact value ±m·2^e. -/
inductive Fv where
  | nan
  | inf (neg : Bool)
  | fin (neg : Bool) (m : Nat) (e : Int)
  deriving DecidableEq, Repr

/-- The value a pattern stands for. -/
def Fmt.unpack (f : Fmt) (x : Nat) : Fv :=
  let neg := bit x (f.w + f.p)
  let ef := bits x (f.w + f.p - 1) f.p
  let m := x % 2 ^ f.p
  if ef = 2 ^ f.w - 1 then (if m = 0 then .inf neg else .nan)
  else if ef = 0 then .fin neg m (1 - (f.bias : Int) - f.p)
  else .fin neg (2 ^ f.p + m) ((ef : Int) - f.bias - f.p)

/-- The pattern of the value ±m·2^e rounded to nearest, ties to even; sticky says that the exact magnitude is a little more
than m·2^e. -/
def Fmt.round (f : Fmt) (neg : Bool) (m : Nat) (e : Int) (sticky : Bool) : Nat :=
  if m = 0 then f.zero neg
  else
    let top : Int := (Nat.log2 m : Int) + e
    let emin : Int := 1 - (f.bias : Int)
    let q : Int := (if top < emin then emin else top) - f.p
    let sh : Int := q - e
    let mant :=
      if sh ≤ 0 then m * 2 ^ (-sh).toNat
      else
        let k := sh.toNat
        let base := m / 2 ^ k
        let rem := m % 2 ^ k
        let half := 2 ^ (k - 1)
        if half < rem ∨ (rem = half ∧ (sticky = true ∨ base % 2 = 1)) then base + 1 else base
    let (mant, q) := if mant = 2 ^ (f.p + 1) then (2 ^ f.p, q + 1) else (mant, q)
    if mant < 2 ^ f.p then f.zero neg + mant
    else
      let ef := q + f.p + f.bias
      if (2 ^ f.w - 1 : Int) ≤ ef then f.inf neg
      else f.zero neg + ef.toNat * 2 ^ f.p + (mant - 2 ^ f.p)

/-- The exact sum of two finite values. -/
def finAdd (n1 : Bool) (m1 : Nat) (e1 : Int) (n2 : Bool) (m2 : Nat) (e2 : Int) : Bool × Nat × Int :=
  let e := if e1 < e2 then e1 else e2
  let a : Int := (m1 * 2 ^ (e1 - e).toNat : Nat)
  let b : Int := (m2 * 2 ^ (e2 - e).toNat : Nat)
  let s := (if n1 then -a else a) + (if n2 then -b else b)
  let neg := if s = 0 then n1 && n2 else decide (s < 0)
  (neg, s.natAbs, e)

/-- Sum of two values. -/
def Fmt.addV (f : Fmt) (a b : Fv) : Nat :=
  match a, b with
  | .nan, _ => f.nan
  | _, .nan => f.nan
  | .inf x, .inf y => if x = y then f.inf x else f.nan
  | .inf x, .fin _ _ _ => f.inf x
  | .fin _ _ _, .inf y => f.inf y
  | .fin n1 m1 e1, .fin n2 m2 e2 =>
    let (n, m, e) := finAdd n1 m1 e1 n2 m2 e2
    f.round n m e false

/-- The value with its sign inverted. -/
def Fv.neg : Fv → Fv
  | .nan => .nan
  | .inf s => .inf (!s)
  | .fin s m e => .fin (!s) m e

def Fmt.add (f : Fmt) (a b : Nat) : Nat := f.addV (f.unpack a) (f.unpack b)
def Fmt.sub (f : Fmt) (a b : Nat) : Nat := f.addV (f.unpack a) (f.unpack b).neg

/-- The exact product of two values, or a NaN. -/
def mulV (a b : Fv) : Fv :=
  match a, b with
  | .nan, _ => .nan
  | _, .nan => .nan
  | .inf x, .inf y => .inf (xor x y)
  | .inf x, .fin y m _ => if m = 0 then .nan else .inf (xor x y)
  | .fin x m _, .inf y => if m = 0 then .nan else .inf (xor x y)
  | .fin x m e, .fin y m' e' => .fin (xor x y) (m * m') (e + e')

/-- The pattern of an exact value. -/
def Fmt.pack (f : Fmt) (v : Fv) : Nat :=
  match v with
  | .nan => f.nan
  | .inf s => f.inf s
  | .fin s m e => f.round s m e false

def Fmt.mul (f : Fmt) (a b : Nat) : Nat := f.pack (mulV (f.unpack a) (f.unpack b))

/-- d + a × b with one rounding. -/
def Fmt.fma (f : Fmt) (d a b : Nat) : Nat := f.addV (mulV (f.unpack a) (f.unpack b)) (f.unpack d)

/-- Quotient. -/
def Fmt.div (f : Fmt) (a b : Nat) : Nat :=
  match f.unpack a, f.unpack b with
  | .nan, _ => f.nan
  | _, .nan => f.nan
  | .inf _, .inf _ => f.nan
  | .inf x, .fin y _ _ => f.inf (xor x y)
  | .fin x _ _, .inf y => f.zero (xor x y)
  | .fin x m e, .fin y m' e' =>
    if m' = 0 then (if m = 0 then f.nan else f.inf (xor x y))
    else
      let n := m * 2 ^ 128
      f.round (xor x y) (n / m') (e - e' - 128) (decide (n % m' ≠ 0))

/-- The integer square root of x, from bit i down, r being the root so far. -/
def isqrtFrom (x : Nat) : Nat → Nat → Nat
  | 0, r => r
  | i + 1, r =>
    let c := r + 2 ^ i
    isqrtFrom x i (if c * c ≤ x then c else r)

/-- Square root. -/
def Fmt.sqrt (f : Fmt) (a : Nat) : Nat :=
  match f.unpack a with
  | .nan => f.nan
  | .inf s => if s then f.nan else f.inf false
  | .fin s m e =>
    if m = 0 then f.zero s
    else if s then f.nan
    else
      let odd := e % 2 ≠ 0
      let m' := (if odd then 2 * m else m) * 2 ^ 128
      let e' := (if odd then e - 1 else e) - 128
      let r := isqrtFrom m' 96 0
      f.round false r (e' / 2) (decide (r * r ≠ m'))

/-- a < b of two values that are not NaN; with zeroOrder, −0 lies below +0. -/
def ltV (zeroOrder : Bool) (a b : Fv) : Bool :=
  match a, b with
  | .inf x, .inf y => x && !y
  | .inf x, .fin _ _ _ => x
  | .fin _ _ _, .inf y => !y
  | .fin x m e, .fin y m' e' =>
    if m = 0 ∧ m' = 0 then zeroOrder && x && !y
    else
      let d := finAdd x m e (!y) m' e'
      decide (d.2.1 ≠ 0) && d.1
  | _, _ => false

/-- The value is a NaN. -/
def Fmt.isNan (f : Fmt) (a : Nat) : Bool := decide (f.unpack a = .nan)

def Fmt.lt (f : Fmt) (a b : Nat) : Bool := ltV false (f.unpack a) (f.unpack b)
/-- Unordered: some operand is a NaN. -/
def Fmt.un (f : Fmt) (a b : Nat) : Bool := f.isNan a || f.isNan b
def Fmt.eq (f : Fmt) (a b : Nat) : Bool := !(f.un a b) && !(f.lt a b) && !(f.lt b a)
def Fmt.le (f : Fmt) (a b : Nat) : Bool := !(f.un a b) && !(f.lt b a)

/-- minimumNumber, with −0 below +0 (R183). -/
def Fmt.min (f : Fmt) (a b : Nat) : Nat :=
  if f.isNan a then (if f.isNan b then f.nan else b)
  else if f.isNan b then a
  else if ltV true (f.unpack b) (f.unpack a) then b else a

/-- maximumNumber, with −0 below +0 (R183). -/
def Fmt.max (f : Fmt) (a b : Nat) : Nat :=
  if f.isNan a then (if f.isNan b then f.nan else b)
  else if f.isNan b then a
  else if ltV true (f.unpack a) (f.unpack b) then b else a

/-- The sign bit inverted. -/
def Fmt.neg (f : Fmt) (a : Nat) : Nat := Nat.xor a (2 ^ (f.w + f.p))
/-- The sign bit cleared. -/
def Fmt.abs (f : Fmt) (a : Nat) : Nat := a % 2 ^ (f.w + f.p)

/-- FCLASS (R183). -/
def Fmt.classify (f : Fmt) (a : Nat) : Nat :=
  let neg := bit a (f.w + f.p)
  let ef := bits a (f.w + f.p - 1) f.p
  match f.unpack a with
  | .nan => 2 ^ 8
  | .inf s => if s then 2 ^ 0 else 2 ^ 7
  | .fin _ m _ =>
    if m = 0 then (if neg then 2 ^ 3 else 2 ^ 4)
    else if ef = 0 then (if neg then 2 ^ 2 else 2 ^ 5)
    else if neg then 2 ^ 1 else 2 ^ 6

/-- The pattern of an integer. -/
def Fmt.ofInt (f : Fmt) (i : Int) : Nat := f.round (decide (i < 0)) i.natAbs 0 false

/-- A finite value as an integer: truncated, or rounded to nearest even. -/
def finToInt (neg : Bool) (m : Nat) (e : Int) (nearest : Bool) : Int :=
  let mag :=
    if 0 ≤ e then m * 2 ^ e.toNat
    else
      let k := (-e).toNat
      let base := m / 2 ^ k
      let rem := m % 2 ^ k
      let half := 2 ^ (k - 1)
      if nearest ∧ (half < rem ∨ (rem = half ∧ base % 2 = 1)) then base + 1 else base
  if neg then -(mag : Int) else mag

/-- A float as an integer that saturates at lo and hi; a NaN gives 0 (R183). -/
def Fmt.toInt (f : Fmt) (a : Nat) (nearest : Bool) (lo hi : Int) : Int :=
  match f.unpack a with
  | .nan => 0
  | .inf s => if s then lo else hi
  | .fin s m e =>
    let i := finToInt s m e nearest
    if i < lo then lo else if hi < i then hi else i

/-- A float of one format in another. -/
def convert (g f : Fmt) (a : Nat) : Nat := f.pack (g.unpack a)

end Sys2Proof.Machine
end

