-- ==== Sys2Proof/Machine/FloatIns.lean ====
section
/-! DEFINITION. Float register instructions: groups 0x08 and 0x09 (R182, R183). A binary32 operand is read from bits 31:0 and
a binary32 result has bits 63:32 zero. -/

namespace Sys2Proof.Machine

open Sys2Proof

/-- The operand of a format: bits 31:0 for binary32 (R182). -/
def fop (single : Bool) (a : Word) : Nat := if single then a.toNat % 2 ^ 32 else a.toNat

/-- A float instruction of two operands, of the multiply class. -/
def insF2 (fn : Nat) (single : Bool) (rd ra rb : Nat) (f : Fmt → Nat → Nat → Nat) : InsDef :=
  insReg2 (encT 0x08 (fn + 64 * b2n single) rd ra rb) rd ra rb 2
    (fun a b => word (f (fmtOf single) (fop single a) (fop single b)))

/-- A float instruction of one operand in group 0x09, of the multiply class. -/
def insF1 (fn : Nat) (single : Bool) (rd ra : Nat) (f : Fmt → Nat → Nat) : InsDef :=
  insReg1 (encT 0x09 (fn + 64 * b2n single) rd ra 0) rd ra 2 false (fun a => word (f (fmtOf single) (fop single a)))

/-- A float compare (R183). -/
def insFCmp (fn : Nat) (single : Bool) (pd ra rb : Nat) (f : Fmt → Nat → Nat → Bool) : InsDef :=
  { word := encT 0x09 (fn + 64 * b2n single) (4 * pd) ra rb, wideOk := false, repOk := true, reserved := false,
    vector := false, priv := false, routine := none,
    run := fun E s => .done (wrP s E pd (f (fmtOf single) (fop single (rdG s E 0 ra)) (fop single (rdG s E 1 rb))) 1) false }

/-- FADD (R183). -/
def insFadd (f : Bool) (rd ra rb : Nat) : InsDef :=
  insF2 0 f rd ra rb Fmt.add

/-- The command FADD: issue of the instruction. -/
def execFadd (h : Hdr) (f : Bool) (rd ra rb : Nat) (s : State) : Host.Outcome State Fault Refusal :=
  issue h (insFadd f rd ra rb) s

/-- FSUB (R183). -/
def insFsub (f : Bool) (rd ra rb : Nat) : InsDef :=
  insF2 1 f rd ra rb Fmt.sub

/-- The command FSUB: issue of the instruction. -/
def execFsub (h : Hdr) (f : Bool) (rd ra rb : Nat) (s : State) : Host.Outcome State Fault Refusal :=
  issue h (insFsub f rd ra rb) s

/-- FMUL (R183). -/
def insFmul (f : Bool) (rd ra rb : Nat) : InsDef :=
  insF2 2 f rd ra rb Fmt.mul

/-- The command FMUL: issue of the instruction. -/
def execFmul (h : Hdr) (f : Bool) (rd ra rb : Nat) (s : State) : Host.Outcome State Fault Refusal :=
  issue h (insFmul f rd ra rb) s

/-- FMIN (R183). -/
def insFmin (f : Bool) (rd ra rb : Nat) : InsDef :=
  insF2 5 f rd ra rb Fmt.min

/-- The command FMIN: issue of the instruction. -/
def execFmin (h : Hdr) (f : Bool) (rd ra rb : Nat) (s : State) : Host.Outcome State Fault Refusal :=
  issue h (insFmin f rd ra rb) s

/-- FMAX (R183). -/
def insFmax (f : Bool) (rd ra rb : Nat) : InsDef :=
  insF2 6 f rd ra rb Fmt.max

/-- The command FMAX: issue of the instruction. -/
def execFmax (h : Hdr) (f : Bool) (rd ra rb : Nat) (s : State) : Host.Outcome State Fault Refusal :=
  issue h (insFmax f rd ra rb) s

/-- FDIV (R183), waited, on the shared divider (R181). -/
def insFdiv (f : Bool) (rd ra rb : Nat) : InsDef :=
  { insF2 3 f rd ra rb Fmt.div with
    run := fun E s =>
      divideRes s E rd (word ((fmtOf f).div (fop f (rdG s E 0 ra)) (fop f (rdG s E 1 rb)))) }

/-- The command FDIV: issue of the instruction. -/
def execFdiv (h : Hdr) (f : Bool) (rd ra rb : Nat) (s : State) : Host.Outcome State Fault Refusal :=
  issue h (insFdiv f rd ra rb) s

/-- FSQRT (R183), waited, on the shared divider (R181). -/
def insFsqrt (f : Bool) (rd ra : Nat) : InsDef :=
  { insReg1 (encT 0x08 (4 + 64 * b2n f) rd ra 0) rd ra 0 false id with
    run := fun E s =>
      divideRes s E rd (word ((fmtOf f).sqrt (fop f (rdG s E 0 ra)))) }

/-- The command FSQRT: issue of the instruction. -/
def execFsqrt (h : Hdr) (f : Bool) (rd ra : Nat) (s : State) : Host.Outcome State Fault Refusal :=
  issue h (insFsqrt f rd ra) s

/-- FMAC (R183): d + a × b, fused, where d is rd before the instruction. -/
def insFmac (f : Bool) (rd ra rb : Nat) : InsDef :=
  { insF2 7 f rd ra rb Fmt.add with
    run := fun E s =>
      .done (wrG s E rd (word ((fmtOf f).fma (fop f (rdG s E 2 rd)) (fop f (rdG s E 0 ra)) (fop f (rdG s E 1 rb)))) 2) false }

/-- The command FMAC: issue of the instruction. -/
def execFmac (h : Hdr) (f : Bool) (rd ra rb : Nat) (s : State) : Host.Outcome State Fault Refusal :=
  issue h (insFmac f rd ra rb) s

/-- FCEQ (R183). -/
def insFceq (f : Bool) (pd ra rb : Nat) : InsDef :=
  insFCmp 0 f pd ra rb Fmt.eq

/-- The command FCEQ: issue of the instruction. -/
def execFceq (h : Hdr) (f : Bool) (pd ra rb : Nat) (s : State) : Host.Outcome State Fault Refusal :=
  issue h (insFceq f pd ra rb) s

/-- FCLT (R183). -/
def insFclt (f : Bool) (pd ra rb : Nat) : InsDef :=
  insFCmp 1 f pd ra rb Fmt.lt

/-- The command FCLT: issue of the instruction. -/
def execFclt (h : Hdr) (f : Bool) (pd ra rb : Nat) (s : State) : Host.Outcome State Fault Refusal :=
  issue h (insFclt f pd ra rb) s

/-- FCLE (R183). -/
def insFcle (f : Bool) (pd ra rb : Nat) : InsDef :=
  insFCmp 2 f pd ra rb Fmt.le

/-- The command FCLE: issue of the instruction. -/
def execFcle (h : Hdr) (f : Bool) (pd ra rb : Nat) (s : State) : Host.Outcome State Fault Refusal :=
  issue h (insFcle f pd ra rb) s

/-- FCUN (R183). -/
def insFcun (f : Bool) (pd ra rb : Nat) : InsDef :=
  insFCmp 3 f pd ra rb Fmt.un

/-- The command FCUN: issue of the instruction. -/
def execFcun (h : Hdr) (f : Bool) (pd ra rb : Nat) (s : State) : Host.Outcome State Fault Refusal :=
  issue h (insFcun f pd ra rb) s

/-- FNEG (R183). -/
def insFneg (f : Bool) (rd ra : Nat) : InsDef :=
  insF1 8 f rd ra Fmt.neg

/-- The command FNEG: issue of the instruction. -/
def execFneg (h : Hdr) (f : Bool) (rd ra : Nat) (s : State) : Host.Outcome State Fault Refusal :=
  issue h (insFneg f rd ra) s

/-- FABS (R183). -/
def insFabs (f : Bool) (rd ra : Nat) : InsDef :=
  insF1 9 f rd ra Fmt.abs

/-- The command FABS: issue of the instruction. -/
def execFabs (h : Hdr) (f : Bool) (rd ra : Nat) (s : State) : Host.Outcome State Fault Refusal :=
  issue h (insFabs f rd ra) s

/-- FCLASS (R183). -/
def insFclass (f : Bool) (rd ra : Nat) : InsDef :=
  insF1 10 f rd ra Fmt.classify

/-- The command FCLASS: issue of the instruction. -/
def execFclass (h : Hdr) (f : Bool) (rd ra : Nat) (s : State) : Host.Outcome State Fault Refusal :=
  issue h (insFclass f rd ra) s

/-- FCVTIF (R183): signed 64-bit integer to the format. -/
def insFcvtif (f : Bool) (rd ra : Nat) : InsDef :=
  insReg1 (encT 0x09 (16 + 64 * b2n f) rd ra 0) rd ra 2 false (fun a => word ((fmtOf f).ofInt (signed a)))

/-- The command FCVTIF: issue of the instruction. -/
def execFcvtif (h : Hdr) (f : Bool) (rd ra : Nat) (s : State) : Host.Outcome State Fault Refusal :=
  issue h (insFcvtif f rd ra) s

/-- FCVTUF (R183): unsigned 64-bit integer to the format. -/
def insFcvtuf (f : Bool) (rd ra : Nat) : InsDef :=
  insReg1 (encT 0x09 (17 + 64 * b2n f) rd ra 0) rd ra 2 false (fun a => word ((fmtOf f).ofInt a.toNat))

/-- The command FCVTUF: issue of the instruction. -/
def execFcvtuf (h : Hdr) (f : Bool) (rd ra : Nat) (s : State) : Host.Outcome State Fault Refusal :=
  issue h (insFcvtuf f rd ra) s

/-- FCVTFI (R183): to a signed 64-bit integer, truncated. -/
def insFcvtfi (f : Bool) (rd ra : Nat) : InsDef :=
  insReg1 (encT 0x09 (18 + 64 * b2n f) rd ra 0) rd ra 2 false (fun a => wrap ((fmtOf f).toInt (fop f a) false (-2 ^ 63) (2 ^ 63 - 1)))

/-- The command FCVTFI: issue of the instruction. -/
def execFcvtfi (h : Hdr) (f : Bool) (rd ra : Nat) (s : State) : Host.Outcome State Fault Refusal :=
  issue h (insFcvtfi f rd ra) s

/-- FCVTFIR (R183): to a signed 64-bit integer, rounded to nearest even. -/
def insFcvtfir (f : Bool) (rd ra : Nat) : InsDef :=
  insReg1 (encT 0x09 (19 + 64 * b2n f) rd ra 0) rd ra 2 false (fun a => wrap ((fmtOf f).toInt (fop f a) true (-2 ^ 63) (2 ^ 63 - 1)))

/-- The command FCVTFIR: issue of the instruction. -/
def execFcvtfir (h : Hdr) (f : Bool) (rd ra : Nat) (s : State) : Host.Outcome State Fault Refusal :=
  issue h (insFcvtfir f rd ra) s

/-- FCVTFU (R183): to an unsigned 64-bit integer, truncated. -/
def insFcvtfu (f : Bool) (rd ra : Nat) : InsDef :=
  insReg1 (encT 0x09 (20 + 64 * b2n f) rd ra 0) rd ra 2 false (fun a => wrap ((fmtOf f).toInt (fop f a) false 0 (2 ^ 64 - 1)))

/-- The command FCVTFU: issue of the instruction. -/
def execFcvtfu (h : Hdr) (f : Bool) (rd ra : Nat) (s : State) : Host.Outcome State Fault Refusal :=
  issue h (insFcvtfu f rd ra) s

/-- FCVTFF (R183): the other format converted to the FN[6] format. -/
def insFcvtff (f : Bool) (rd ra : Nat) : InsDef :=
  insReg1 (encT 0x09 (24 + 64 * b2n f) rd ra 0) rd ra 2 false (fun a => word (convert (fmtOf (!f)) (fmtOf f) (fop (!f) a)))

/-- The command FCVTFF: issue of the instruction. -/
def execFcvtff (h : Hdr) (f : Bool) (rd ra : Nat) (s : State) : Host.Outcome State Fault Refusal :=
  issue h (insFcvtff f rd ra) s

end Sys2Proof.Machine
end

