-- ==== Sys2Proof/Machine/Boundary.lean ====
section
/-! DEFINITION. Instruction boundaries: which context stands at one, how a wait is left for an entry, and how an asynchronous machine
check is taken ("Exceptions and interrupts", R244, R256, R262; "Micro-routines and the control store", R308, R312-R314). -/

namespace Sys2Proof.Machine

open Sys2Proof

/-- The wait of a context at its instruction ends. -/
def State.endWait (s : State) (n k : Nat) : State := s.setCtx n k { s.ctx n k with wait := .none }

/-- The stream of context k of core n lets something come before its next instruction: no halt is due (R374), the data of a far access is
there (R286), the next instruction is not the younger of a pair that has begun to issue (R273), and no cause that the context met under
the other's EXL comes first, but for a WALK_ERROR that an interrupt may precede (R124, R354). -/
def State.betweenIssues (s : State) (n k : Nat) : Bool :=
  let c := s.core n
  !(s.haltDue n) && !c.farWait && !c.pace.older
    && (match (c.ctx k).due with
        | none => true
        | some d => decide (d.1 = ecWALK_ERROR))

/-- No handler holds the core, and the context's mask is open: GM is 1 and EXL is 0 in it, and EXL is 0 in the other context (R124,
R256). -/
def State.unmasked (s : State) (n k : Nat) : Bool :=
  let st := s.nextStatus n k
  stGM st && !(stEXL st) && !(stEXL (s.ctx n (other k)).status)

/-- Context k of core n takes an asynchronous machine check with the given code now, if it holds one: the core executes, the context
runs or waits at a boundary, nothing masks it, and no cause that comes before it in R262 is held. -/
def State.maReady (s : State) (n k code : Nat) : Option MaCause :=
  let x := s.ctx n k
  let mine := (s.core n).ma.filter (fun m => decide (m.ctx = k))
  if s.coreRuns n && (decide (x.st = .run) || decide (x.st = .wait)) && x.atBoundary && !x.stopped && s.betweenIssues n k && s.unmasked n k
      && (decide (code = ecBUSERR_ASYNC) || !(mine.any (fun m => decide (m.code = ecBUSERR_ASYNC)))) then
    mine.find? (fun m => decide (m.code = code))
  else none

/-- The cause is taken: it leaves the core, and the exception is entered at the next instruction (R244, R257). -/
def State.takeMa (s : State) (n k : Nat) (m : MaCause) : State :=
  let c := s.core n
  let s := (s.setCore n { c with ma := c.ma.erase m }).holdCheck n
  let s := (s.leaveWait n k).switchTo n k
  s.enterExc n k ⟨m.code, m.info, m.addr, 0⟩ (s.pc n k)

end Sys2Proof.Machine
end

