-- ==== Sys2Proof/Machine/Handler.lean ====
section
/-! DEFINITION. Handler transactions: the start of a frame, HANDLER_END with its commit, aborts, deadlines and the watchdog
("Ingress, parsing, dispatch and commit", R424-R438; "Capability, system and vector instruction reference", R220, R221). -/

namespace Sys2Proof.Machine

open Sys2Proof

/-! ## The journal and egress as a handler reaches them -/

/-- Bytes staged in the journal and not durable: sealed entries and records still to be sealed. -/
def State.stagedBytes (s : State) : Nat :=
  (s.staged.map (fun e => e.bytes.length)).sum + (s.sealing.map (fun r => r.bytes.length)).sum

/-- Step 2 of R221 with R467: the record takes the next ticket and goes to the sealing unit. -/
def State.journalTake (s : State) (f : Frame) (bytes : List Nat) : State :=
  let seq := (s.reg .jcSeq).toNat
  { s.setReg .jcSeq (word (seq + 1)) with
    sealing := s.sealing ++ [(⟨seq, f.fmt, f.attempt, bytes.map (BitVec.ofNat 8)⟩ : JRec)] }

/-- Step 3 of R221 with R483: the response waits in egress for ticket `wait`; seq is the ticket it reports, 0 for none. -/
def State.egressTake (s : State) (f : Frame) (len seq wait : Nat) : State :=
  { s with egr := s.egr ++ [(⟨f.lane, some f.slot, len, 0, f.tag, seq, wait, f.src⟩ : Resp)] }

/-! ## The commit -/

/-- The word writes of the lines that context k holds, in the order in which the lines took their entries (R434). -/
def State.commitOps (s : State) (n k : Nat) : List (Tgt × WOp) :=
  (s.buffer n).flatMap (fun e => match e with
    | .line k' t _ _ ws =>
      if k' = k then (ws.filter (fun w => decide (t ≠ .dram) || backedDram w.addr)).map (fun w => (t, (⟨w.addr, w.mask, w.data, w.kind⟩ : WOp)))
      else []
    | _ => [])

/-- The state with a list of word writes applied, each under its row of R59 against the tags it finds; none when one of them
would fault (R434). -/
def commitAll (s : State) (agent : Option (Nat × Nat)) : List (Tgt × WOp) → Option State
  | [] => some s
  | (t, o) :: r =>
    let (m, ok) := (s.memOf t).applyOp o
    if ok then commitAll ((s.setMemOf t m).lineWritten t (lineOf o.addr) agent) agent r else none

/-- The request of a deferred store or PASS (R214, R431, R434). -/
def deferredReq (s : State) (n k : Nat) : CbEntry → Option RemoteReq
  | .line _ _ _ _ _ => none
  | .rstore k' node ea size data tag =>
    if k' = k then
      some { env := startEnv n k, typ := pkSTORE, reqid := 0, node := node, link := 0, addr := ea,
             arg := size + (if tag = tFLT then 64 else 0), payload := (toBytes data size).map (BitVec.ofNat 8), tags := [tag],
             capNo := 0, mode := 0, dst := 0, size := size, wb := none, due := s.now + s.rtmo, resends := 0 }
    else none
  | .rcap k' node ea c =>
    if k' = k then
      some { env := startEnv n k, typ := pkSTORE, reqid := 0, node := node, link := 0, addr := ea, arg := 16 + 32,
             payload := capBytes c, tags := capTags c, capNo := 0, mode := 0, dst := 0, size := 16, wb := none,
             due := s.now + s.rtmo, resends := 0 }
    else none
  | .rpass k' node ro gate args regs =>
    if k' = k then
      some { env := startEnv n k, typ := pkPASS, reqid := 0, node := node, link := 0, addr := gate.cur, arg := b2n ro,
             payload := capBytes gate ++ args.flatMap capBytes ++ wordBytes (regs.map BitVec.toNat),
             tags := capTags gate ++ args.flatMap capTags ++ List.replicate 8 tINT, capNo := 0, mode := 4, dst := 0, size := 64,
             wb := none, due := s.now + s.rtmo, resends := 0 }
    else none

/-- A request that nothing waits for is sent; one that cannot be sent is reported as DEFER_FAIL (R259, R434),
and one behind an unanswered request of its context to the same plot is kept back (R510). -/
def State.post (s : State) (r : RemoteReq) : State :=
  if s.plotBusy r.env.n r.env.k r.addr then { s with fab := { s.fab with postQ := s.fab.postQ ++ [(false, r)] } }
  else
  let (id, s) := s.newReq
  match s.send (s.mkPkt r.typ r.node id r.arg r.addr r.payload r.tags) with
  | (none, s) => s.raise 0 r.env.n 0x14 r.env.k r.addr
  | (some l, s) => { s with posted := s.posted ++ [{ r with reqid := id, link := l }] }

/-- The commit of the transaction of context k (R434): none when it fails. Its stores to addresses with no memory become late bus errors of
the commit (R258). -/
def State.commitTx (s : State) (n k : Nat) : Option State :=
  if (s.ctx n k).tx.broken then none
  else
    match commitAll s (some (n, k)) (s.commitOps n k) with
    | none => none
    | some s' =>
      let reqs := (s.buffer n).filterMap (deferredReq s n k)
      let s := reqs.foldl (fun s r => s.post r) (s'.dropBuffer n k)
      some ((s.ctx n k).tx.late.foldl (fun s e => s.lateBus (startEnv n k) e.1 e.2 true) s)

/-! ## HANDLER_END -/

/-- The checks of R220 that concern the record: its chunks, or a cause, or a wait. -/
def recordCheck (s : State) (E : Env) (c : Cap) (ca : Nat) (gs : Nat) : Resolved × State :=
  let a : Acc := ⟨c, ca, c.cur, c.top - c.cur, kLOAD, pm pLOAD, 0, 0, false, false, false⟩
  let len := c.top - c.cur
  match capCheck s E a with
  | some t => (.trap t, s)
  | none =>
    if c.cur % 16 ≠ 0 then (.trap ⟨ecALIGN, capInfo ca, c.cur, 0⟩, s)
    else if c.cur < c.base ∨ len < 64 ∨ 4096 < len ∨ len % 16 ≠ 0 then
      (.trap ⟨ecCAP_BOUNDS, capInfo ca, c.cur, 0⟩, s)
    else if 4096 < gs then (.trap ⟨ecCAP_BOUNDS, capInfo ca, gs, 0⟩, s)
    else
      match resolve s E a with
      | (.ok cs, s) => (match loadTags s E ca c.cur cs with
          | some t => (.trap t, s)
          | none => (.ok cs, s))
      | r => r

/-- Steps 1 to 4 of R221 after the checks, for the record's bytes (none when ca is untagged) and the response length. -/
def handlerEnd (s : State) (E : Env) (rec : Option (List Nat)) (gs : Nat) : State :=
  let x := s.ctx E.n E.k
  match x.tx.state, x.tx.frame with
  | .active, some f =>
    match s.commitTx E.n E.k with
    | none =>
      let s := (s.raise 1 (E.n / 2) 0x13 0 0).discardTx E.n E.k none
      s.releaseCtx E.n E.k
    | some s =>
      let ticket := (s.reg .jcSeq).toNat
      let s := match rec with
        | some bytes => (s.journalTake f bytes).egressTake f gs ticket ticket
        | none => s.egressTake f gs 0 (ticket - 1)
      s.releaseCtx E.n E.k
  | _, _ => s.releaseCtx E.n E.k

/-- HANDLER_END (R220, R221, R436); in a read-only remote-PASS service it raises CAP_PERM with EINFO[21] (R515). -/
def insHandlerEnd (ca gs : Nat) : InsDef :=
  { insSys 0x10 ca gs false (some rtHEND) (fun E s =>
    let tx := (s.ctx E.n E.k).tx
    let c := rdC s E 0 ca
    let len := (rdG s E 1 gs).toNat
    if tx.service = 3 then .trap (trapPerm ca (2 ^ 21) c.cur) s
    else if tx.state = .none ∨ tx.service ≠ 0 then .trap trapPRIV s
    else if !c.tag then
      if 4096 < len then .trap ⟨ecCAP_BOUNDS, capInfo ca, len, 0⟩ s
      else .hold (handlerEnd { s with free := s.free + 1 } E none len)
    else
      match recordCheck s E c ca len with
      | (.trap t, s) => .trap t s
      | (.wait w, s) => .hold (s.waitOn E w)
      | (.ok cs, s) => .hold (handlerEnd { s with free := s.free + 1 } E (some (cs.flatMap (chunkBytes s E))) len))
    with compared := fun E s => some [.c (rdC s E 0 ca), .w (rdG s E 1 gs)] }

/-- The command HANDLER_END: issue of the instruction. -/
def execHandlerEnd (h : Hdr) (ca gs : Nat) (s : State) : Host.Outcome State Fault Refusal := issue h (insHandlerEnd ca gs) s

/-! ## The start of a frame -/

/-- The world of a class. -/
def State.classWorld (s : State) (q : Nat) : Bool := decide (s.rf (.ingClass q) ingClass_WORLD = 1)

/-- The journal has room for another handler (R480): staged bytes below 512 MiB less 4 KiB for each context that can run a
handler. -/
def State.stagingRoom (s : State) : Bool :=
  let pairs := (List.range 24).filter (fun k => s.paired (2 * k) && !(s.isRetired 1 k))
  decide (s.stagedBytes < 0x20000000 - pairs.length * 2 * 0x1000)

/-- The die of the frame that holds the handler's data capability (criterion 1 of R406), as the candidate context would
reach it. -/
def State.dataDie (s : State) (f : Frame) (n k : Nat) : Option Nat :=
  let E := startEnv n k
  let world := s.classWorld f.cls
  match (readDesc s E world f.desc 128).1 with
  | none => none
  | some ws =>
    let d := descCap ws 2
    if !d.valid then none
    else match (chunkAt s E (routineAcc (rootMemory d.world 0) 0 d.cur 1 kLOAD 0) d.cur 1).1 with
      | .ok (⟨_, _, .mem _ pa, _⟩ :: _) => some (dieOfStack (stackOf pa))
      | _ => none

/-- The pair on which a frame would start (R406, R425, R438). -/
def State.framePair (s : State) (f : Frame) : Option Nat :=
  let world := s.classWorld f.cls
  let mask := s.rf (.ingClass f.cls) ingClass_PAIRS
  match s.choosePair f.cls mask world none f.lastPair with
  | none => none
  | some p => s.choosePair f.cls mask world (s.dataDie f (2 * p) ((s.idleCtx (2 * p)).getD 0)) f.lastPair

/-- The class queue the dispatcher serves next (R425): the highest PRIO, then the lowest number, among the classes with a
frame that can start. -/
def State.nextClass (s : State) : Option Nat :=
  (List.range 64).foldl (fun best q =>
    match tget s.queues q [] with
    | [] => best
    | f :: _ =>
      if s.now ≤ f.deadline ∧ (s.framePair f).isSome = true then
        match best with
        | none => some q
        | some b => if s.rf (.ingClass b) ingClass_PRIO < s.rf (.ingClass q) ingClass_PRIO then some q else best
      else best) none

/-- The descriptor requirements of a frame's start (the table before R427): the entry code, data, ingress and context
capabilities, and the SUP flag. -/
def handlerDesc (s : State) (world : Bool) (ws : List (Nat × Nat)) : Option (Cap × Cap × Cap × Cap × Bool) :=
  let code := descCap ws 0
  let data := descCap ws 2
  let ing := descCap ws 4
  let cc := descCap ws 6
  let fl := (ws[8]?).getD (0, 0)
  let va := s.rf .ingImemva ingImemva_VA * 2 ^ 26
  let ok := code.valid && !code.isSealed && code.has pEXEC && (code.world == world)
    && (data.tag || descNone ws 2)
    && ing.valid && !ing.isSealed && !ing.world && decide (ing.missing (pm pLOAD + pm pSTORE) = 0)
    && decide (ing.base = va) && decide (ing.top = va + 0x4000000)
    && ctxCapOk cc world
    && (decide (fl.2 = tINT) || decide (fl.2 = tUNINIT)) && decide (fl.1 < 2)
    && (ws.drop 9).all (fun w => decide (w.2 ≠ tPOISON))
  if ok then some (code, if data.tag then data else Cap.null, ing, cc, bit fl.1 0) else none

/-- The dispatch record in g0-g7 (R429). -/
def dispatchRecord (f : Frame) : Tab Nat Word :=
  [(0, word (f.slot % 2 ^ 12 + f.lane % 16 * 2 ^ 12 + f.fmt % 256 * 2 ^ 16 + f.rule % 2 ^ 12 * 2 ^ 24 + f.attempt % 4 * 2 ^ 36
      + f.cls % 64 * 2 ^ 40)),
   (1, word f.landed), (2, word f.deadline), (3, word (f.flen % 2 ^ 13 + f.reclen % 2 ^ 13 * 2 ^ 16)), (4, word f.tag),
   (6, word (f.keys.getD f.ka 0)), (7, word (f.keys.getD f.kb 0))]

/-- The start routine of a frame on context k of core n (R428, R431, R437). -/
def frameStart (s : State) (f : Frame) (n k : Nat) : State :=
  let E := startEnv n k
  let world := s.classWorld f.cls
  match readDesc s E world f.desc 128 with
  | (none, s) => s.endFrame f 8
  | (some ws, s) =>
    match handlerDesc s world ws with
    | none => s.endFrame f 8
    | some (code, data, ing, cc, sup) =>
      let s := s.boundary .ingCfg
      let slot := ing.base + f.slot * 0x4000
      let ctxSlot := cc.base + 0x8000 * (2 * (n / 2) + k)
      let c1 := Cap.mk' slot slot f.flen (pm pLOAD) false true
      let c2 := Cap.mk' (slot + 0x1000) (slot + 0x1000) f.reclen (pm pLOAD) false true
      let c3 := Cap.mk' (slot + 0x2000) (slot + 0x2000) 0x1000 (pm pLOAD + pm pSTORE) false true
      let tx : Tx := { Tx.none with
        state := .active, frame := some f, wdog := some (s.now + s.rf .ingCfg ingCfg_WDOG * 1000), slotLo := ctxSlot,
        slotHi := ctxSlot + 0x8000 }
      (s.startCtx n k sup code data cc [(1, c1), (2, c2), (3, c3)] (dispatchRecord f) [] tx).startChecked n rtHSTART

/-- HANDLER_START (R425, R428): the dispatcher starts the next frame on the pair the placement engine chooses. -/
def execHandlerStart (s : State) : Host.Outcome State Fault Refusal :=
  if !s.ingOn || !s.stagingRoom then .next s
  else
    match s.nextClass with
    | none => .next s
    | some q =>
      match tget s.queues q [] with
      | [] => .next s
      | f :: rest =>
        match s.framePair f with
        | none => .next s
        | some p =>
          let k := (s.idleCtx (2 * p)).getD 0
          match s.startWaits q (startEnv (2 * p) k) [(s.classWorld q, f.desc, 128)] with
          | some s => .next s
          | none =>
            let s := { s.startGoes q with queues := tset s.queues q rest, lastPick := tset s.lastPick q p }
            .next (frameStart s f (2 * p) k)

/-- DEADLINE (R425): the frame in slot i of ingress memory has not started by its deadline; time reaches the deadline. -/
def execDeadline (slot : Nat) (s : State) : Host.Outcome State Fault Refusal :=
  match s.queues.findSome? (fun e => (e.2.find? (fun f => decide (f.slot = slot))).map (fun f => (e.1, f))) with
  | none => .next s
  | some (q, f) =>
    if 2 ^ 64 - 1 ≤ f.deadline then .next s
    else
      let s := s.advanceTo (f.deadline + 1)
      .next ({ s with queues := tset s.queues q ((tget s.queues q []).filter (fun x => decide (x.slot ≠ slot))) }.endFrame f 3)

/-! ## Aborts and the watchdog -/

/-- A context that can write its own TXCTL: it issues. The write waits for the store buffer to drain (R205). -/
def State.canAbort (s : State) (n k : Nat) : Bool := s.canIssue n k

/-- ABORT_REDISPATCH (R435): context k of core n writes TXCTL.ABORT = 1. -/
def execAbortRedispatch (n k : Nat) (s : State) : Host.Outcome State Fault Refusal :=
  if 112 ≤ n ∨ 2 ≤ k then .refused .illFormed
  else if !(s.canAbort n k) then .next s
  else .next (txAbort (s.drain n) n k 1)

/-- ABORT_END (R435): context k of core n writes TXCTL.ABORT = 2. -/
def execAbortEnd (n k : Nat) (s : State) : Host.Outcome State Fault Refusal :=
  if 112 ≤ n ∨ 2 ≤ k then .refused .illFormed
  else if !(s.canAbort n k) then .next s
  else .next (txAbort (s.drain n) n k 2)

/-- ABORT_RELEASE (R436): context k of core n writes TXCTL.ABORT = 3. -/
def execAbortRelease (n k : Nat) (s : State) : Host.Outcome State Fault Refusal :=
  if 112 ≤ n ∨ 2 ≤ k then .refused .illFormed
  else if !(s.canAbort n k) then .next s
  else .next (txAbort (s.drain n) n k 3)

/-- A held HANDLER_WATCHDOG is taken when it can be. -/
def takeWatchdog (s : State) (n k : Nat) : Option State :=
  (s.maReady n k ecHANDLER_WATCHDOG).map (fun m => s.takeMa n k m)

/-- The watchdog of context k expires: the transaction is discarded with redispatch, and the cause is held (R437). -/
def State.watchdogFires (s : State) (n k : Nat) : State :=
  let s := s.discardTx n k none
  let x := s.ctx n k
  let s := s.setCtx n k { x with tx := { x.tx with wdog := none } }
  let c := s.core n
  (s.setCore n { c with ma := c.ma ++ [(⟨k, ecHANDLER_WATCHDOG, 0, 0, true⟩ : MaCause)] }).holdCheck n

/-- HANDLER_WATCHDOG (R437): the watchdog of context k of core n expires: the transaction is discarded with redispatch, and the
cause is taken under class MA, now or, when GM, EXL or a halt bars it (R256, R374), by a later such command. -/
def execHandlerWatchdog (n k : Nat) (s : State) : Host.Outcome State Fault Refusal :=
  if 112 ≤ n ∨ 2 ≤ k then .refused .illFormed
  else
    match takeWatchdog s n k with
    | some s => .next s
    | none =>
      match (s.ctx n k).tx.wdog with
      | some t =>
        let s := (s.advanceTo t).watchdogFires n k
        .next ((takeWatchdog s n k).getD s)
      | none => .next s

end Sys2Proof.Machine
end

