-- ==== Sys2Proof/Machine/Keys.lean ====
section
/-! DEFINITION. KCMD: its checks, the engine's queue, and the return of a status ("Capability, system and vector instruction
reference", R222-R225; "The key engine", R442-R453). -/

namespace Sys2Proof.Machine

open Sys2Proof

/-! ## Key objects -/

/-- KEY_DENY (R223): the code, the rights missing, and whether the code counts as unassigned. -/
def trapKeyDeny (code missing : Nat) (unassigned : Bool) : Trap :=
  ⟨ecKEY_DENY, code % 2 ^ 16 + missing % 2 ^ 31 * 2 ^ 16 + b2n unassigned * 2 ^ 47, 0, 0⟩

/-- Steps 8 to 10 of R223 for a key object. -/
def keyCheckTrap (s : State) (E : Env) (c : Cap) (capNo code need cls : Nat) : Option Trap :=
  if !c.valid then some (trapInvalid c capNo)
  else if !c.isSealed then some (trapPerm capNo 0 c.cur)
  else if c.otype ≠ otKEY then some (trapSealed c capNo)
  else if cls = 1 ∧ c.has pKEYUSE = false then some (trapPerm capNo (pm pKEYUSE) c.cur)
  else if cls = 2 ∧ (c.has pKEYADMIN = false ∨ (s.ctx E.n E.k).world = false) then
    some (trapPerm capNo (c.missing (pm pKEYADMIN) + 2 ^ 18) c.cur)
  else
    let missing := need - Nat.land need c.rights
    if missing ≠ 0 then some (trapKeyDeny code missing false) else none

/-! ## Buffers -/

/-- An access of any length, resolved page by page; fuel bounds the pages. -/
def resolvePages (s : State) (E : Env) (a : Acc) (va n : Nat) : Nat → Resolved × State
  | 0 => (.ok [], s)
  | fuel + 1 =>
    if n = 0 then (.ok [], s)
    else
      let c := Nat.min n (2 ^ 14 - va % 2 ^ 14)
      match chunkAt s E a va c with
      | (.ok cs, s) =>
        (match resolvePages s E a (va + c) (n - c) fuel with
        | (.ok cs', s) => (.ok (cs ++ cs'), s)
        | r => r)
      | r => r

/-- A buffer of the engine under R52: the checks of the capability, the bounds, and the translation of every page. -/
def resolveLong (s : State) (E : Env) (a : Acc) : Resolved × State :=
  match capCheck s E a with
  | some t => (.trap t, s)
  | none =>
    if a.align ≠ 0 ∧ a.ea % a.align ≠ 0 then (.trap ⟨ecALIGN, capInfo a.capNo, a.ea, 0⟩, s)
    else match boundsCheck a.cap a.capNo a.ea a.size with
      | some t => (.trap t, s)
      | none => resolvePages s E a a.ea a.size (a.size / 2 ^ 14 + 2)

/-- The command block of R450. -/
structure KBlock where
  code   : Nat
  var    : Nat
  loc    : Bool
  opt    : Bool
  rights : Nat
  bad    : Bool
  inLen  : Nat
  outLen : Nat
  inCap  : Cap
  outCap : Cap
  aux    : Cap
  deriving DecidableEq, Repr

/-- The block in eight words with their tags. A field that must be zero for the command and is not makes it bad. -/
def kBlock (ws : List (Nat × Nat)) : KBlock :=
  let w0 := ((ws[0]?).getD (0, 0)).1
  let w1 := ((ws[1]?).getD (0, 0)).1
  let code := bits w0 15 0
  let creates := kcCreates code
  { code := code, var := bits w0 23 16, loc := bit w0 24, opt := bit w0 25, rights := bits w0 62 32,
    bad := decide (bits w0 31 26 ≠ 0) || bit w0 63 || decide (bits w1 63 56 ≠ 0) || decide (bits w1 31 24 ≠ 0)
      || (!creates && (bit w0 24 || decide (bits w0 62 32 ≠ 0))),
    inLen := bits w1 23 0, outLen := bits w1 55 32, inCap := descCap ws 2, outCap := descCap ws 4, aux := descCap ws 6 }

/-- Step 6 of R223: words 0 and 1 as data loads (R57), the three capabilities as capability loads (R58). -/
def kBlockTags (ws : List (Nat × Nat)) (cd ea : Nat) : Option Trap :=
  let t := fun (i : Nat) => ((ws[i]?).getD (0, 0)).2
  [loadTagTrap (t 0) cd ea false, loadTagTrap (t 1) cd (ea + 8) true, capTagTrap (t 2) (t 3) cd (ea + 0x10),
   capTagTrap (t 4) (t 5) cd (ea + 0x20), capTagTrap (t 6) (t 7) cd (ea + 0x30)].findSome? (fun x => x)

/-- The access of IN: a load of INLEN bytes at its cursor. -/
def inAcc (b : KBlock) : Acc := ⟨b.inCap, 0xD, b.inCap.cur, b.inLen, kLOAD, pm pLOAD, 0, 0, false, false, false⟩

/-- A capability as the engine creates it, for the checks of its store: key object, WORLD 1, with KEYADMIN (R447). -/
def newKeyCap (slot gen mask : Nat) (loc : Bool) : Cap :=
  ⟨word (slot % 2 ^ 20 + gen % 2 ^ 20 * 2 ^ 24),
   word ((pm pKEYUSE + pm pKEYADMIN) * 2 ^ 50 + otKEY * 2 ^ 34 + 2 ^ 33 + b2n loc * 2 ^ 32 + mask % 2 ^ 31), true⟩

/-- The access of OUT: a store of OUTLEN bytes, or for a creating command the store of a tagged capability. -/
def outAcc (b : KBlock) : Acc :=
  if kcCreates b.code then
    ⟨b.outCap, 0xD, b.outCap.cur, 16, kSTORE, pm pSTORE + pm pSTORECAP, storedRules b.outCap (newKeyCap 0 0 0 b.loc), 16, false,
     false, false⟩
  else ⟨b.outCap, 0xD, b.outCap.cur, b.outLen, kSTORE, pm pSTORE, 0, 0, false, false, false⟩

/-- The old-tag checks and the commit-buffer check of the store to OUT. -/
def outTrap (s : State) (E : Env) (b : KBlock) (cs : List Chunk) : Option Trap :=
  let ea := b.outCap.cur
  if kcCreates b.code then
    match cs with
    | ⟨_, _, .mem t pa, se⟩ :: _ =>
      let m := s.checkMem E.n E.k t
      (match capStoreTrap (m.tag pa) (m.tag (pa + 8)) 0xD ea with
      | some t => some t
      | none => overflowTrap s E ea [⟨ea, t, se, capOps pa Cap.null⟩])
    | _ => none
  else
    match storeTags s E 0xD ea 0 tINT cs with
    | some t => some t
    | none => overflowTrap s E ea (dataPuts cs ea 0 tINT)

/-- Step 11 of R223: IN and OUT, then AUX; the answer is their chunks. -/
def bufferCheck (s : State) (E : Env) (b : KBlock) (cls : Nat) : Did (List Chunk × List Chunk) :=
  let (r, s) := if b.inLen = 0 then (Resolved.ok [], s) else resolveLong s E (inAcc b)
  match r with
  | .trap t => .trap t s
  | .wait w => .wait w s
  | .ok ics =>
    match loadTags s E 0xD b.inCap.cur ics with
    | some t => .trap t s
    | none =>
      let (r, s) := if b.outLen = 0 ∧ kcCreates b.code = false then (Resolved.ok [], s) else resolveLong s E (outAcc b)
      match r with
      | .trap t => .trap t s
      | .wait w => .wait w s
      | .ok ocs =>
        match outTrap s E b ocs with
        | some t => .trap t s
        | none =>
          if kcHasAux b.code then
            match keyCheckTrap s E b.aux 0xD b.code (kcAuxRights b.code) cls with
            | some t => .trap t s
            | none => .ok (ics, ocs) s
          else .ok (ics, ocs) s

/-! ## Issue and status -/

/-- The queue of a world: 0 open, 1 sealed. -/
def State.kqueue (s : State) (w : Bool) : List KCmd := tget s.kq (b2n w) []

/-- The new command enters its world's queue (R443) and the context waits. -/
def kcmdIssue (s : State) (E : Env) (gd : Nat) (c : KCmd) : Res :=
  let s := s.drain E.n
  let s := { s with kNo := (s.kNo + 1) % 2 ^ 32, kq := tset s.kq (b2n c.world) (s.kqueue c.world ++ [c]), free := s.free + 1 }
  let s := if (s.kqueue c.world).length = 256 then s.report (138 + b2n c.world) else s
  let x := s.ctx E.n E.k
  .hold (s.setCtx E.n E.k { x with wait := .kcmd c.num gd })

/-- The status in gd ends the instruction (R224): waited. -/
def kcmdEnd (s : State) (E : Env) (gd : Nat) (v : Word) : State :=
  let s := (wrG s E gd v 0).progressEnd E
  let x := s.ctx E.n E.k
  s.setCtx E.n E.k { x with wait := .none }

/-- KCMD (R223, R224); the administration class raises CAP_PERM with EINFO[21] in a read-only remote-PASS service (R515). -/
def insKcmd (cd ca gd : Nat) : InsDef :=
  { insXfer (encC 0x20 0 cd ca gd) false (some rtKFORM) (fun E s =>
    let m := seeSr s E nMPROG
    let x := s.ctx E.n E.k
    if resumesWait rtKCMD E s then
      match tfind x.kstatus (fld m 31 0) with
      | some v => .done (kcmdEnd (s.setCtx E.n E.k { x with kstatus := tdel x.kstatus (fld m 31 0) }) E gd v) false
      | none => .hold ({ s with free := s.free + 1 }.setCtx E.n E.k { x with wait := .kcmd (fld m 31 0) gd })
    else
      let b := rdC s E 0 cd
      let a : Acc := ⟨b, cd, b.cur, 64, kLOAD, pm pLOAD + pm pSTORE + pm pLOADCAP, 0, 64, true, false, false⟩
      match resolve s E a with
      | (.trap t, s) => .trap t s
      | (.wait w, s) => .hold (s.waitOn E w)
      | (.ok cs, s) =>
        match ctxWords s E cd b.cur cs with
        | .error t => .trap t s
        | .ok ws =>
          match kBlockTags ws cd b.cur with
          | some t => .trap t s
          | none =>
            let kb := kBlock ws
            let key := rdC s E 1 ca
            match kcClass kb.code with
            | none => .trap (trapKeyDeny kb.code 0 true) s
            | some cls =>
              if cls = 2 ∧ x.tx.service = 3 then .trap (trapPerm ca (2 ^ 21) key.cur) s
              else if kcUntagged kb.code && key.tag then .trap (trapKeyDeny kb.code 0 true) s
              else
                let base := match s.keyOf key with
                  | some r => isBaseKey r.typ
                  | none => false
                let bad := if kcKeyed kb.code then
                    keyCheckTrap s E key ca kb.code (kcRights kb.code kb.opt base) cls
                  else if cls = 2 ∧ (x.world = false ∨ (kcUntagged kb.code = false ∧ !(key.valid && key.has pKEYADMIN))) then
                    some (trapPerm ca (key.missing (pm pKEYADMIN) + 2 ^ 18) key.cur)
                  else none
                match bad with
                | some t => .trap t s
                | none =>
                  match bufferCheck s E kb cls with
                  | .trap t s => .trap t s
                  | .wait w s => .hold (s.waitOn E w)
                  | .remote _ s => .done s false
                  | .ok (ics, ocs) s =>
                    kcmdIssue s E gd
                      { num := s.kNo, world := x.world, core := E.n, ctx := E.k, sup := seeSup s E, code := kb.code, var := kb.var,
                        loc := kb.loc, opt := kb.opt, rights := kb.rights, bad := kb.bad, inLen := kb.inLen,
                        outLen := kb.outLen, outVa := kb.outCap.cur, inCs := ics, outCs := ocs,
                        key := if kcKeyed kb.code then some key else none,
                        aux := if kcHasAux kb.code then some kb.aux else none, fate := .live })
    with which := waitOrIssue rtKCMD rtKFORM, compared := fun E s => some [.c (rdC s E 0 cd), .c (rdC s E 1 ca)] }

/-- The command KCMD: issue of the instruction. -/
def execKcmd (h : Hdr) (cd ca gd : Nat) (s : State) : Host.Outcome State Fault Refusal := issue h (insKcmd cd ca gd) s

end Sys2Proof.Machine
end

