-- ==== Sys2Proof/Machine/KeyOps.lean ====
section
/-! DEFINITION. The key engine at work: its units, the key store, the DRBG, and the commands with their status and output
("The key engine", R442-R459). The cryptography itself is named by the spec through its standards and is left free
(Config.keyBytes, Config.keyCheck, Config.drbg, Config.blockEnc, Config.blockDec). -/

namespace Sys2Proof.Machine

open Sys2Proof

/-- A failing status. -/
def KAns.bad (code : Nat) (detail : Nat := 0) : KAns := ⟨code, detail, [], none⟩

/-- OK with output. -/
def KAns.ok (out : List Byte) : KAns := ⟨ksOK, 0, out, none⟩

/-! ## The key store (R446, R448) -/

/-- The runs of the store as slot ranges. -/
def State.runs (s : State) : List (Nat × Nat) := s.keys.map (fun e => (e.1, e.2.nslot))

/-- Free slots. -/
def State.keyFree (s : State) : Nat := 2 ^ 20 - (s.runs.map (fun e => e.2)).sum

/-- STORE.FREE follows the store; source 137 is reported when it falls below CFG.LOW. -/
def State.storeCount (s : State) : State :=
  let old := s.rf .keyStore keyStore_FREE
  let low := s.rf .keyCfg keyCfg_LOW
  let s := s.setRf .keyStore keyStore_FREE s.keyFree
  if s.keyFree < low ∧ low ≤ old then s.report 137 else s

/-- The first free run of n slots at or after a slot, in turn after each run in the way; fuel bounds the tries. -/
def findRun (rs : List (Nat × Nat)) (n at_ : Nat) : Nat → Option Nat
  | 0 => none
  | fuel + 1 =>
    if 2 ^ 20 < at_ + n then findRun rs n 0 fuel
    else match rs.find? (fun r => decide (at_ < r.1 + r.2) && decide (r.1 < at_ + n)) with
      | none => some at_
      | some r => findRun rs n (r.1 + r.2) fuel

/-- A run for a new key: the engine chooses it (R446), here from a free starting point. -/
def State.allocRun (s : State) (n : Nat) : Option Nat × State :=
  let (v, s) := s.draw
  (findRun s.runs n (v % 2 ^ 20) (2 * s.runs.length + 4), s)

/-- A new key in the store with the capability that names it (R447, R458): none when no run is free. -/
def State.newKey (s : State) (typ ceil exp : Nat) (trusted loc : Bool) (rights : Nat) (material : List Byte) :
    Option Cap × State :=
  let n := slotsOf typ material.length
  let (at_, s) := s.allocRun n
  match at_ with
  | none => (none, s)
  | some slot =>
    let ceil := ceil % 2 ^ 17
    let kcv := ofBytes ((Config.keyBytes 0 0 typ material [] []).take 3 |>.map BitVec.toNat)
    let run : KeyRun := ⟨ceil, exp, trusted, n, typ, kcv, material⟩
    (some (newKeyCap slot (tget s.kgen slot 0) (Nat.land rights ceil) loc), { s with keys := tset s.keys slot run }.storeCount)

/-- The info record of a key (R446), 32 bytes. -/
def infoRecord (r : KeyRun) (gen : Nat) : List Byte :=
  wordBytes [2 ^ 63 + r.ceil % 2 ^ 31 * 2 ^ 32 + r.exp % 4 * 2 ^ 30 + b2n r.trusted * 2 ^ 29 + r.nslot % 64 * 2 ^ 16 + r.typ % 256 * 2 ^ 8,
             gen % 2 ^ 20 * 2 ^ 24 + r.kcv % 2 ^ 24, 0, 0]

/-! ## What a command answers -/

/-- Exactly n bytes of a list, zeros after its end. -/
def padTo (n : Nat) (l : List Byte) : List Byte := (l ++ List.replicate (n - l.length) 0).take n

/-- A number big-endian from bytes. -/
def beNat (l : List Byte) : Nat := l.foldl (fun a b => a * 256 + b.toNat) 0

/-- OK with exactly n bytes of output when OUT has room for them, LENGTH otherwise. -/
def kSized (c : KCmd) (n : Nat) (out : List Byte) : KAns := if n ≤ c.outLen then .ok (padTo n out) else .bad ksLENGTH

/-- Bytes of a hash selector: SHA-256, SHA-384, SHA-512. -/
def hashBytes (h : Nat) : Nat := if h = 0 then 32 else if h = 1 then 48 else 64

/-- HASH (R453). -/
def kHash (c : KCmd) (inp : List Byte) : KAns :=
  if 3 ≤ c.var then .bad ksFORMAT else kSized c (hashBytes c.var) (Config.keyBytes kcHASH c.var 0 [] [] inp)

/-- PKVERIFY (R453): public key, signature, 64-byte digest field. -/
def kPkverify (c : KCmd) (inp : List Byte) : KAns :=
  let alg := c.var % 16
  let lens := if alg = 0 then [65 + 64 + 64] else if alg = 1 then [97 + 96 + 64] else if alg = 2 then [133 + 132 + 64]
    else [256 + 4 + 256 + 64, 384 + 4 + 384 + 64, 512 + 4 + 512 + 64]
  if 5 ≤ alg ∨ 3 ≤ bits c.var 5 4 ∨ 64 ≤ c.var then .bad ksFORMAT
  else if !(lens.contains inp.length) then .bad ksLENGTH
  else if Config.keyCheck (kcPKVERIFY + 2 ^ 16) c.var 0 [] [] inp = false then .bad ksFORMAT
  else if Config.keyCheck kcPKVERIFY c.var 0 [] [] inp then .ok [] else .bad ksVERIFY_FAIL

/-- ENC and DEC (R453): dec tells them apart. -/
def kCipher (c : KCmd) (typ : Nat) (key inp : List Byte) (dec : Bool) : KAns :=
  let code := if dec then kcDEC else kcENC
  match algOf (workType typ) with
  | none => .bad ksKEYTYPE
  | some alg =>
    let blk := if alg = 0 then 16 else 8
    let ksn := ksnBytes typ
    let data := inp.length - ksn
    let overhead := if c.var = 0 then 0 else if c.var = 1 ∨ c.var = 2 then blk else 16
    if 4 ≤ c.var then .bad ksFORMAT
    else if 2 ≤ alg ∨ (alg = 1 ∧ 2 ≤ c.var) then .bad ksKEYTYPE
    else if inp.length < ksn ∨ data < overhead then .bad ksLENGTH
    else
      let aad := if c.var = 3 then beNat ((inp.drop (ksn + 12)).take 4) else 0
      let extra := aad + (if c.var = 3 ∧ dec = true then 16 else 0)
      if data < overhead + extra then .bad ksLENGTH
      else
        let n := data - overhead - extra
        if c.var ≤ 1 ∧ n % blk ≠ 0 then .bad ksLENGTH
        else if c.var = 3 ∧ dec = true ∧ Config.keyCheck code c.var typ key [] inp = false then .bad ksAUTH_FAIL
        else kSized c (n + (if c.var = 3 ∧ dec = false then 16 else 0)) (Config.keyBytes code c.var typ key [] inp)

/-- MACGEN and MACVER (R453). -/
def kMac (c : KCmd) (typ : Nat) (key inp : List Byte) (ver : Bool) : KAns :=
  let m := c.var % 16
  let n := c.var / 16 + 1
  let full := if m = 0 then (match algOf (workType typ) with | some 0 => 16 | _ => 8) else hashBytes (m - 1)
  let ksn := ksnBytes typ
  if 4 ≤ m ∨ n < 4 then .bad ksFORMAT
  else if (m = 0 ∧ algOf (workType typ) ≠ some 0 ∧ algOf (workType typ) ≠ some 1) ∨ (1 ≤ m ∧ typ ≠ 0x06) then .bad ksKEYTYPE
  else if full < n then .bad ksLENGTH
  else if ver then
    if inp.length < ksn + n then .bad ksLENGTH
    else
      let mac := (inp.drop ksn).take n
      let rest := inp.take ksn ++ inp.drop (ksn + n)
      if padTo n (Config.keyBytes kcMACGEN c.var typ key [] rest) = mac then .ok [] else .bad ksVERIFY_FAIL
  else if inp.length < ksn then .bad ksLENGTH
  else kSized c n (Config.keyBytes kcMACGEN c.var typ key [] inp)

/-- Nibble i of bytes, the high nibble of the first byte being 0. -/
def nib (l : List Byte) (i : Nat) : Nat :=
  let b := ((l[i / 2]?).getD 0).toNat
  if i % 2 = 0 then b / 16 else b % 16

/-- Bytes from nibbles. -/
def fromNibs : List Nat → List Byte
  | a :: b :: r => BitVec.ofNat 8 (a * 16 + b) :: fromNibs r
  | [a] => [BitVec.ofNat 8 (a * 16)]
  | [] => []

/-- The PAN field of R454: its ASCII digits; none when it is malformed. -/
def panDigits (field : List Byte) : Option (List Nat) :=
  let ds := field.takeWhile (fun b => decide (b ≠ 0))
  if ds.length < 12 ∨ 19 < ds.length ∨ (field.drop ds.length).any (fun b => decide (b ≠ 0)) then none
  else if ds.all (fun b => decide (0x30 ≤ b.toNat) && decide (b.toNat ≤ 0x39)) then some (ds.map (fun b => b.toNat - 0x30))
  else none

/-- The PAN block of formats 0 and 3: four zero nibbles, then the 12 rightmost digits without the check digit. -/
def panBlock (pan : List Nat) : List Nat :=
  let body := pan.dropLast
  [0, 0, 0, 0] ++ body.drop (body.length - 12)

/-- The PAN block of format 4: the PAN's length less 12, its digits, zeros (PRESUMED: ISO 9564-1 lays it out so). -/
def panBlock4 (pan : List Nat) : List Nat :=
  let l := (pan.length - 12) :: pan
  l ++ List.replicate (32 - l.length) 0

/-- Byte-wise exclusive OR. -/
def xorBytes (a b : List Byte) : List Byte := (a.zip b).map (fun e => e.1 ^^^ e.2)

/-- The clear PIN of a block under R454, or DETAIL of its FORMAT status (5 for a PAN too short). -/
def pinOf (fmt typ : Nat) (key blk : List Byte) (pan : List Nat) : Except Nat (List Nat) :=
  if (fmt = 0 ∨ fmt = 3) ∧ pan.length < 13 then .error 5
  else
    let clear :=
      if fmt = 4 then
        Config.blockDec typ key (xorBytes (Config.blockDec typ key (blk.take 16)) (fromNibs (panBlock4 pan)))
      else
        Config.blockDec typ key (blk.take 8)
    let pn := fun (i : Nat) =>
      if fmt = 0 ∨ fmt = 3 then Nat.xor (nib clear i) ((panBlock pan).getD i 0) else nib clear i
    let len := pn 1
    let digits := (List.range len).map (fun i => pn (2 + i))
    let fill := (List.range (14 - len)).map (fun i => pn (2 + len + i))
    if pn 0 ≠ fmt then .error 1
    else if len < 4 ∨ 12 < len then .error 2
    else if digits.any (fun d => decide (9 < d)) then .error 3
    else if (fmt = 0 ∧ fill.any (fun d => decide (d ≠ 0xF)) = true) ∨ (fmt = 3 ∧ fill.any (fun d => decide (d < 0xA)) = true) then .error 4
    else .ok digits

/-- The new PIN block; fill draws from DRBG output id. -/
def pinBlock (fmt typ : Nat) (key : List Byte) (pan pin : List Nat) (id : Nat) : List Byte :=
  let rnd := fun (i : Nat) => (Config.drbg id i).toNat
  let n := pin.length
  let fill := fun (i : Nat) => if fmt = 0 then 0xF else if fmt = 3 then 0xA + rnd i % 6 else if fmt = 4 then 0xA else rnd i % 16
  let field := [fmt, n] ++ pin ++ (List.range (14 - n)).map fill
  if fmt = 4 then
    let p1 := fromNibs field ++ (List.range 8).map (fun i => Config.drbg id (16 + i))
    padTo 16 (Config.blockEnc typ key (xorBytes (Config.blockEnc typ key p1) (fromNibs (panBlock4 pan))))
  else
    let clear := if fmt = 1 then field else (field.zip (panBlock pan)).map (fun e => Nat.xor e.1 e.2)
    padTo 8 (Config.blockEnc typ key (fromNibs clear))

/-- The key of an algorithm suits a PIN format (R454). -/
def pinKeyOk (fmt typ : Nat) : Bool :=
  match algOf (workType typ) with
  | some 0 => decide (fmt = 4)
  | some 1 => decide (fmt ≠ 4)
  | _ => false

/-- PINXLATE (R454); id is the DRBG output for the fill, none when it cannot be produced. -/
def kPinxlate (c : KCmd) (typ : Nat) (key : List Byte) (typ2 : Nat) (key2 inp : List Byte) (id : Option Nat) : KAns :=
  let fi := c.var % 16
  let fo := c.var / 16
  let okFmt := fun (f : Nat) => [0, 1, 3, 4].contains f
  let wk := if isBaseKey typ then Config.keyBytes kcPINXLATE 0 typ key [] ((inp.drop 0x28).take (ksnBytes typ)) else key
  if !(okFmt fi) || !(okFmt fo) then .bad ksFORMAT
  else if inp.length ≠ 64 then .bad ksLENGTH
  else if !(pinKeyOk fi typ) || !(pinKeyOk fo typ2) || isBaseKey typ2 then .bad ksKEYTYPE
  else if ((inp.drop 0x23).take 5).any (fun b => decide (b ≠ 0)) then .bad ksFORMAT
  else if isBaseKey typ = false ∧ ((inp.drop 0x28).any (fun b => decide (b ≠ 0))) = true then .bad ksFORMAT
  else match panDigits ((inp.drop 0x10).take 19) with
    | none => .bad ksFORMAT
    | some pan =>
      if (fo = 0 ∨ fo = 3) ∧ pan.length < 13 then .bad ksFORMAT 5
      else match pinOf fi (workType typ) wk inp pan with
        | .error d => .bad ksFORMAT d
        | .ok pin =>
          if fo = 1 ∧ fi ≠ 1 then .bad ksPOLICY
          else match id with
            | none => if fo = 0 then kSized c 8 (pinBlock fo typ2 key2 pan pin 0) else .bad ksENTROPY
            | some id => kSized c (if fo = 4 then 16 else 8) (pinBlock fo typ2 key2 pan pin id)

/-- The byte is two BCD digits. -/
def bcdByte (b : Byte) : Bool := decide (b.toNat % 16 ≤ 9) && decide (b.toNat / 16 ≤ 9)

/-- ARQC (R455): the PSN is BCD, and the field at 0x20 is zero after the ARC (method 1) or the CSU (method 2). -/
def kArqc (c : KCmd) (typ : Nat) (key inp : List Byte) : KAns :=
  let n := inp.length
  if 4 ≤ c.var then .bad ksFORMAT
  else if n < 65 ∨ 64 + 1024 < n then .bad ksLENGTH
  else if (algOf typ ≠ some 0 ∧ algOf typ ≠ some 1) ∨ isBaseKey typ = true then .bad ksKEYTYPE
  else if (panDigits (inp.take 19)).isNone || !(bcdByte ((inp[0x13]?).getD 0)) || ((inp.drop 0x16).take 2).any (fun b => decide (b ≠ 0))
      || (if c.var % 2 = 0 then ((inp.drop 0x22).take 6) else ((inp.drop 0x24).take 4)).any (fun b => decide (b ≠ 0))
      || ((inp.drop 0x31).take 15).any (fun b => decide (b ≠ 0)) || decide (8 < ((inp[0x28]?).getD 0).toNat) then .bad ksFORMAT
  else
    let arqc := (inp.drop 0x18).take 8
    let head := inp.take 0x18 ++ inp.drop 0x40
    if padTo 8 (Config.keyBytes kcARQC c.var typ key [] head) ≠ arqc then .bad ksVERIFY_FAIL
    else if c.opt then kSized c (if c.var % 2 = 0 then 8 else 4) (Config.keyBytes (kcARQC + 2 ^ 16) c.var typ key [] inp)
    else .ok []

/-- The byte is an ASCII digit. -/
def asciiDigit (b : Byte) : Bool := decide (0x30 ≤ b.toNat) && decide (b.toNat ≤ 0x39)

/-- CVV (R453): the value is VAR digits; expiry and service code are ASCII digits. -/
def kCvv (c : KCmd) (typ : Nat) (key inp : List Byte) : KAns :=
  let n := c.var
  let value := padTo n (Config.keyBytes kcCVV c.var typ key [] (inp.take 26))
  if n < 3 ∨ 5 < n then .bad ksFORMAT
  else if typ ≠ 0x04 then .bad ksKEYTYPE
  else if inp.length ≠ 26 + (if c.opt then 0 else n) then .bad ksLENGTH
  else if (panDigits (inp.take 19)).isNone || !(((inp.drop 19).take 7).all asciiDigit) then .bad ksFORMAT
  else if c.opt then kSized c n value
  else if inp.drop 26 = value then .ok [] else .bad ksVERIFY_FAIL

/-- Bytes of a signature of a key type. -/
def sigBytes (typ : Nat) : Nat := if algOf typ = some 3 then 2 * ecBytes typ else rsaBytes typ

/-- The digest field of SIGN and VERIFY: zero after the digest (R453). -/
def digestOk (var : Nat) (field : List Byte) : Bool := (field.drop (hashBytes (bits var 5 4))).all (fun b => decide (b = 0))

/-- SIGN (R453): ECDSA and PSS take a value from the DRBG. -/
def kSign (c : KCmd) (typ : Nat) (key inp : List Byte) (id : Option Nat) : KAns :=
  let needs := decide (algOf typ = some 3) || decide (c.var % 2 = 1)
  if algOf typ ≠ some 3 ∧ algOf typ ≠ some 4 then .bad ksKEYTYPE
  else if 3 ≤ bits c.var 5 4 ∨ c.var % 16 > 1 ∨ 64 ≤ c.var then .bad ksFORMAT
  else if inp.length ≠ 64 then .bad ksLENGTH
  else if !(digestOk c.var inp) then .bad ksFORMAT
  else if needs && id.isNone then .bad ksENTROPY
  else kSized c (sigBytes typ) (Config.keyBytes kcSIGN c.var typ key (drbgBytes (id.getD 0) 64) inp)

/-- VERIFY (R453): signature, then digest field. -/
def kVerify (c : KCmd) (typ : Nat) (key inp : List Byte) : KAns :=
  if algOf typ ≠ some 3 ∧ algOf typ ≠ some 4 then .bad ksKEYTYPE
  else if 3 ≤ bits c.var 5 4 ∨ c.var % 16 > 1 ∨ 64 ≤ c.var then .bad ksFORMAT
  else if inp.length ≠ sigBytes typ + 64 then .bad ksLENGTH
  else if !(digestOk c.var (inp.drop (sigBytes typ))) || !(Config.keyCheck (kcVERIFY + 2 ^ 16) c.var typ key [] inp) then .bad ksFORMAT
  else if Config.keyCheck kcVERIFY c.var typ key [] inp then .ok [] else .bad ksVERIFY_FAIL

/-- RSADEC (R453): the plaintext has at most the length that OAEP with SHA-256 leaves. -/
def kRsadec (c : KCmd) (typ : Nat) (key inp : List Byte) : KAns :=
  if algOf typ ≠ some 4 then .bad ksKEYTYPE
  else if c.var ≠ 0 then .bad ksFORMAT
  else if inp.length ≠ rsaBytes typ then .bad ksLENGTH
  else if Config.keyCheck kcRSADEC 0 typ key [] inp = false then .bad ksFORMAT
  else
    let out := (Config.keyBytes kcRSADEC 0 typ key [] inp).take (rsaBytes typ - 66)
    if out.length ≤ c.outLen then .ok out else .bad ksLENGTH

/-- KINFO (R453): the info record, then the public key of an EC or RSA key. -/
def kInfo (c : KCmd) (r : KeyRun) (gen : Nat) (inp : List Byte) : KAns :=
  let pub := if algOf r.typ = some 3 then 1 + 2 * ecBytes r.typ else if algOf r.typ = some 4 then rsaBytes r.typ + 4 else 0
  if inp.length ≠ 0 then .bad ksLENGTH
  else kSized c (32 + pub) (infoRecord r gen ++ padTo pub (Config.keyBytes kcKINFO 0 r.typ r.material [] []))

/-- OPT = 1 of a creating command is honoured only from a sealed-world context at supervisor level (R458). -/
def trustBad (c : KCmd) : Bool := c.opt && !(c.sup && c.world)

/-- Ends a creating command with its new key. -/
def kCreate (s : State) (c : KCmd) (typ ceil exp : Nat) (material : List Byte) : KAns × State :=
  match s.newKey typ ceil exp c.opt c.loc c.rights material with
  | (none, s) => (.bad ksSTORE_FULL, s)
  | (some cap, s) => (⟨ksOK, 0, [], some cap⟩, s)

/-- Bytes of material of a key type that has a fixed length. -/
def materialBytes (typ : Nat) : Nat :=
  match workType typ with
  | 0x01 => 16
  | 0x02 => 24
  | 0x03 => 32
  | 0x04 => 16
  | 0x05 => 24
  | 0x06 => 32
  | 0x10 => 96
  | 0x11 => 144
  | 0x12 => 198
  | 0x18 => 896
  | 0x19 => 1344
  | _ => 1792

/-- KGEN (R458). CEIL is the requested mask; EXP is not stated for a generated key and is left free. -/
def kGen (s : State) (c : KCmd) (inp : List Byte) : KAns × State :=
  if algOf c.var = none then (.bad ksFORMAT, s)
  else if inp.length ≠ 0 ∨ c.outLen < 16 then (.bad ksLENGTH, s)
  else if trustBad c then (.bad ksPOLICY, s)
  else match s.drbgUse c.world with
    | (none, s) => (.bad ksENTROPY, s)
    | (some id, s) =>
      let (v, s) := s.draw
      kCreate s c c.var c.rights (v % 3) (drbgBytes id (materialBytes c.var))

/-- CEIL that a key usage of a key block gives (R456); none for any other usage. The two characters are ASCII. -/
def usageCeil (a b : Nat) : Option Nat :=
  let ch := fun (x y : Char) => decide (a = x.toNat) && decide (b = y.toNat)
  if ch 'P' '0' then some (2 ^ 4 + 2 ^ 5)
  else if ch 'B' '0' then some (2 ^ 6 + 2 ^ 0 + 2 ^ 1 + 2 ^ 2 + 2 ^ 3 + 2 ^ 4)
  else if ch 'D' '0' then some (2 ^ 0 + 2 ^ 1)
  else if ch 'M' '3' || ch 'M' '6' || ch 'M' '7' then some (2 ^ 2 + 2 ^ 3)
  else if ch 'E' '0' then some (2 ^ 7 + 2 ^ 8)
  else if ch 'C' '0' then some (2 ^ 9 + 2 ^ 10)
  else if ch 'K' '0' then some (2 ^ 11 + 2 ^ 12)
  else if ch 'S' '0' then some (2 ^ 13 + 2 ^ 14 + 2 ^ 15 + 2 ^ 16)
  else none

/-- The decrypting and verifying rights, and the encrypting and generating rights, of R456. -/
def decRights : Nat := 2 ^ 1 + 2 ^ 3 + 2 ^ 4 + 2 ^ 7 + 2 ^ 9 + 2 ^ 12 + 2 ^ 14 + 2 ^ 16
def encRights : Nat := 2 ^ 0 + 2 ^ 2 + 2 ^ 5 + 2 ^ 8 + 2 ^ 10 + 2 ^ 11 + 2 ^ 13

/-- TYPE from the algorithm character, the usage and the length of a key block's key (R456). -/
def blockType (alg : Nat) (base : Bool) (len : Nat) : Option Nat :=
  if alg = 'A'.toNat then
    (if len = 16 then some (if base then 0x09 else 0x01) else if len = 24 then some (if base then 0x0A else 0x02)
     else if len = 32 then some (if base then 0x0B else 0x03) else none)
  else if alg = 'T'.toNat then
    (if len = 16 then some (if base then 0x08 else 0x04) else if len = 24 ∧ base = false then some 0x05 else none)
  else if base then none
  else if alg = 'H'.toNat then (if 16 ≤ len ∧ len ≤ 64 then some 0x06 else none)
  else if alg = 'E'.toNat then
    (if len = materialBytes 0x10 then some 0x10 else if len = materialBytes 0x11 then some 0x11
     else if len = materialBytes 0x12 then some 0x12 else none)
  else if alg = 'R'.toNat then
    (if len = materialBytes 0x18 then some 0x18 else if len = materialBytes 0x19 then some 0x19
     else if len = materialBytes 0x1A then some 0x1A else none)
  else none

/-- KIMPORT (R456). The header's layout is that of X9.143 (PRESUMED): the version at byte 0, usage at 5 and 6, algorithm at 7,
mode of use at 8, exportability at 11. -/
def kImport (s : State) (c : KCmd) (typ : Nat) (key inp : List Byte) : KAns × State :=
  let b := fun (i : Nat) => ((inp[i]?).getD 0).toNat
  let ver := b 0
  let verOk := (decide (ver = 'D'.toNat) && decide (algOf typ = some 0)) || (decide (ver = 'B'.toNat) && decide (algOf typ = some 1))
  if (algOf typ ≠ some 0 ∧ algOf typ ≠ some 1) ∨ isBaseKey typ = true then (.bad ksKEYTYPE, s)
  else if inp.length < 16 ∨ c.outLen < 16 then (.bad ksLENGTH, s)
  else if ver ≠ 'D'.toNat ∧ ver ≠ 'B'.toNat then (.bad ksFORMAT, s)
  else if !verOk then (.bad ksKEYTYPE, s)
  else if Config.keyCheck kcKIMPORT 0 typ key [] inp = false then (.bad ksAUTH_FAIL, s)
  else
    let material := Config.keyBytes kcKIMPORT 0 typ key [] inp
    let base := decide (b 5 = 'B'.toNat)
    let exp := if b 11 = 'E'.toNat then some 0 else if b 11 = 'N'.toNat then some 1 else if b 11 = 'S'.toNat then some 2 else none
    match usageCeil (b 5) (b 6), blockType (b 7) base material.length, exp with
    | some ceil, some t, some exp =>
      let ceil := if b 8 = 'E'.toNat then ceil - Nat.land ceil decRights
        else if b 8 = 'D'.toNat then ceil - Nat.land ceil encRights else ceil
      if Config.keyCheck (kcKIMPORT + 2 ^ 16) 0 typ key [] inp = false then (.bad ksFORMAT, s)
      else if strength typ < strength t then (.bad ksPOLICY, s)
      else if trustBad c then (.bad ksPOLICY, s)
      else kCreate s c t ceil exp material
    | _, _, _ => (.bad ksFORMAT, s)

/-- KEXPORT (R457): r is the protecting key, x the key to export. -/
def kExport (c : KCmd) (r x : KeyRun) : KAns :=
  if (algOf r.typ ≠ some 0 ∧ algOf r.typ ≠ some 1) ∨ isBaseKey r.typ = true then .bad ksKEYTYPE
  else if 2 ≤ c.var then .bad ksFORMAT
  else if (c.var = 0 ∧ algOf r.typ ≠ some 0) ∨ (c.var = 1 ∧ algOf r.typ ≠ some 1) then .bad ksKEYTYPE
  else if x.exp = 1 ∨ (x.exp = 2 ∧ r.trusted = false) ∨ strength r.typ < strength x.typ ∨ (c.var = 1 ∧ algOf x.typ ≠ some 1) then
    .bad ksPOLICY
  else
    let out := Config.keyBytes kcKEXPORT c.var r.typ r.material x.material (wordBytes [x.ceil, x.typ])
    if out.length ≤ c.outLen then .ok out else .bad ksLENGTH

/-- KDELETE (R448): V 0, GEN up by one, the run free. -/
def kDelete (s : State) (cap : Cap) (inp : List Byte) : KAns × State :=
  if inp.length ≠ 0 then (.bad ksLENGTH, s)
  else
    let h := cap.keySlot
    (.ok [], { s with keys := tdel s.keys h, kgen := tset s.kgen h ((tget s.kgen h 0 + 1) % 2 ^ 20) }.storeCount)

/-- KAGREE (R458): an AES key from the ECDH secret. -/
def kAgree (s : State) (c : KCmd) (r : KeyRun) (inp : List Byte) : KAns × State :=
  if algOf r.typ ≠ some 3 then (.bad ksKEYTYPE, s)
  else if c.var = 0 ∨ 3 < c.var then (.bad ksFORMAT, s)
  else if inp.length ≠ 1 + 2 * ecBytes r.typ ∨ c.outLen < 16 then (.bad ksLENGTH, s)
  else if Config.keyCheck kcKAGREE c.var r.typ r.material [] inp = false then (.bad ksFORMAT, s)
  else if trustBad c then (.bad ksPOLICY, s)
  else
    let (v, s) := s.draw
    kCreate s c c.var c.rights (v % 3) (padTo (materialBytes c.var) (Config.keyBytes kcKAGREE c.var r.typ r.material [] inp))

/-! ## Starting and ending a command -/

/-- The work of a command whose units and keys are there. -/
def kWork (s : State) (c : KCmd) (r x : Option KeyRun) (inp : List Byte) : KAns × State :=
  let typ := match r with | some r => r.typ | none => 0
  let key := match r with | some r => r.material | none => []
  let typ2 := match x with | some x => x.typ | none => 0
  let key2 := match x with | some x => x.material | none => []
  if c.bad then (.bad ksFORMAT, s)
  else if c.code = kcRNG then
    if c.inLen ≠ 0 ∨ c.outLen = 0 ∨ 4096 < c.outLen then (.bad ksLENGTH, s)
    else match s.drbgUse c.world with
      | (none, s) => (.bad ksENTROPY, s)
      | (some id, s) => (.ok (drbgBytes id c.outLen), s)
  else if c.code = kcHASH then (kHash c inp, s)
  else if c.code = kcPKVERIFY then (kPkverify c inp, s)
  else if c.code = kcENC then (kCipher c typ key inp false, s)
  else if c.code = kcDEC then (kCipher c typ key inp true, s)
  else if c.code = kcMACGEN then (kMac c typ key inp false, s)
  else if c.code = kcMACVER then (kMac c typ key inp true, s)
  else if c.code = kcPINXLATE then
    if c.var / 16 = 0 then (kPinxlate c typ key typ2 key2 inp none, s)
    else
      let (id, s) := s.drbgUse c.world
      (kPinxlate c typ key typ2 key2 inp id, s)
  else if c.code = kcARQC then (kArqc c typ key inp, s)
  else if c.code = kcCVV then (kCvv c typ key inp, s)
  else if c.code = kcSIGN then
    if algOf typ = some 3 ∨ c.var % 2 = 1 then
      let (id, s) := s.drbgUse c.world
      (kSign c typ key inp id, s)
    else (kSign c typ key inp none, s)
  else if c.code = kcVERIFY then (kVerify c typ key inp, s)
  else if c.code = kcRSADEC then (kRsadec c typ key inp, s)
  else if c.code = kcKGEN then kGen s c inp
  else if c.code = kcKIMPORT then kImport s c typ key inp
  else if c.code = kcRESEED then
    if 256 < inp.length then (.bad ksLENGTH, s)
    else if s.sources = 0 then (.bad ksENTROPY, s.reseed c.world)
    else (.ok [], (s.reseed c.world).drbgHealth)
  else
    match r, c.key with
    | some r, some cap =>
      if c.code = kcKINFO then (kInfo c r cap.keyGen inp, s)
      else if c.code = kcKDELETE then kDelete s cap inp
      else if c.code = kcKAGREE then kAgree s c r inp
      else match x with
        | some x => (kExport c r x, s)
        | none => (.bad ksSTALE, s)
    | _, _ => (.bad ksSTALE, s)

/-- Input bytes as the issuing context sees them (R224). -/
def kInput (s : State) (c : KCmd) : List Byte :=
  (c.inCs.flatMap (chunkBytes s (startEnv c.core c.ctx))).map (BitVec.ofNat 8)

/-- What a command writes to OUT in memory: its capability, or its output with zeros to the end of OUT (R452). -/
def kPuts (c : KCmd) (a : KAns) : List Put :=
  if a.code = ksUNAVAILABLE ∨ a.code = ksENGINE_FAULT then []
  else if kcCreates c.code then
    match c.outCs with
    | ⟨va, n, .mem t pa, se⟩ :: _ =>
      (match a.cap with
      | some cap => [⟨va, t, se, capOps pa cap⟩]
      | none => dataPuts [⟨va, Nat.min n c.outLen, .mem t pa, se⟩] va 0 tINT)
    | _ => []
  else dataPuts c.outCs c.outVa (ofBytes ((padTo c.outLen a.out).map BitVec.toNat)) tINT

/-- The writes of a command to OUT (R452), as stores of the issuing context (R225), or of none once the context is gone. -/
def kOutput (s : State) (c : KCmd) (a : KAns) : State :=
  let E := startEnv c.core c.ctx
  match c.fate with
  | .mute => s
  | .orphan => (kPuts c a).foldl (fun s p => s.writeOps p.tgt none p.ops) s
  | .live =>
    let s := s.perform E (kPuts c a)
    if a.code = ksUNAVAILABLE ∨ a.code = ksENGINE_FAULT ∨ unbackedPuts c.outCs = [] then s
    else s.lateStore E c.outCs c.outVa (if kcCreates c.code then 16 else c.outLen)

/-- The status word (R451). -/
def kStatus (c : KCmd) (a : KAns) : Word :=
  let outn := if a.code = ksOK then (if a.cap.isSome then 16 else a.out.length) else 0
  word (outn % 2 ^ 24 * 2 ^ 32 + a.detail % 256 * 2 ^ 8 + a.code)

/-- Two tables of three entries by size: of EC and RSA key types. -/
def byEc (typ a b c : Nat) : Nat := if typ = 0x10 then a else if typ = 0x11 then b else c
def byRsa (typ a b c : Nat) : Nat := if typ = 0x18 then a else if typ = 0x19 then b else c

/-- Tenths of a nanosecond for one block of AES with a key of a type, and for one block of a cipher. -/
def aesBlock (typ : Nat) : Nat := if workType typ = 0x01 then 100 else if workType typ = 0x02 then 117 else 133
def cipherBlock (typ : Nat) : Nat := if algOf typ = some 1 then 400 else aesBlock typ

/-- Bytes of a cipher block of a key type. -/
def blockBytes (typ : Nat) : Nat := if algOf typ = some 1 then 8 else 16

/-- Whole blocks of a length. -/
def blocksOf (n size : Nat) : Nat := (n + size - 1) / size

/-- The time of hashing n bytes: SHA-256 in blocks of 64 bytes, SHA-384 and SHA-512 in blocks of 128, and extra blocks. -/
def hashTime (h n extra : Nat) : Nat := 2500 + (if h = 0 then (blocksOf n 64 + extra) * 570 else (blocksOf n 128 + extra) * 670)

/-- The engine time of a command in tenths of a nanosecond (R462), from its code, VAR and OPT, its lengths and the types of its keys;
none where the table gives the command no time with such a key. In b, the IV of CBC and CTR, the nonce and AAD length of GCM, and the
MAC that MACVER compares are headers (DEDUCED). -/
def engineTime (c : KCmd) (typ typ2 : Option Nat) : Option Nat :=
  let t := typ.getD 0
  let alg := typ.bind algOf
  let n := c.inLen - ksnBytes t
  let derive := if isBaseKey t then (if t = 0x08 then 12000 else 8000) else 0
  let signTime := fun (ty : Nat) => byEc ty 300000 700000 1500000
  let verifyTime := fun (ty : Nat) => byEc ty 600000 1400000 3000000
  let rsaSecret := fun (ty : Nat) => byRsa ty 12000000 36000000 80000000
  let rsaPublic := fun (ty : Nat) => byRsa ty 300000 600000 1000000
  if c.code = kcRNG then some (2500 + 100 * blocksOf c.outLen 16)
  else if c.code = kcHASH then some (hashTime (c.var % 16) c.inLen 0)
  else if c.code = kcPKVERIFY then
    let v := c.var % 16
    some (if v < 3 then verifyTime (0x10 + v)
      else rsaPublic (if c.inLen ≤ 580 then 0x18 else if c.inLen ≤ 836 then 0x19 else 0x1A))
  else if c.code = kcENC ∨ c.code = kcDEC then
    if alg = some 0 ∨ alg = some 1 then
      let head := if c.var = 1 ∨ c.var = 2 then blockBytes t else if c.var = 3 then 16 else 0
      some (2500 + derive + blocksOf (n - head) (blockBytes t) * cipherBlock t + (if c.var = 3 then 300 else 0))
    else none
  else if c.code = kcMACGEN ∨ c.code = kcMACVER then
    let n := n - (if c.code = kcMACVER then c.var / 16 + 1 else 0)
    if alg = some 0 ∨ alg = some 1 then
      some (2500 + derive + (blocksOf n (blockBytes t) + (if c.var % 16 = 0 then 1 else 0)) * cipherBlock t)
    else if alg = some 2 then some (hashTime (c.var % 16 - 1) n 2) else none
  else if c.code = kcPINXLATE then some 5000
  else if c.code = kcARQC then
    if alg = some 0 ∨ alg = some 1 then
      some (7000 + blocksOf (c.inLen - 64) (blockBytes t) * (if alg = some 1 then 400 else 133) + (if c.opt then 1000 else 0))
    else none
  else if c.code = kcCVV then some 6000
  else if c.code = kcSIGN then
    if alg = some 3 then some (signTime t) else if alg = some 4 then some (rsaSecret t) else none
  else if c.code = kcVERIFY then
    if alg = some 3 then some (verifyTime t) else if alg = some 4 then some (rsaPublic t) else none
  else if c.code = kcRSADEC then (if alg = some 4 then some (rsaSecret t) else none)
  else if c.code = kcKINFO then some 4000
  else if c.code = kcKDELETE then some 10000
  else if c.code = kcKGEN then
    match algOf c.var with
    | some 3 => some (signTime c.var)
    | some 4 => some (byRsa c.var 4000000000 12000000000 30000000000)
    | some _ => some 20000
    | none => none
  else if c.code = kcKIMPORT then
    if alg = some 0 ∨ alg = some 1 then
      some (30000 + blocksOf (c.inLen - 16) (blockBytes t) * (if alg = some 1 then 400 else 133))
    else none
  else if c.code = kcKEXPORT then
    match typ2 with
    | some x => some (30000 + blocksOf (materialBytes x) (if c.var = 1 then 8 else 16) * (if c.var = 1 then 400 else 133))
    | none => none
  else if c.code = kcKAGREE then (if alg = some 3 then some (byEc t 350000 800000 1700000) else none)
  else if c.code = kcRESEED then some 200000
  else none

/-- A status takes its place among those on their way, by the time each arrives. -/
def insDone (d : KDone) : List KDone → List KDone
  | [] => [d]
  | e :: l => if e.ready ≤ d.ready then e :: insDone d l else d :: e :: l

/-- A command of a world runs on its units (R442-R452), which it holds for exactly its engine time (R444), free where R462 gives
none; UNAVAILABLE ends at once. Flaw 1 is an internal error of its unit, which a command without one cannot have, and flaw 2 a
key-store head of its key that fails its integrity check (R464). -/
def kRun (s : State) (c : KCmd) (flaw : Nat) : State :=
  let r := c.key.bind s.keyOf
  let x := c.aux.bind s.keyOf
  let stale := (c.key.isSome && r.isNone) || (c.aux.isSome && x.isNone)
  let kinds := unitKinds c (r.map KeyRun.typ)
  let t := s.unitsAt c.world kinds
  let units := kinds.map (s.unitFor c.world t)
  if units.any Option.isNone then
    { s with kdone := insDone ⟨c, KAns.bad ksUNAVAILABLE, 10 * s.now, []⟩ s.kdone }
  else
    let s := s.advanceTo ((t + 9) / 10)
    let (len, s) := match engineTime c (r.map KeyRun.typ) (x.map KeyRun.typ) with
      | some len => (len, s)
      | none => s.draw
    let faulty := match flaw, units.head?.join with
      | 1, some u => some (((s.report (96 + u)).raise 6 u 0x28 0 0).satRf (.keyUstat u) keyUstat_FAULTS 1)
      | 2, some u => if c.key.isSome then some ((s.report 141).satRf (.keyUstat u) keyUstat_FAULTS 1) else none
      | _, _ => none
    let (a, s) :=
      if let some s' := faulty then (KAns.bad ksENGINE_FAULT, s')
      else if stale then (KAns.bad ksSTALE, s)
      else kWork s c r x (kInput s c)
    let s := units.foldl (fun s u => match u with
      | some u => { s.addRf (.keyUstat u) keyUstat_CMDS 1 with kbusy := tset s.kbusy u (t + len) }
      | none => s) s
    { s with kdone := insDone ⟨c, a, t + len, units.filterMap id⟩ s.kdone }

/-- KCMD_STATUS (R224): the next command of the engine ends at its time (R444) and writes its output; its status ends the wait, or is held
for a context that an interrupt has taken out of it, with those of other commands that it was taken out of. -/
def execKcmdStatus (s : State) : Host.Outcome State Fault Refusal :=
  match s.kdone with
  | [] => .next s
  | d :: rest =>
    let c := d.cmd
    let s := kOutput { s.advanceTo ((d.ready + 9) / 10) with kdone := rest } c d.ans
    let v := kStatus c d.ans
    let x := s.ctx c.core c.ctx
    let held := s.setCtx c.core c.ctx { x with kstatus := tset x.kstatus c.num v }
    if c.fate ≠ .live then .next s
    else
      match x.wait with
      | .kcmd m gd =>
        if m = c.num then
          let E := s.waitEnv c.core c.ctx
          .next ((kcmdEnd s E gd v).complete E)
        else .next held
      | _ => .next held

/-- The engine runs the command at the head of a world's queue when it has the given code (R443). -/
def kStep (code : Nat) (w : Bool) (flaw : Nat) (s : State) : Host.Outcome State Fault Refusal :=
  if 3 ≤ flaw then .refused .illFormed
  else if !s.keyOn then .next s
  else
    match s.kqueue w with
    | [] => .next s
    | c :: rest =>
      if c.code = code then
        .next (kRun { s with kq := tset s.kq (b2n w) rest } c flaw)
      else .next s

/-- RNG (R453): the engine performs it for a world. -/
def execRng (w : Bool) (flaw : Nat) (s : State) : Host.Outcome State Fault Refusal := kStep kcRNG w flaw s

/-- HASH (R453): the engine performs it for a world. -/
def execHash (w : Bool) (flaw : Nat) (s : State) : Host.Outcome State Fault Refusal := kStep kcHASH w flaw s

/-- PKVERIFY (R453): the engine performs it for a world. -/
def execPkverify (w : Bool) (flaw : Nat) (s : State) : Host.Outcome State Fault Refusal := kStep kcPKVERIFY w flaw s

/-- ENC (R453): the engine performs it for a world. -/
def execEnc (w : Bool) (flaw : Nat) (s : State) : Host.Outcome State Fault Refusal := kStep kcENC w flaw s

/-- DEC (R453): the engine performs it for a world. -/
def execDec (w : Bool) (flaw : Nat) (s : State) : Host.Outcome State Fault Refusal := kStep kcDEC w flaw s

/-- MACGEN (R453): the engine performs it for a world. -/
def execMacgen (w : Bool) (flaw : Nat) (s : State) : Host.Outcome State Fault Refusal := kStep kcMACGEN w flaw s

/-- MACVER (R453): the engine performs it for a world. -/
def execMacver (w : Bool) (flaw : Nat) (s : State) : Host.Outcome State Fault Refusal := kStep kcMACVER w flaw s

/-- PINXLATE (R454): the engine performs it for a world. -/
def execPinxlate (w : Bool) (flaw : Nat) (s : State) : Host.Outcome State Fault Refusal := kStep kcPINXLATE w flaw s

/-- ARQC (R455): the engine performs it for a world. -/
def execArqc (w : Bool) (flaw : Nat) (s : State) : Host.Outcome State Fault Refusal := kStep kcARQC w flaw s

/-- CVV (R453): the engine performs it for a world. -/
def execCvv (w : Bool) (flaw : Nat) (s : State) : Host.Outcome State Fault Refusal := kStep kcCVV w flaw s

/-- SIGN (R453): the engine performs it for a world. -/
def execSign (w : Bool) (flaw : Nat) (s : State) : Host.Outcome State Fault Refusal := kStep kcSIGN w flaw s

/-- VERIFY (R453): the engine performs it for a world. -/
def execVerify (w : Bool) (flaw : Nat) (s : State) : Host.Outcome State Fault Refusal := kStep kcVERIFY w flaw s

/-- RSADEC (R453): the engine performs it for a world. -/
def execRsadec (w : Bool) (flaw : Nat) (s : State) : Host.Outcome State Fault Refusal := kStep kcRSADEC w flaw s

/-- KINFO (R453): the engine performs it for a world. -/
def execKinfo (w : Bool) (flaw : Nat) (s : State) : Host.Outcome State Fault Refusal := kStep kcKINFO w flaw s

/-- KGEN (R458): the engine performs it for a world. -/
def execKgen (w : Bool) (flaw : Nat) (s : State) : Host.Outcome State Fault Refusal := kStep kcKGEN w flaw s

/-- KIMPORT (R456): the engine performs it for a world. -/
def execKimport (w : Bool) (flaw : Nat) (s : State) : Host.Outcome State Fault Refusal := kStep kcKIMPORT w flaw s

/-- KEXPORT (R457): the engine performs it for a world. -/
def execKexport (w : Bool) (flaw : Nat) (s : State) : Host.Outcome State Fault Refusal := kStep kcKEXPORT w flaw s

/-- KDELETE (R448): the engine performs it for a world. -/
def execKdelete (w : Bool) (flaw : Nat) (s : State) : Host.Outcome State Fault Refusal := kStep kcKDELETE w flaw s

/-- KAGREE (R458): the engine performs it for a world. -/
def execKagree (w : Bool) (flaw : Nat) (s : State) : Host.Outcome State Fault Refusal := kStep kcKAGREE w flaw s

/-- RESEED (R459): the engine performs it for a world. -/
def execReseed (w : Bool) (flaw : Nat) (s : State) : Host.Outcome State Fault Refusal := kStep kcRESEED w flaw s


/-! ## Entropy -/

/-- DRBG_RESEED (R459): an instance reseeds after 2^16 requests or 1 s, whichever comes first; time reaches its limit. -/
def execDrbgReseed (w : Bool) (s : State) : Host.Outcome State Fault Refusal :=
  if s.mode = 0 ∨ s.mode = 5 then .next s
  else
    let d := tget s.drbgN (b2n w) (0, 0)
    let s := if 2 ^ 16 ≤ d.1 then s else s.advanceTo (d.2 + 1000000000)
    .next (s.reseed w).drbgHealth

/-- ENTROPY_HEALTH_FAIL (R459, R464): an entropy source fails a health test and is excluded. -/
def execEntropyHealthFail (i : Nat) (s : State) : Host.Outcome State Fault Refusal :=
  if 2 ≤ i then .refused .illFormed
  else
    if s.rf .keyDrbg (if i = 0 then keyDrbg_SRC0 else keyDrbg_SRC1) = 0 then .next s
    else .next ((s.entropyFail i).raise 9 i 0x29 0 0)

end Sys2Proof.Machine
end

