-- ==== Sys2Proof/Machine/StateRegs.lean ====
section
/-! DEFINITION. State access: MFS, MTS and their capability and register-number forms ("Scalar instruction reference", R202,
R203; "Registers, windows and contexts", R115-R120; the layouts of the other chapters that own a register). -/

namespace Sys2Proof.Machine

open Sys2Proof

/-! ## The table of R118 -/

/-- The number names a 64-bit state register. -/
def isSr (n : Nat) : Bool :=
  decide (n ≤ 0x0C) || (decide (0x10 ≤ n) && decide (n ≤ 0x16)) || (decide (0x20 ≤ n) && decide (n ≤ 0x2B))

/-- The number names a capability state register. -/
def isCsr (n : Nat) : Bool := decide (0x40 ≤ n) && decide (n ≤ 0x47)

/-- A bank register. -/
def isBankSr (n : Nat) : Bool := decide (0x10 ≤ n) && decide (n ≤ 0x16)

/-- A core-wide register. -/
def isCoreSr (n : Nat) : Bool := decide (n = nMASKLIMIT) || (decide (nIPTBASE ≤ n) && decide (n ≤ nIPTHASH))

/-- A read of the register needs supervisor level. -/
def readPriv (n : Nat) : Bool := isCoreSr n || isBankSr n || (decide (0x41 ≤ n) && decide (n ≤ 0x47))

/-- A write of the register needs supervisor level; ECEIL is read-only, and its writes are ignored at every level (R116). -/
def writePriv (n : Nat) : Bool :=
  !(decide (n = nRPT) || (decide (0x20 ≤ n) && decide (n ≤ 0x2B)) || decide (n = nECEIL))

/-- The bits of a 64-bit register that MTS writes: its RW fields (R119, R120, R158, R163, R257, R260, R312, R331, R344).
STATUS is treated apart. -/
def srMask (n : Nat) : Nat :=
  if n = nCTXID then 0xFFFF
  else if n = nRPT then 0xFFFFFFFF
  else if n = nVSTATE then 0x7F03
  else if n = nWBASE ∨ n = nWDEPTH then 0x1F
  else if n = nMPROG then 0xFF01FFFFFFFFFFFF
  else if n = nMASKLIMIT then 0xFFFFFF
  else if n = nPKMLO ∨ n = nPKMHI ∨ n = nEINFO ∨ n = nEADDR then 2 ^ 64 - 1
  else if n = nIPTBASE then 2 ^ 44 - 2 ^ 21
  else if n = nIPTSIZE then 2 ^ 23 - 1
  else if n = nIPTHASH then 2 ^ 35 - 1
  else if n = nECAUSE then 0x80FFFFFF
  else if n = nEELEM then 0xF
  else if n = nEPC then 2 ^ 64 - 4
  else if n = nESTATUS then 0x19
  else if n = nECEIL then 0
  else if nLSTART ≤ n ∧ n < nLCOUNT then 2 ^ 64 - 4
  else if nLCOUNT ≤ n ∧ n < nLCOUNT + 4 then 0xFFFFFFFF
  else 0

/-- The cause codes that R261 assigns. -/
def codeAssigned (c : Nat) : Bool :=
  (decide (1 ≤ c) && decide (c ≤ 0x19)) || (decide (0x20 ≤ c) && decide (c ≤ 0x34)) || decide (c = 0x3F)

/-- A ROUTINE value of MPROG that R312 assigns. -/
def routineAssigned (r : Nat) : Bool := decide (r ≤ 0x09) || decide (r = 0x10) || decide (r = 0x11)

/-- MTS of this value writes a reserved value to an enumerated field (R116). -/
def srReserved (n : Nat) (v : Word) : Bool :=
  if n = nVSTATE then decide (fld v 14 8 = 0) || decide (64 < fld v 14 8)
  else if n = nWBASE then decide (17 < fld v 4 0)
  else if n = nWDEPTH then decide (16 < fld v 4 0)
  else if n = nMPROG then !(routineAssigned (fld v 63 56))
  else if n = nIPTSIZE then
    let k := fld v 22 0
    decide (k ≠ 0) && (decide (k % 128 ≠ 0) || decide (0x600000 < k))
  else if n = nECAUSE then !(codeAssigned (fld v 7 0))
  else false

/-- The word with the RW bits of a register replaced. -/
def srMerge (n : Nat) (old v : Word) : Word :=
  let m := word (srMask n)
  (old &&& ~~~m) ||| (v &&& m)

/-! ## Reading and writing -/

/-- MFS of a number (R116, R202). -/
def readSr (s : State) (E : Env) (n : Nat) : Except Trap Word :=
  if !(isSr n) then .error (trapReserved E)
  else if isBankSr n && !(stEXL (seeStatus s E)) then .error trapPRIV
  else if readPriv n && !(seeSup s E && (s.pcc E.n E.k).has pSYS) then .error trapPRIV
  else if isBankSr n then .ok (s.seenBank E.n E.k (s.seenInUse E.n E.k) n)
  else if isCoreSr n then .ok (seeCoreSr s E n)
  else .ok (seeSr s E n)

/-- STATUS after an MTS of v (R119): IE and GM are written, DSUP clears SUP, DEXL clears EXL. -/
def statusAfter (old v : Word) : Word :=
  let w := setFlag (setFlag old 4 (flag v 4)) 3 (flag v 3)
  let w := if flag v 8 then setFlag w 0 false else w
  if flag v 9 then setFlag w 2 false else w

/-- MTS of STATUS: the fields, and under DEXL the release of the bank in use, whose handler capability becomes c15 with its
cursor at the next instruction (R242). -/
def writeStatus (s : State) (E : Env) (v : Word) : State :=
  let x := s.ctx E.n E.k
  let old := x.status
  let hcap := s.pcc E.n E.k
  let release := flag v 9 && stEXL old
  let s := (s.fly E (.sr nSTATUS) (.w old) (.w (statusAfter old v)) 3)
  let s := s.setCtx E.n E.k ((s.ctx E.n E.k).setStatus (statusAfter old v))
  if release then
    let s := s.fly E (.core 99) (.w (word (s.core E.n).inUse)) (.w 0) 3
    let c := s.core E.n
    let x := (c.ctx E.k).setCap 15 (hcap.setCursor ((E.pc + E.len) % 2 ^ 64))
    (s.setCore E.n { (c.setCtx E.k x) with inUse := 0 }).holdCheck E.n
  else s.holdCheck E.n

/-- MTS of a number (R116, R117, R202): visible at distance 3. -/
def writeSr (s : State) (E : Env) (n : Nat) (v : Word) : Except Trap State :=
  if !(isSr n) then .error (trapReserved E)
  else if srReserved n v then .error (trapReserved E)
  else if isBankSr n && !(stEXL (seeStatus s E)) then .error trapPRIV
  else if writePriv n && !(seeSup s E && (s.pcc E.n E.k).has pSYS) then .error trapPRIV
  else if n = nSTATUS then .ok (writeStatus s E v)
  else if isBankSr n then
    let b := s.seenInUse E.n E.k
    let old := ((s.core E.n).bank b).r n
    let w := srMerge n old v
    let s := s.fly E (.bank b n) (.w old) (.w w) 3
    let c := s.core E.n
    .ok (s.setCore E.n (c.setBank b ((c.bank b).setR n w)))
  else if isCoreSr n then
    let old := (s.core E.n).srv n
    let w := srMerge n old v
    let s := s.fly E (.core n) (.w old) (.w w) 3
    .ok (s.setCore E.n ((s.core E.n).setSr n w))
  else
    let old := (s.ctx E.n E.k).srv n
    let w := srMerge n old v
    let s := s.fly E (.sr n) (.w old) (.w w) 3
    .ok (s.setCtx E.n E.k ((s.ctx E.n E.k).setSr n w))

/-! ## The instructions -/

/-- The word of a state-access instruction of the plain forms: the register-number form has 0x7F in FN and its register in
bits 21:17; the immediate form has zero there (R202). -/
def encState (op num g rn : Nat) : Nat := encC 0x1A (op * 128 + num) 0 0 g + rn * 2 ^ 17

/-- The state number an instruction names: its own in the immediate form, the low bits of a general register in the
register-number form, where a value with any of bits 63:7 set names none (R202). -/
def stateNum (s : State) (E : Env) (num rn : Nat) : Option Nat :=
  if num ≠ 0x7F then some num
  else
    let v := (rdG s E 2 rn).toNat
    if v < 128 then some v else none

/-- A state-access instruction. -/
def insState (word : Nat) (reserved repOk : Bool) (run : Env → State → Res) : InsDef :=
  { word := word, wideOk := false, repOk := repOk, reserved := reserved, vector := false, priv := false, routine := none,
    run := run }

/-- The immediate number of a plain form is a 64-bit register, and no register field is set beside it (R116, R202). -/
def badNum (num rn : Nat) : Bool := decide (num ≠ 0x7F) && (!(isSr num) || decide (rn ≠ 0))

/-- MFS (R202). -/
def insMfs (num rd rn : Nat) : InsDef :=
  insState (encState 0 num rd rn) (badNum num rn) true (fun E s =>
    match stateNum s E num rn with
    | none => .trap (trapReserved E) s
    | some n =>
      match readSr s E n with
      | .error t => .trap t s
      | .ok v => .done (wrG s E rd v 0) false)

/-- The command MFS: issue of the instruction. -/
def execMfs (h : Hdr) (num rd rn : Nat) (s : State) : Host.Outcome State Fault Refusal := issue h (insMfs num rd rn) s

/-- An MTS or MTSC that completes: the pair compares its number and value (R291), and a write of a loop register flushes the prefetch
queue after itself (R280). -/
def State.stateWritten (s : State) (E : Env) (n : Nat) (v : Val) : State :=
  let s := s.form E.n (.state n v)
  if nLSTART ≤ n ∧ n < nLSTART + 12 ∧ E.n < 48 then (s.moreCycles E.n 2).flushQueue E.n (s.core E.n).pace.last else s

/-- MTS (R202). A REP prefix before MTS of RPT is reserved, by number at decode (R165) and in the register-number form when it
issues (R166). -/
def insMts (num src rn : Nat) : InsDef :=
  insState (encState 1 num src rn) (badNum num rn) (decide (num ≠ nRPT)) (fun E s =>
    match stateNum s E num rn with
    | none => .trap (trapReserved E) s
    | some n =>
      if E.rep && decide (n = nRPT) then .trap (trapReserved E) s
      else
        let v := rdG s E 0 src
        match writeSr s E n v with
        | .error t => .trap t s
        | .ok s => .done (s.stateWritten E n (.w v)) false)

/-- The command MTS: issue of the instruction. -/
def execMts (h : Hdr) (num src rn : Nat) (s : State) : Host.Outcome State Fault Refusal := issue h (insMts num src rn) s

/-- MFSC (R202). -/
def insMfsc (num cd : Nat) : InsDef :=
  insState (encC 0x1A (2 * 128 + num) cd 0 0) (!(isCsr num) || decide (cd = 15)) true (fun E s =>
    if readPriv num && !(seeSup s E && (s.pcc E.n E.k).has pSYS) then .trap trapPRIV s
    else .done (wrC s E cd (seeCsr s E num) 0) false)

/-- The command MFSC: issue of the instruction. -/
def execMfsc (h : Hdr) (num cd : Nat) (s : State) : Host.Outcome State Fault Refusal := issue h (insMfsc num cd) s

/-- MTSC (R202, R203): the capability is stored without a check, tag included, visible at distance 3. -/
def insMtsc (num ca : Nat) : InsDef :=
  insState (encC 0x1A (3 * 128 + num) 0 ca 0) (!(isCsr num)) true (fun E s =>
    if !(seeSup s E && (s.pcc E.n E.k).has pSYS) then .trap trapPRIV s
    else
      let v := rdC s E 0 ca
      let s := s.fly E (.csr num) (.c ((s.ctx E.n E.k).csrv num)) (.c v) 3
      .done ((s.setCtx E.n E.k ((s.ctx E.n E.k).setCsr num v)).stateWritten E num (.c v)) false)

/-- The command MTSC: issue of the instruction. -/
def execMtsc (h : Hdr) (num ca : Nat) (s : State) : Host.Outcome State Fault Refusal := issue h (insMtsc num ca) s

end Sys2Proof.Machine
end

