-- ==== Sys2Proof/Machine/Vector.lean ====
section
/-! DEFINITION. Vector instructions: groups 0x28 to 0x2E ("Capability, system and vector instruction reference",
R226-R239). -/

namespace Sys2Proof.Machine

open Sys2Proof

/-! ## Elements (R226) -/

/-- Element i, of es bytes, of a vector register. -/
def elem (v : VReg) (i es : Nat) : Nat := bits v.toNat (8 * es * (i + 1) - 1) (8 * es * i)

/-- The vector register with element i replaced by x modulo 2^(8·es). -/
def setElem (v : VReg) (i es x : Nat) : VReg := BitVec.ofNat 512 (setBits v.toNat (8 * es * (i + 1) - 1) (8 * es * i) x)

/-- The element size of an ES code. -/
def esOf (code : Nat) : Nat := 2 ^ code

/-- The element size of a format bit: 4 for binary32, 8 for binary64 (R230). -/
def esFmt (single : Bool) : Nat := if single then 4 else 8

/-- The number of active elements. -/
def nact (s : State) (E : Env) (es : Nat) : Nat := seeVL s E / es

/-- The vector register with each of the first n elements set by f. -/
def mapElems (d : VReg) (n es : Nat) (f : Nat → Nat) : VReg :=
  (List.range n).foldl (fun v i => setElem v i es (f i)) d

/-- An element as a signed value. -/
def selem (v : VReg) (i es : Nat) : Int := signExtend (elem v i es) (8 * es)

/-- x saturated to [lo, hi]. -/
def clampInt (x lo hi : Int) : Int := if x < lo then lo else if hi < x then hi else x

/-- A signed result of n bits, saturated. -/
def satSigned (x : Int) (n : Nat) : Nat := toField (clampInt x (-(2 ^ (n - 1))) (2 ^ (n - 1) - 1)) n

/-- An unsigned result of n bits, saturated. -/
def satUnsigned (x : Int) (n : Nat) : Nat := toField (clampInt x 0 (2 ^ n - 1)) n

/-! ## Shapes of instructions -/

/-- A vector instruction of form V: checks VLAZY (R227). -/
def insVec (major fn vd va vb : Nat) (reserved : Bool) (run : Env → State → Res) : InsDef :=
  { word := encT major fn vd va vb, wideOk := false, repOk := true, reserved := reserved, vector := true, priv := false,
    routine := none, run := run }

/-- An element-wise instruction of two sources of vector class: f takes the old element of vd and the elements of va and
vb. -/
def insVec3 (major fn es vd va vb : Nat) (f : Nat → Nat → Nat → Nat) : InsDef :=
  insVec major fn vd va vb false (fun E s =>
    let d := rdV s E 0 vd
    let a := rdV s E 1 va
    let b := rdV s E 2 vb
    .done (wrV s E vd (mapElems d (nact s E es) es (fun i => f (elem d i es) (elem a i es) (elem b i es))) 3) false)

/-- An element-wise instruction of group 0x28 (R229). -/
def insVop (op es vd va vb : Nat) (f : Nat → Nat → Nat) : InsDef :=
  insVec3 0x28 (4 * op + es) (esOf es) vd va vb (fun _ a b => f a b)

/-- An element-wise instruction of group 0x28 on signed values of n bits. -/
def insVops (op es vd va vb : Nat) (f : Nat → Int → Int → Nat) : InsDef :=
  let n := 8 * esOf es
  insVop op es vd va vb (fun a b => f n (signExtend a n) (signExtend b n))

/-- An element-wise float instruction of group 0x29 (R230). -/
def insVf (op : Nat) (single : Bool) (vd va vb : Nat) (f : Fmt → Nat → Nat → Nat → Nat) : InsDef :=
  insVec3 0x29 (2 * op + b2n single) (esFmt single) vd va vb (f (fmtOf single))

/-- A dot product into 32-bit lanes (R231): the sum over k parts of each lane. -/
def insVdot (fn k vd va vb : Nat) (ua : Bool) : InsDef :=
  insVec 0x2A fn vd va vb false (fun E s =>
    let d := rdV s E 0 vd
    let a := rdV s E 1 va
    let b := rdV s E 2 vb
    let sz := 4 / k
    let part := fun (i : Nat) => ((List.range k).map (fun j =>
      (if ua then (elem a (k * i + j) sz : Int) else selem a (k * i + j) sz) * selem b (k * i + j) sz)).sum
    .done (wrV s E vd (mapElems d (nact s E 4) 4 (fun i => toField ((elem d i 4 : Int) + part i) 32)) 3) false)

/-- A reduction to a general register, of vector class (R232): f of the active elements. -/
def insVred (fn es rd va : Nat) (f : List Nat → Word) : InsDef :=
  insVec 0x2B fn rd va 0 false (fun E s =>
    let a := rdV s E 0 va
    .done (wrG s E rd (f ((List.range (nact s E es)).map (fun i => elem a i es))) 3) false)

/-- The least value under an order, or none. -/
def pickBy (lt : Int → Int → Bool) : List Int → Option Int
  | [] => none
  | x :: r => match pickBy lt r with
    | none => some x
    | some y => some (if lt y x then y else x)

/-- A minimum or maximum reduction: 0 over no element (R232). -/
def redPick (lt : Int → Int → Bool) (l : List Int) : Word := wrap ((pickBy lt l).getD 0)

/-- The signed values of es-byte elements. -/
def signeds (es : Nat) (l : List Nat) : List Int := l.map (fun x => signExtend x (8 * es))

/-- A compare (R233): all ones where the condition holds, zero elsewhere. -/
def insVcmp (fn es vd va vb : Nat) (f : Nat → Nat → Bool) : InsDef :=
  insVec3 0x2E fn es vd va vb (fun _ a b => if f a b then 2 ^ (8 * es) - 1 else 0)

/-- VANY and VALL (R233): a predicate of the bytes below VL. -/
def insVpred (fn pd va : Nat) (f : List Nat → Bool) : InsDef :=
  insVec 0x2E fn (4 * pd) va 0 false (fun E s =>
    let a := rdV s E 0 va
    .done (wrP s E pd (f ((List.range (seeVL s E)).map (fun i => elem a i 1))) 1) false)

/-- VADD (R229): a + b. -/
def insVadd (es vd va vb : Nat) : InsDef :=
  insVop 0 es vd va vb (fun a b => a + b)

/-- The command VADD: issue of the instruction. -/
def execVadd (h : Hdr) (es vd va vb : Nat) (s : State) : Host.Outcome State Fault Refusal :=
  issue h (insVadd es vd va vb) s

/-- VSUB (R229): a − b. -/
def insVsub (es vd va vb : Nat) : InsDef :=
  insVops 1 es vd va vb (fun n a b => toField (a - b) n)

/-- The command VSUB: issue of the instruction. -/
def execVsub (h : Hdr) (es vd va vb : Nat) (s : State) : Host.Outcome State Fault Refusal :=
  issue h (insVsub es vd va vb) s

/-- VAND (R229): a AND b. -/
def insVand (es vd va vb : Nat) : InsDef :=
  insVop 2 es vd va vb (Nat.land)

/-- The command VAND: issue of the instruction. -/
def execVand (h : Hdr) (es vd va vb : Nat) (s : State) : Host.Outcome State Fault Refusal :=
  issue h (insVand es vd va vb) s

/-- VOR (R229): a OR b. -/
def insVor (es vd va vb : Nat) : InsDef :=
  insVop 3 es vd va vb (Nat.lor)

/-- The command VOR: issue of the instruction. -/
def execVor (h : Hdr) (es vd va vb : Nat) (s : State) : Host.Outcome State Fault Refusal :=
  issue h (insVor es vd va vb) s

/-- VXOR (R229): a XOR b. -/
def insVxor (es vd va vb : Nat) : InsDef :=
  insVop 4 es vd va vb (Nat.xor)

/-- The command VXOR: issue of the instruction. -/
def execVxor (h : Hdr) (es vd va vb : Nat) (s : State) : Host.Outcome State Fault Refusal :=
  issue h (insVxor es vd va vb) s

/-- VANDN (R229): a AND NOT b. -/
def insVandn (es vd va vb : Nat) : InsDef :=
  insVop 5 es vd va vb (fun a b => a - Nat.land a b)

/-- The command VANDN: issue of the instruction. -/
def execVandn (h : Hdr) (es vd va vb : Nat) (s : State) : Host.Outcome State Fault Refusal :=
  issue h (insVandn es vd va vb) s

/-- VSLL (R229): left shift by b mod 8·ES. -/
def insVsll (es vd va vb : Nat) : InsDef :=
  insVop 6 es vd va vb (fun a b => a <<< (b % (8 * esOf es)))

/-- The command VSLL: issue of the instruction. -/
def execVsll (h : Hdr) (es vd va vb : Nat) (s : State) : Host.Outcome State Fault Refusal :=
  issue h (insVsll es vd va vb) s

/-- VSRL (R229): right shift by b mod 8·ES. -/
def insVsrl (es vd va vb : Nat) : InsDef :=
  insVop 7 es vd va vb (fun a b => a >>> (b % (8 * esOf es)))

/-- The command VSRL: issue of the instruction. -/
def execVsrl (h : Hdr) (es vd va vb : Nat) (s : State) : Host.Outcome State Fault Refusal :=
  issue h (insVsrl es vd va vb) s

/-- VSRA (R229): arithmetic right shift. -/
def insVsra (es vd va vb : Nat) : InsDef :=
  insVop 8 es vd va vb (fun a b =>
    toField (signExtend a (8 * esOf es) / 2 ^ (b % (8 * esOf es))) (8 * esOf es))

/-- The command VSRA: issue of the instruction. -/
def execVsra (h : Hdr) (es vd va vb : Nat) (s : State) : Host.Outcome State Fault Refusal :=
  issue h (insVsra es vd va vb) s

/-- VMIN (R229): signed minimum. -/
def insVmin (es vd va vb : Nat) : InsDef :=
  insVops 9 es vd va vb (fun n a b => toField (if b < a then b else a) n)

/-- The command VMIN: issue of the instruction. -/
def execVmin (h : Hdr) (es vd va vb : Nat) (s : State) : Host.Outcome State Fault Refusal :=
  issue h (insVmin es vd va vb) s

/-- VMAX (R229): signed maximum. -/
def insVmax (es vd va vb : Nat) : InsDef :=
  insVops 10 es vd va vb (fun n a b => toField (if a < b then b else a) n)

/-- The command VMAX: issue of the instruction. -/
def execVmax (h : Hdr) (es vd va vb : Nat) (s : State) : Host.Outcome State Fault Refusal :=
  issue h (insVmax es vd va vb) s

/-- VMINU (R229): unsigned minimum. -/
def insVminu (es vd va vb : Nat) : InsDef :=
  insVop 11 es vd va vb (Nat.min)

/-- The command VMINU: issue of the instruction. -/
def execVminu (h : Hdr) (es vd va vb : Nat) (s : State) : Host.Outcome State Fault Refusal :=
  issue h (insVminu es vd va vb) s

/-- VMAXU (R229): unsigned maximum. -/
def insVmaxu (es vd va vb : Nat) : InsDef :=
  insVop 12 es vd va vb (Nat.max)

/-- The command VMAXU: issue of the instruction. -/
def execVmaxu (h : Hdr) (es vd va vb : Nat) (s : State) : Host.Outcome State Fault Refusal :=
  issue h (insVmaxu es vd va vb) s

/-- VADDS (R229): signed saturating sum. -/
def insVadds (es vd va vb : Nat) : InsDef :=
  insVops 13 es vd va vb (fun n a b => satSigned (a + b) n)

/-- The command VADDS: issue of the instruction. -/
def execVadds (h : Hdr) (es vd va vb : Nat) (s : State) : Host.Outcome State Fault Refusal :=
  issue h (insVadds es vd va vb) s

/-- VADDSU (R229): unsigned saturating sum. -/
def insVaddsu (es vd va vb : Nat) : InsDef :=
  insVop 14 es vd va vb (fun a b => satUnsigned ((a : Int) + b) (8 * esOf es))

/-- The command VADDSU: issue of the instruction. -/
def execVaddsu (h : Hdr) (es vd va vb : Nat) (s : State) : Host.Outcome State Fault Refusal :=
  issue h (insVaddsu es vd va vb) s

/-- VSUBS (R229): signed saturating difference. -/
def insVsubs (es vd va vb : Nat) : InsDef :=
  insVops 15 es vd va vb (fun n a b => satSigned (a - b) n)

/-- The command VSUBS: issue of the instruction. -/
def execVsubs (h : Hdr) (es vd va vb : Nat) (s : State) : Host.Outcome State Fault Refusal :=
  issue h (insVsubs es vd va vb) s

/-- VSUBSU (R229): unsigned saturating difference. -/
def insVsubsu (es vd va vb : Nat) : InsDef :=
  insVop 16 es vd va vb (fun a b => satUnsigned ((a : Int) - b) (8 * esOf es))

/-- The command VSUBSU: issue of the instruction. -/
def execVsubsu (h : Hdr) (es vd va vb : Nat) (s : State) : Host.Outcome State Fault Refusal :=
  issue h (insVsubsu es vd va vb) s

/-- VABSD (R229): absolute difference of the signed values, taken as unsigned. -/
def insVabsd (es vd va vb : Nat) : InsDef :=
  insVops 17 es vd va vb (fun _ a b => (a - b).natAbs)

/-- The command VABSD: issue of the instruction. -/
def execVabsd (h : Hdr) (es vd va vb : Nat) (s : State) : Host.Outcome State Fault Refusal :=
  issue h (insVabsd es vd va vb) s

/-- VMUL (R229): low half of the product. -/
def insVmul (es vd va vb : Nat) : InsDef :=
  insVop 18 es vd va vb (fun a b => a * b)

/-- The command VMUL: issue of the instruction. -/
def execVmul (h : Hdr) (es vd va vb : Nat) (s : State) : Host.Outcome State Fault Refusal :=
  issue h (insVmul es vd va vb) s

/-- VMULH (R229): high half of the signed product. -/
def insVmulh (es vd va vb : Nat) : InsDef :=
  insVops 19 es vd va vb (fun n a b => toField (a * b / 2 ^ n) n)

/-- The command VMULH: issue of the instruction. -/
def execVmulh (h : Hdr) (es vd va vb : Nat) (s : State) : Host.Outcome State Fault Refusal :=
  issue h (insVmulh es vd va vb) s

/-- VBCAST (R229): the low bits of a general register in every active element. -/
def insVbcast (es vd ra : Nat) : InsDef :=
  insVec 0x28 (4 * 20 + es) vd ra 0 false (fun E s =>
    let x := rdG s E 0 ra
    .done (wrV s E vd (mapElems (rdV s E 1 vd) (nact s E (esOf es)) (esOf es) (fun _ => x.toNat)) 3) false)

/-- The command VBCAST: issue of the instruction. -/
def execVbcast (h : Hdr) (es vd ra : Nat) (s : State) : Host.Outcome State Fault Refusal :=
  issue h (insVbcast es vd ra) s

/-- VFADD (R230): sum. -/
def insVfadd (f : Bool) (vd va vb : Nat) : InsDef :=
  insVf 0 f vd va vb (fun k _ a b => k.add a b)

/-- The command VFADD: issue of the instruction. -/
def execVfadd (h : Hdr) (f : Bool) (vd va vb : Nat) (s : State) : Host.Outcome State Fault Refusal :=
  issue h (insVfadd f vd va vb) s

/-- VFSUB (R230): difference. -/
def insVfsub (f : Bool) (vd va vb : Nat) : InsDef :=
  insVf 1 f vd va vb (fun k _ a b => k.sub a b)

/-- The command VFSUB: issue of the instruction. -/
def execVfsub (h : Hdr) (f : Bool) (vd va vb : Nat) (s : State) : Host.Outcome State Fault Refusal :=
  issue h (insVfsub f vd va vb) s

/-- VFMUL (R230): product. -/
def insVfmul (f : Bool) (vd va vb : Nat) : InsDef :=
  insVf 2 f vd va vb (fun k _ a b => k.mul a b)

/-- The command VFMUL: issue of the instruction. -/
def execVfmul (h : Hdr) (f : Bool) (vd va vb : Nat) (s : State) : Host.Outcome State Fault Refusal :=
  issue h (insVfmul f vd va vb) s

/-- VFMAC (R230): d + a × b, fused. -/
def insVfmac (f : Bool) (vd va vb : Nat) : InsDef :=
  insVf 3 f vd va vb (fun k d a b => k.fma d a b)

/-- The command VFMAC: issue of the instruction. -/
def execVfmac (h : Hdr) (f : Bool) (vd va vb : Nat) (s : State) : Host.Outcome State Fault Refusal :=
  issue h (insVfmac f vd va vb) s

/-- VFMIN (R230): as FMIN. -/
def insVfmin (f : Bool) (vd va vb : Nat) : InsDef :=
  insVf 4 f vd va vb (fun k _ a b => k.min a b)

/-- The command VFMIN: issue of the instruction. -/
def execVfmin (h : Hdr) (f : Bool) (vd va vb : Nat) (s : State) : Host.Outcome State Fault Refusal :=
  issue h (insVfmin f vd va vb) s

/-- VFMAX (R230): as FMAX. -/
def insVfmax (f : Bool) (vd va vb : Nat) : InsDef :=
  insVf 5 f vd va vb (fun k _ a b => k.max a b)

/-- The command VFMAX: issue of the instruction. -/
def execVfmax (h : Hdr) (f : Bool) (vd va vb : Nat) (s : State) : Host.Outcome State Fault Refusal :=
  issue h (insVfmax f vd va vb) s

/-- VFNEG (R230): sign inverted. -/
def insVfneg (f : Bool) (vd va : Nat) : InsDef :=
  insVf 6 f vd va 0 (fun k _ a _ => k.neg a)

/-- The command VFNEG: issue of the instruction. -/
def execVfneg (h : Hdr) (f : Bool) (vd va : Nat) (s : State) : Host.Outcome State Fault Refusal :=
  issue h (insVfneg f vd va) s

/-- VFABS (R230): sign cleared. -/
def insVfabs (f : Bool) (vd va : Nat) : InsDef :=
  insVf 7 f vd va 0 (fun k _ a _ => k.abs a)

/-- The command VFABS: issue of the instruction. -/
def execVfabs (h : Hdr) (f : Bool) (vd va : Nat) (s : State) : Host.Outcome State Fault Refusal :=
  issue h (insVfabs f vd va) s

/-- VFCVTIF (R230): signed integer of the same width, converted. -/
def insVfcvtif (f : Bool) (vd va : Nat) : InsDef :=
  insVf 8 f vd va 0 (fun k _ a _ => k.ofInt (signExtend a k.width))

/-- The command VFCVTIF: issue of the instruction. -/
def execVfcvtif (h : Hdr) (f : Bool) (vd va : Nat) (s : State) : Host.Outcome State Fault Refusal :=
  issue h (insVfcvtif f vd va) s

/-- VFCVTFI (R230): to a signed integer, truncated; saturated; a NaN gives 0. -/
def insVfcvtfi (f : Bool) (vd va : Nat) : InsDef :=
  insVf 9 f vd va 0 (fun k _ a _ =>
    toField (k.toInt a false (-(2 ^ (k.width - 1))) (2 ^ (k.width - 1) - 1)) k.width)

/-- The command VFCVTFI: issue of the instruction. -/
def execVfcvtfi (h : Hdr) (f : Bool) (vd va : Nat) (s : State) : Host.Outcome State Fault Refusal :=
  issue h (insVfcvtfi f vd va) s

/-- VFCVTFIR (R230): to a signed integer, rounded to nearest even; saturated; a NaN gives 0. -/
def insVfcvtfir (f : Bool) (vd va : Nat) : InsDef :=
  insVf 10 f vd va 0 (fun k _ a _ =>
    toField (k.toInt a true (-(2 ^ (k.width - 1))) (2 ^ (k.width - 1) - 1)) k.width)

/-- The command VFCVTFIR: issue of the instruction. -/
def execVfcvtfir (h : Hdr) (f : Bool) (vd va : Nat) (s : State) : Host.Outcome State Fault Refusal :=
  issue h (insVfcvtfir f vd va) s

/-- VDOT8 (R231): signed bytes. -/
def insVdot8 (vd va vb : Nat) : InsDef :=
  insVdot 0 4 vd va vb false

/-- The command VDOT8: issue of the instruction. -/
def execVdot8 (h : Hdr) (vd va vb : Nat) (s : State) : Host.Outcome State Fault Refusal :=
  issue h (insVdot8 vd va vb) s

/-- VDOT8US (R231): the bytes of va unsigned. -/
def insVdot8us (vd va vb : Nat) : InsDef :=
  insVdot 1 4 vd va vb true

/-- The command VDOT8US: issue of the instruction. -/
def execVdot8us (h : Hdr) (vd va vb : Nat) (s : State) : Host.Outcome State Fault Refusal :=
  issue h (insVdot8us vd va vb) s

/-- VDOT16 (R231): signed 16-bit halves. -/
def insVdot16 (vd va vb : Nat) : InsDef :=
  insVdot 2 2 vd va vb false

/-- The command VDOT16: issue of the instruction. -/
def execVdot16 (h : Hdr) (vd va vb : Nat) (s : State) : Host.Outcome State Fault Refusal :=
  issue h (insVdot16 vd va vb) s

/-- VMAC (R231): d + a × b. -/
def insVmac (es vd va vb : Nat) : InsDef :=
  insVec3 0x2A (8 + es) (esOf es) vd va vb (fun d a b => d + a * b)

/-- The command VMAC: issue of the instruction. -/
def execVmac (h : Hdr) (es vd va vb : Nat) (s : State) : Host.Outcome State Fault Refusal :=
  issue h (insVmac es vd va vb) s

/-- VPERM (R232): byte permute; bit 7 of an index gives zero, bit 6 is ignored. -/
def insVperm (vd va vb : Nat) : InsDef :=
  insVec 0x2B 0 vd va vb false (fun E s =>
    let d := rdV s E 0 vd
    let a := rdV s E 1 va
    let b := rdV s E 2 vb
    .done (wrV s E vd (mapElems d (seeVL s E) 1 (fun i =>
      let x := elem b i 1
      if bit x 7 then 0 else elem a (x % 64) 1)) 3) false)

/-- The command VPERM: issue of the instruction. -/
def execVperm (h : Hdr) (vd va vb : Nat) (s : State) : Host.Outcome State Fault Refusal :=
  issue h (insVperm vd va vb) s

/-- VREDADD (R232): wrap of the signed sum. -/
def insVredadd (es rd va : Nat) : InsDef :=
  insVred (0x04 + es) (esOf es) rd va (fun l => wrap (signeds (esOf es) l).sum)

/-- The command VREDADD: issue of the instruction. -/
def execVredadd (h : Hdr) (es rd va : Nat) (s : State) : Host.Outcome State Fault Refusal :=
  issue h (insVredadd es rd va) s

/-- VREDMIN (R232): signed minimum, sign-extended. -/
def insVredmin (es rd va : Nat) : InsDef :=
  insVred (0x08 + es) (esOf es) rd va (fun l => redPick (fun x y => decide (x < y)) (signeds (esOf es) l))

/-- The command VREDMIN: issue of the instruction. -/
def execVredmin (h : Hdr) (es rd va : Nat) (s : State) : Host.Outcome State Fault Refusal :=
  issue h (insVredmin es rd va) s

/-- VREDMAX (R232): signed maximum, sign-extended. -/
def insVredmax (es rd va : Nat) : InsDef :=
  insVred (0x0C + es) (esOf es) rd va (fun l => redPick (fun x y => decide (y < x)) (signeds (esOf es) l))

/-- The command VREDMAX: issue of the instruction. -/
def execVredmax (h : Hdr) (es rd va : Nat) (s : State) : Host.Outcome State Fault Refusal :=
  issue h (insVredmax es rd va) s

/-- VREDMINU (R232): unsigned minimum, zero-extended. -/
def insVredminu (es rd va : Nat) : InsDef :=
  insVred (0x10 + es) (esOf es) rd va (fun l => redPick (fun x y => decide (x < y)) (l.map Int.ofNat))

/-- The command VREDMINU: issue of the instruction. -/
def execVredminu (h : Hdr) (es rd va : Nat) (s : State) : Host.Outcome State Fault Refusal :=
  issue h (insVredminu es rd va) s

/-- VREDMAXU (R232): unsigned maximum, zero-extended. -/
def insVredmaxu (es rd va : Nat) : InsDef :=
  insVred (0x14 + es) (esOf es) rd va (fun l => redPick (fun x y => decide (y < x)) (l.map Int.ofNat))

/-- The command VREDMAXU: issue of the instruction. -/
def execVredmaxu (h : Hdr) (es rd va : Nat) (s : State) : Host.Outcome State Fault Refusal :=
  issue h (insVredmaxu es rd va) s

/-- VFREDADD (R232): the float sum in ascending element order; with one element no addition is made, and the value itself is the sum (DEDUCED; a NaN is the canonical NaN). -/
def insVfredadd (f : Bool) (rd va : Nat) : InsDef :=
  insVred (0x18 + b2n f) (esFmt f) rd va (fun l => match l with
    | [] => 0
    | x :: r => word (r.foldl (fun acc y => (fmtOf f).add acc y) ((fmtOf f).pack ((fmtOf f).unpack x))))

/-- The command VFREDADD: issue of the instruction. -/
def execVfredadd (h : Hdr) (f : Bool) (rd va : Nat) (s : State) : Host.Outcome State Fault Refusal :=
  issue h (insVfredadd f rd va) s

/-- VEXT (R232): an element, zero-extended; 0 when the index is n or more. -/
def insVext (es rd va rb : Nat) : InsDef :=
  insVec 0x2B (0x1C + es) rd va rb false (fun E s =>
    let a := rdV s E 0 va
    let i := (rdG s E 1 rb).toNat
    .done (wrG s E rd (if i < nact s E (esOf es) then word (elem a i (esOf es)) else 0) 3) false)

/-- The command VEXT: issue of the instruction. -/
def execVext (h : Hdr) (es rd va rb : Nat) (s : State) : Host.Outcome State Fault Refusal :=
  issue h (insVext es rd va rb) s

/-- VINS (R232): inserts a general register; no change when the index is n or more. -/
def insVins (es vd ra rb : Nat) : InsDef :=
  insVec 0x2B (0x20 + es) vd ra rb false (fun E s =>
    let d := rdV s E 0 vd
    let i := (rdG s E 2 rb).toNat
    .done (wrV s E vd (if i < nact s E (esOf es) then setElem d i (esOf es) (rdG s E 1 ra).toNat else d) 3) false)

/-- The command VINS: issue of the instruction. -/
def execVins (h : Hdr) (es vd ra rb : Nat) (s : State) : Host.Outcome State Fault Refusal :=
  issue h (insVins es vd ra rb) s

/-- VCEQ (R233): equal. -/
def insVceq (es vd va vb : Nat) : InsDef :=
  insVcmp (0x00 + es) (esOf es) vd va vb (fun a b => decide (a = b))

/-- The command VCEQ: issue of the instruction. -/
def execVceq (h : Hdr) (es vd va vb : Nat) (s : State) : Host.Outcome State Fault Refusal :=
  issue h (insVceq es vd va vb) s

/-- VCLT (R233): signed less. -/
def insVclt (es vd va vb : Nat) : InsDef :=
  insVcmp (0x04 + es) (esOf es) vd va vb
    (fun a b => decide (signExtend a (8 * esOf es) < signExtend b (8 * esOf es)))

/-- The command VCLT: issue of the instruction. -/
def execVclt (h : Hdr) (es vd va vb : Nat) (s : State) : Host.Outcome State Fault Refusal :=
  issue h (insVclt es vd va vb) s

/-- VCLTU (R233): unsigned less. -/
def insVcltu (es vd va vb : Nat) : InsDef :=
  insVcmp (0x08 + es) (esOf es) vd va vb (fun a b => decide (a < b))

/-- The command VCLTU: issue of the instruction. -/
def execVcltu (h : Hdr) (es vd va vb : Nat) (s : State) : Host.Outcome State Fault Refusal :=
  issue h (insVcltu es vd va vb) s

/-- VFCEQ (R233): float equal; false when unordered. -/
def insVfceq (f : Bool) (vd va vb : Nat) : InsDef :=
  insVcmp (0x0C + b2n f) (esFmt f) vd va vb (fmtOf f).eq

/-- The command VFCEQ: issue of the instruction. -/
def execVfceq (h : Hdr) (f : Bool) (vd va vb : Nat) (s : State) : Host.Outcome State Fault Refusal :=
  issue h (insVfceq f vd va vb) s

/-- VFCLT (R233): float less; false when unordered. -/
def insVfclt (f : Bool) (vd va vb : Nat) : InsDef :=
  insVcmp (0x0E + b2n f) (esFmt f) vd va vb (fmtOf f).lt

/-- The command VFCLT: issue of the instruction. -/
def execVfclt (h : Hdr) (f : Bool) (vd va vb : Nat) (s : State) : Host.Outcome State Fault Refusal :=
  issue h (insVfclt f vd va vb) s

/-- VSEL (R233): a where d is non-zero, otherwise b. -/
def insVsel (es vd va vb : Nat) : InsDef :=
  insVec3 0x2E (0x10 + es) (esOf es) vd va vb (fun d a b => if d ≠ 0 then a else b)

/-- The command VSEL: issue of the instruction. -/
def execVsel (h : Hdr) (es vd va vb : Nat) (s : State) : Host.Outcome State Fault Refusal :=
  issue h (insVsel es vd va vb) s

/-- VANY (R233): some byte below VL is non-zero. -/
def insVany (pd va : Nat) : InsDef :=
  insVpred 0x18 pd va (fun l => l.any (fun x => decide (x ≠ 0)))

/-- The command VANY: issue of the instruction. -/
def execVany (h : Hdr) (pd va : Nat) (s : State) : Host.Outcome State Fault Refusal :=
  issue h (insVany pd va) s

/-- VALL (R233): every byte below VL is non-zero. -/
def insVall (pd va : Nat) : InsDef :=
  insVpred 0x19 pd va (fun l => l.all (fun x => decide (x ≠ 0)))

/-- The command VALL: issue of the instruction. -/
def execVall (h : Hdr) (pd va : Nat) (s : State) : Host.Outcome State Fault Refusal :=
  issue h (insVall pd va) s

/-- VSETVL (R228): VL := n·ES for n = min(request, 64 div ES); a zero request leaves VL. The write is visible to the next instruction. -/
def insVsetvl (es rd ra : Nat) : InsDef :=
  { word := encT 0x2E (0x1C + es) rd ra 0, wideOk := false, repOk := true, reserved := false, vector := false, priv := false,
    routine := none,
    run := fun E s =>
      let n := Nat.min (rdG s E 0 ra).toNat (64 / esOf es)
      let s' := if n = 0 then s else s.hwSr E nVSTATE (setFld ((s.ctx E.n E.k).srv nVSTATE) 14 8 (n * esOf es))
      .done (wrG s' E rd (word n) 0) false }

/-- The command VSETVL: issue of the instruction. -/
def execVsetvl (h : Hdr) (es rd ra : Nat) (s : State) : Host.Outcome State Fault Refusal :=
  issue h (insVsetvl es rd ra) s

/-! ## Vector loads and stores (R234, R235) -/

/-- The access of a vector load or store: barred from SE pages and register space, never sent to another node. -/
def vecAcc (o : Operand) (cb size kind perms : Nat) : Acc := ⟨o.cap, cb, o.ea, size, kind, perms, 0, 0, true, false, false⟩

/-- VLD (R234): the bytes of t from VL on are unchanged. Waited. -/
def insVld (h : Hdr) (t : Nat) (m : MemOp) : InsDef :=
  { word := encM 0x2C 0 t m, wideOk := true, repOk := true, reserved := memReserved h m allModes, vector := true, priv := false,
    routine := none,
    run := fun E s =>
      let vl := seeVL s E
      let o := memOperand s E h m vl
      match loadData s E (vecAcc o m.cb vl kLOAD (pm pLOAD)) with
      | .trap t s => .trap t s
      | .wait w s => .hold (s.waitOn E w)
      | .remote _ s => .done s false
      | .ok (v, _) s =>
        let d := rdV s E 0 t
        .done (writeBack (wrV s E t (BitVec.ofNat 512 (d.toNat / 2 ^ (8 * vl) * 2 ^ (8 * vl) + v % 2 ^ (8 * vl))) 0) E m.cb o) false }

/-- The command VLD: issue of the instruction. -/
def execVld (h : Hdr) (t : Nat) (m : MemOp) (s : State) : Host.Outcome State Fault Refusal :=
  issue h (insVld h t m) s

/-- A vector store with a tag (R234). -/
def insVstore (h : Hdr) (op tag t : Nat) (m : MemOp) : InsDef :=
  { word := encM 0x2C op t m, wideOk := true, repOk := true, reserved := memReserved h m allModes, vector := true, priv := false,
    routine := none,
    run := fun E s =>
      let vl := seeVL s E
      let o := memOperand s E h m vl
      match storeData s E (vecAcc o m.cb vl kSTORE (pm pSTORE)) ((rdV s E 0 t).toNat % 2 ^ (8 * vl)) tag with
      | .trap t s => .trap t s
      | .wait w s => .hold (s.waitOn E w)
      | .remote _ s => .done s false
      | .ok _ s => .done (writeBack s E m.cb o) false }

/-- VST. -/
def insVst (h : Hdr) (t : Nat) (m : MemOp) : InsDef := insVstore h 1 tINT t m

/-- The command VST: issue of the instruction. -/
def execVst (h : Hdr) (t : Nat) (m : MemOp) (s : State) : Host.Outcome State Fault Refusal :=
  issue h (insVst h t m) s

/-- VSTF. -/
def insVstf (h : Hdr) (t : Nat) (m : MemOp) : InsDef := insVstore h 2 tFLT t m

/-- The command VSTF: issue of the instruction. -/
def execVstf (h : Hdr) (t : Nat) (m : MemOp) (s : State) : Host.Outcome State Fault Refusal :=
  issue h (insVstf h t m) s

/-! ## Gather and scatter (R236-R239) -/

/-- The cause with EELEM set to the element. -/
def Trap.at (t : Trap) (i : Nat) : Trap := { t with elem := i }

/-- The address phase: every element in turn, no memory touched; the answer lists each element's address and chunks. -/
def gatherAddrs (s : State) (E : Env) (acc : Nat → Acc) : List Nat → Did (List (Nat × List Chunk))
  | [] => .ok [] s
  | i :: is =>
    match resolve s E (acc i) with
    | (.trap t, s) => .trap (t.at i) s
    | (.wait w, s) => .wait w (s.setCtx E.n E.k { s.ctx E.n E.k with waitElem := i })
    | (.ok cs, s) =>
      match gatherAddrs s E acc is with
      | .ok l s => .ok ((i, cs) :: l) s
      | r => r

/-- GATHER and SCATTER as gather_scatter of R237. -/
def gatherScatter (es8 : Bool) (sc : Nat) (sgn ft : Bool) (vd va cb : Nat) (scat : Bool) (E : Env) (s : State) : Res :=
  let es := if es8 then 8 else 4
  let n := nact s E es
  let c := rdC s E 8 cb
  let idx := rdV s E 0 va
  let d := rdV s E 1 vd
  let addr := fun (i : Nat) =>
    (wrap ((c.cur : Int) + (if sgn then selem idx i es else (elem idx i es : Int)) * 2 ^ sc)).toNat
  let acc := fun (i : Nat) => (⟨c, cb, addr i, es, if scat then kSTORE else kLOAD, if scat then pm pSTORE else pm pLOAD, 0, 0,
    true, false, false⟩ : Acc)
  match gatherAddrs s E acc (List.range n) with
  | .trap t s => .trap t s
  | .wait w s => .hold (s.waitOn E w)
  | .remote _ s => .done s false
  | .ok l s =>
    let tag := if ft then tFLT else tINT
    let value := fun (i : Nat) => elem d i es
    let tagTrap := fun (e : Nat × List Chunk) =>
      let one := if scat then storeTags s E cb (addr e.1) (value e.1) tag e.2 else loadTags s E cb (addr e.1) e.2
      let ovf := if scat then
          overflowTrap s E (addr e.1) ((l.filter (fun x => decide (x.1 ≤ e.1))).flatMap
            (fun x => dataPuts x.2 (addr x.1) (value x.1) tag ++ unbackedPuts x.2))
        else none
      let found := match one with
        | some t => some t
        | none => match s.breakAt E.n (if scat then 2 else 1) (addr e.1) es with
          | some t => some t
          | none => ovf
      found.map (fun t => t.at e.1)
    match l.findSome? tagTrap with
    | some t => .trap t s
    | none =>
      if scat then
        .done (l.foldl (fun s e =>
          if unbackedPuts e.2 ≠ [] then s.lateStore E e.2 (addr e.1) es
          else (s.perform E (dataPuts e.2 (addr e.1) (value e.1) tag)).sampleFar E (s.farStores E e.2)) s) false
      else
        let s := s.beforeLoad E (l.flatMap (fun e => e.2))
        let v := l.foldl (fun v e => setElem v e.1 es (ofBytes (e.2.flatMap (chunkBytes s E)))) d
        .done (wrV (l.foldl (fun s e => s.farLoad E e.2) s) E vd v 0) false

/-- FN of a gather or scatter (R236). -/
def gatherFn (es8 scat : Bool) (sc : Nat) (sgn ft : Bool) : Nat :=
  b2n es8 + 2 * b2n scat + 4 * sc + 32 * b2n sgn + 64 * b2n ft

/-- GATHER: FT is reserved (R236), and a REP prefix is not accepted (R165). -/
def insGather (es : Bool) (sc : Nat) (sgn ft : Bool) (vd va cb : Nat) : InsDef :=
  { insVec 0x2D (gatherFn es false sc sgn ft) vd va (2 * cb) (decide (5 ≤ sc) || ft)
      (gatherScatter es sc sgn ft vd va cb false) with repOk := false }

/-- The command GATHER: issue of the instruction. -/
def execGather (h : Hdr) (es : Bool) (sc : Nat) (sgn ft : Bool) (vd va cb : Nat) (s : State) :
    Host.Outcome State Fault Refusal :=
  issue h (insGather es sc sgn ft vd va cb) s

/-- SCATTER. -/
def insScatter (es : Bool) (sc : Nat) (sgn ft : Bool) (vd va cb : Nat) : InsDef :=
  { insVec 0x2D (gatherFn es true sc sgn ft) vd va (2 * cb) (decide (5 ≤ sc))
      (gatherScatter es sc sgn ft vd va cb true) with repOk := false }

/-- The command SCATTER: issue of the instruction. -/
def execScatter (h : Hdr) (es : Bool) (sc : Nat) (sgn ft : Bool) (vd va cb : Nat) (s : State) :
    Host.Outcome State Fault Refusal :=
  issue h (insScatter es sc sgn ft vd va cb) s

end Sys2Proof.Machine
end

