-- ==== Sys2Proof/Machine/Rep.lean ====
section
/-! DEFINITION. The REP prefix over an instruction: what each core instruction is under issue, and the command that runs one
element ("Instruction encoding, addressing and distances", R163-R168). -/

namespace Sys2Proof.Machine

open Sys2Proof

/-- The header of a core instruction and what its issue needs to know of it; none for a command that is no core instruction
and for CPYT, whose elements take more than one of the count. -/
def insOf : Instr → Option (Hdr × InsDef)
  | .add h rd ra rb => some (h, insAdd rd ra rb)
  | .sub h rd ra rb => some (h, insSub rd ra rb)
  | .and h rd ra rb => some (h, insAnd rd ra rb)
  | .or h rd ra rb => some (h, insOr rd ra rb)
  | .xor h rd ra rb => some (h, insXor rd ra rb)
  | .andn h rd ra rb => some (h, insAndn rd ra rb)
  | .sll h rd ra rb => some (h, insSll rd ra rb)
  | .srl h rd ra rb => some (h, insSrl rd ra rb)
  | .sra h rd ra rb => some (h, insSra rd ra rb)
  | .ror h rd ra rb => some (h, insRor rd ra rb)
  | .min h rd ra rb => some (h, insMin rd ra rb)
  | .max h rd ra rb => some (h, insMax rd ra rb)
  | .minu h rd ra rb => some (h, insMinu rd ra rb)
  | .maxu h rd ra rb => some (h, insMaxu rd ra rb)
  | .clz h rd ra => some (h, insClz rd ra)
  | .ctz h rd ra => some (h, insCtz rd ra)
  | .popc h rd ra => some (h, insPopc rd ra)
  | .bswap h rd ra => some (h, insBswap rd ra)
  | .sext h rd ra sel => some (h, insSext rd ra sel)
  | .zext h rd ra sel => some (h, insZext rd ra sel)
  | .slli h rd ra sh => some (h, insSlli rd ra sh)
  | .srli h rd ra sh => some (h, insSrli rd ra sh)
  | .srai h rd ra sh => some (h, insSrai rd ra sh)
  | .rori h rd ra sh => some (h, insRori rd ra sh)
  | .addi h rd ra imm => some (h, insAddi h rd ra imm)
  | .andi h rd ra imm => some (h, insAndi h rd ra imm)
  | .ori h rd ra imm => some (h, insOri h rd ra imm)
  | .xori h rd ra imm => some (h, insXori h rd ra imm)
  | .movi h rd imm => some (h, insMovi h rd imm)
  | .movs h rd imm => some (h, insMovs h rd imm)
  | .ceq h pd ra rb => some (h, insCeq pd ra rb)
  | .cne h pd ra rb => some (h, insCne pd ra rb)
  | .clt h pd ra rb => some (h, insClt pd ra rb)
  | .cge h pd ra rb => some (h, insCge pd ra rb)
  | .cltu h pd ra rb => some (h, insCltu pd ra rb)
  | .cgeu h pd ra rb => some (h, insCgeu pd ra rb)
  | .ctst h pd ra rb => some (h, insCtst pd ra rb)
  | .ceqi h pd ra imm => some (h, insCeqi h pd ra imm)
  | .cnei h pd ra imm => some (h, insCnei h pd ra imm)
  | .clti h pd ra imm => some (h, insClti h pd ra imm)
  | .cgei h pd ra imm => some (h, insCgei h pd ra imm)
  | .pand h pd pa pb => some (h, insPand pd pa pb)
  | .por h pd pa pb => some (h, insPor pd pa pb)
  | .pxor h pd pa pb => some (h, insPxor pd pa pb)
  | .pandn h pd pa pb => some (h, insPandn pd pa pb)
  | .pnot h pd pa => some (h, insPnot pd pa)
  | .mul h rd ra rb => some (h, insMul rd ra rb)
  | .mulh h rd ra rb => some (h, insMulh rd ra rb)
  | .mulhu h rd ra rb => some (h, insMulhu rd ra rb)
  | .mulhsu h rd ra rb => some (h, insMulhsu rd ra rb)
  | .div h rd ra rb => some (h, insDiv rd ra rb)
  | .divu h rd ra rb => some (h, insDivu rd ra rb)
  | .rem h rd ra rb => some (h, insRem rd ra rb)
  | .remu h rd ra rb => some (h, insRemu rd ra rb)
  | .fadd h f rd ra rb => some (h, insFadd f rd ra rb)
  | .fsub h f rd ra rb => some (h, insFsub f rd ra rb)
  | .fmul h f rd ra rb => some (h, insFmul f rd ra rb)
  | .fdiv h f rd ra rb => some (h, insFdiv f rd ra rb)
  | .fsqrt h f rd ra => some (h, insFsqrt f rd ra)
  | .fmin h f rd ra rb => some (h, insFmin f rd ra rb)
  | .fmax h f rd ra rb => some (h, insFmax f rd ra rb)
  | .fmac h f rd ra rb => some (h, insFmac f rd ra rb)
  | .fceq h f pd ra rb => some (h, insFceq f pd ra rb)
  | .fclt h f pd ra rb => some (h, insFclt f pd ra rb)
  | .fcle h f pd ra rb => some (h, insFcle f pd ra rb)
  | .fcun h f pd ra rb => some (h, insFcun f pd ra rb)
  | .fneg h f rd ra => some (h, insFneg f rd ra)
  | .fabs h f rd ra => some (h, insFabs f rd ra)
  | .fclass h f rd ra => some (h, insFclass f rd ra)
  | .fcvtif h f rd ra => some (h, insFcvtif f rd ra)
  | .fcvtuf h f rd ra => some (h, insFcvtuf f rd ra)
  | .fcvtfi h f rd ra => some (h, insFcvtfi f rd ra)
  | .fcvtfir h f rd ra => some (h, insFcvtfir f rd ra)
  | .fcvtfu h f rd ra => some (h, insFcvtfu f rd ra)
  | .fcvtff h f rd ra => some (h, insFcvtff f rd ra)
  | .ldb h t m => some (h, insLdb h t m)
  | .ldh h t m => some (h, insLdh h t m)
  | .ldw h t m => some (h, insLdw h t m)
  | .ld h t m => some (h, insLd h t m)
  | .ldbu h t m => some (h, insLdbu h t m)
  | .ldhu h t m => some (h, insLdhu h t m)
  | .ldwu h t m => some (h, insLdwu h t m)
  | .stb h t m => some (h, insStb h t m)
  | .sth h t m => some (h, insSth h t m)
  | .stw h t m => some (h, insStw h t m)
  | .st h t m => some (h, insSt h t m)
  | .ldf32 h t m => some (h, insLdf32 h t m)
  | .ldf64 h t m => some (h, insLdf64 h t m)
  | .stf32 h t m => some (h, insStf32 h t m)
  | .stf64 h t m => some (h, insStf64 h t m)
  | .ldc h t m => some (h, insLdc h t m)
  | .stc h t m => some (h, insStc h t m)
  | .ldres h t cb => some (h, insLdres t cb)
  | .stcond h t cb pd => some (h, insStcond t cb pd)
  | .ldresc h t cb => some (h, insLdresc t cb)
  | .stcondc h t cb pd => some (h, insStcondc t cb pd)
  | .gettag h t m => some (h, insGettag h t m)
  | .cleartag h t cb => some (h, insCleartag t cb)
  | .cleartagp h t cb => some (h, insCleartagp t cb)
  | .br h off => some (h, insBr off)
  | .call h off => some (h, insCall off)
  | .jmp h ca => some (h, insJmp ca)
  | .callc h ca => some (h, insCallc ca)
  | .ret h => some (h, insRet)
  | .jmpx h src => some (h, insJmpx src)
  | .mfs h num rd rn => some (h, insMfs num rd rn)
  | .mts h num src rn => some (h, insMts num src rn)
  | .mfsc h num cd => some (h, insMfsc num cd)
  | .mtsc h num ca => some (h, insMtsc num ca)
  | .loop h lvl imm len count => some (h, insLoop lvl imm len count)
  | .cstep h cd ca gs => some (h, insCstep cd ca gs)
  | .caim h cd ca gs => some (h, insCaim cd ca gs)
  | .ctrim h cd ca gs => some (h, insCtrim cd ca gs)
  | .ctrimx h cd ca gs => some (h, insCtrimx cd ca gs)
  | .cstrip h cd ca gs => some (h, insCstrip cd ca gs)
  | .ctether h cd ca => some (h, insCtether cd ca)
  | .ccopy h cd ca => some (h, insCcopy cd ca)
  | .cvoid h cd ca => some (h, insCvoid cd ca)
  | .crdcur h ca gd => some (h, insCrdcur ca gd)
  | .crdbase h ca gd => some (h, insCrdbase ca gd)
  | .crdlen h ca gd => some (h, insCrdlen ca gd)
  | .crdperm h ca gd => some (h, insCrdperm ca gd)
  | .crdtype h ca gd => some (h, insCrdtype ca gd)
  | .crdflag h ca gd => some (h, insCrdflag ca gd)
  | .crdhi h ca gd => some (h, insCrdhi ca gd)
  | .cclose h cd ca cs => some (h, insCclose cd ca cs)
  | .copen h cd ca cs => some (h, insCopen cd ca cs)
  | .ckdrop h cd ca gs => some (h, insCkdrop cd ca gs)
  | .pass h ca => some (h, insPass ca)
  | .passr h ca => some (h, insPassr ca)
  | .cross h ca => some (h, insCross ca)
  | .xreply h => some (h, insXreply)
  | .ascend h => some (h, insAscend)
  | .descend h => some (h, insDescend)
  | .eret h => some (h, insEret)
  | .fence h => some (h, insFence)
  | .fencesl h => some (h, insFencesl)
  | .isync h => some (h, insIsync)
  | .tlbiv h gs => some (h, insTlbiv gs)
  | .tlbivs h gs => some (h, insTlbivs gs)
  | .tlbivd h gs => some (h, insTlbivd gs)
  | .tlbivsd h gs => some (h, insTlbivsd gs)
  | .tlbiall h => some (h, insTlbiall)
  | .tlbialld h => some (h, insTlbialld)
  | .handlerEnd h ca gs => some (h, insHandlerEnd ca gs)
  | .savel h => some (h, insSavel)
  | .saveh h => some (h, insSaveh)
  | .loadl h => some (h, insLoadl)
  | .loadh h => some (h, insLoadh)
  | .vspill h => some (h, insVspill)
  | .vfill h => some (h, insVfill)
  | .kcmd h cd ca gd => some (h, insKcmd cd ca gd)
  | .vadd h es vd va vb => some (h, insVadd es vd va vb)
  | .vsub h es vd va vb => some (h, insVsub es vd va vb)
  | .vand h es vd va vb => some (h, insVand es vd va vb)
  | .vor h es vd va vb => some (h, insVor es vd va vb)
  | .vxor h es vd va vb => some (h, insVxor es vd va vb)
  | .vandn h es vd va vb => some (h, insVandn es vd va vb)
  | .vsll h es vd va vb => some (h, insVsll es vd va vb)
  | .vsrl h es vd va vb => some (h, insVsrl es vd va vb)
  | .vsra h es vd va vb => some (h, insVsra es vd va vb)
  | .vmin h es vd va vb => some (h, insVmin es vd va vb)
  | .vmax h es vd va vb => some (h, insVmax es vd va vb)
  | .vminu h es vd va vb => some (h, insVminu es vd va vb)
  | .vmaxu h es vd va vb => some (h, insVmaxu es vd va vb)
  | .vadds h es vd va vb => some (h, insVadds es vd va vb)
  | .vaddsu h es vd va vb => some (h, insVaddsu es vd va vb)
  | .vsubs h es vd va vb => some (h, insVsubs es vd va vb)
  | .vsubsu h es vd va vb => some (h, insVsubsu es vd va vb)
  | .vabsd h es vd va vb => some (h, insVabsd es vd va vb)
  | .vmul h es vd va vb => some (h, insVmul es vd va vb)
  | .vmulh h es vd va vb => some (h, insVmulh es vd va vb)
  | .vbcast h es vd ra => some (h, insVbcast es vd ra)
  | .vfadd h f vd va vb => some (h, insVfadd f vd va vb)
  | .vfsub h f vd va vb => some (h, insVfsub f vd va vb)
  | .vfmul h f vd va vb => some (h, insVfmul f vd va vb)
  | .vfmac h f vd va vb => some (h, insVfmac f vd va vb)
  | .vfmin h f vd va vb => some (h, insVfmin f vd va vb)
  | .vfmax h f vd va vb => some (h, insVfmax f vd va vb)
  | .vfneg h f vd va => some (h, insVfneg f vd va)
  | .vfabs h f vd va => some (h, insVfabs f vd va)
  | .vfcvtif h f vd va => some (h, insVfcvtif f vd va)
  | .vfcvtfi h f vd va => some (h, insVfcvtfi f vd va)
  | .vfcvtfir h f vd va => some (h, insVfcvtfir f vd va)
  | .vdot8 h vd va vb => some (h, insVdot8 vd va vb)
  | .vdot8us h vd va vb => some (h, insVdot8us vd va vb)
  | .vdot16 h vd va vb => some (h, insVdot16 vd va vb)
  | .vmac h es vd va vb => some (h, insVmac es vd va vb)
  | .vperm h vd va vb => some (h, insVperm vd va vb)
  | .vredadd h es rd va => some (h, insVredadd es rd va)
  | .vredmin h es rd va => some (h, insVredmin es rd va)
  | .vredmax h es rd va => some (h, insVredmax es rd va)
  | .vredminu h es rd va => some (h, insVredminu es rd va)
  | .vredmaxu h es rd va => some (h, insVredmaxu es rd va)
  | .vfredadd h f rd va => some (h, insVfredadd f rd va)
  | .vext h es rd va rb => some (h, insVext es rd va rb)
  | .vins h es vd ra rb => some (h, insVins es vd ra rb)
  | .vceq h es vd va vb => some (h, insVceq es vd va vb)
  | .vclt h es vd va vb => some (h, insVclt es vd va vb)
  | .vcltu h es vd va vb => some (h, insVcltu es vd va vb)
  | .vfceq h f vd va vb => some (h, insVfceq f vd va vb)
  | .vfclt h f vd va vb => some (h, insVfclt f vd va vb)
  | .vsel h es vd va vb => some (h, insVsel es vd va vb)
  | .vany h pd va => some (h, insVany pd va)
  | .vall h pd va => some (h, insVall pd va)
  | .vsetvl h es rd ra => some (h, insVsetvl es rd ra)
  | .vld h t m => some (h, insVld h t m)
  | .vst h t m => some (h, insVst h t m)
  | .vstf h t m => some (h, insVstf h t m)
  | .gather h es sc sgn ft vd va cb => some (h, insGather es sc sgn ft vd va cb)
  | .scatter h es sc sgn ft vd va cb => some (h, insScatter es sc sgn ft vd va cb)
  | .dividerResult _ => none
  | .cpyt _ _ _ _ => none
  | .repElement _ _ => none
  | .kcmdStatus => none
  | .mvReread _ _ => none
  | .mvWaitTimeout _ _ => none
  | .interruptReport _ => none
  | .holdEnd _ => none
  | .interruptAccept _ _ => none
  | .eoi _ _ _ => none
  | .cntsub _ _ _ => none
  | .pendWithdraw _ _ _ => none
  | .doorbell _ _ => none
  | .timerCompare _ => none
  | .masklimitExpiry _ => none
  | .buserrAsync _ _ => none
  | .handlerWatchdog _ _ => none
  | .farDataArrival _ => none
  | .prefetchRead _ => none
  | .storeBufferWrite _ => none
  | .tcmWriteFromOutside _ _ _ _ => none
  | .pairSelfTest _ _ => none
  | .pairTcmReload _ => none
  | .csParityCorrection _ _ _ _ _ _ => none
  | .mcsLoadreq _ _ => none
  | .mcsLoadComplete _ => none
  | .heatDecay => none
  | .placementMove _ => none
  | .give _ _ => none
  | .take _ _ => none
  | .ovfRead _ => none
  | .ceWriteback _ _ => none
  | .scrubRead _ _ => none
  | .rowSparing _ _ => none
  | .retraining _ _ => none
  | .calnow _ _ => none
  | .retire _ _ => none
  | .drainingCopy _ => none
  | .retdone _ => none
  | .adv _ _ => none
  | .epochAdvanceComplete => none
  | .dbgAccess _ _ _ _ => none
  | .halt _ _ _ => none
  | .step _ _ _ => none
  | .coreHalted _ => none
  | .laneDoorbell _ _ _ => none
  | .ringDescriptorRead _ => none
  | .frameLanding _ => none
  | .laneStall _ => none
  | .formatFetch => none
  | .fload _ _ => none
  | .parse => none
  | .handlerStart => none
  | .deadline _ => none
  | .abortRedispatch _ _ => none
  | .abortEnd _ _ => none
  | .abortRelease _ _ => none
  | .recordSealing => none
  | .append => none
  | .cartridgeAck _ _ => none
  | .journalStall => none
  | .slotUnanswered _ => none
  | .mediaError _ => none
  | .responseRelease _ => none
  | .postBuffer _ _ _ => none
  | .responseBufferWait _ => none
  | .cartridgeInsert _ _ => none
  | .cartridgeRemove _ => none
  | .attestation _ => none
  | .attestationTimeout _ => none
  | .wearRead => none
  | .release _ _ _ => none
  | .resilver _ => none
  | .resilverComplete _ => none
  | .labelRewrite _ => none
  | .relseq _ _ => none
  | .go _ _ => none
  | .readOutComplete => none
  | .linkTraining _ _ => none
  | .admission _ _ _ _ _ _ _ => none
  | .rekey _ => none
  | .heartbeat _ => none
  | .linkSilent _ => none
  | .flitReceive _ _ _ => none
  | .packetForward _ _ => none
  | .loadPacket _ _ => none
  | .storePacket _ _ => none
  | .passPacket _ _ => none
  | .lookup _ _ => none
  | .reg _ _ => none
  | .offer _ _ => none
  | .physrd _ _ => none
  | .physwr _ _ => none
  | .dataPacket _ _ => none
  | .ackPacket _ _ => none
  | .nack _ _ => none
  | .passreply _ _ => none
  | .lookreply _ _ => none
  | .mdata _ _ => none
  | .frame _ _ => none
  | .fresp _ _ => none
  | .lost _ _ => none
  | .join _ _ => none
  | .echo _ _ => none
  | .echoTimeout _ => none
  | .remoteTimeout _ => none
  | .plotCacheExpiry _ => none
  | .forwardingExpiry _ => none
  | .claim _ _ => none
  | .plotRelease _ _ => none
  | .plotMigration => none
  | .remotePassServiceStart => none
  | .crossServiceStart _ => none
  | .crossTimeout _ _ => none
  | .eventReport _ => none
  | .depHoldEnd _ => none
  | .retireNow _ _ => none
  | .readmit _ _ => none
  | .recordFree _ _ _ => none
  | .recordAcknowledge _ _ _ => none
  | .ageMeasurement _ _ => none
  | .monitorSample _ _ _ => none
  | .snap _ _ => none
  | .clear _ _ => none
  | .selftest _ => none
  | .configure => none
  | .check _ _ _ => none
  | .checkComplete => none
  | .rctlGo _ _ => none
  | .sliceQuiesced => none
  | .quiesceTimeout => none
  | .fuseRoot _ => none
  | .warmReset => none
  | .readReg _ => none
  | .getId => none
  | .lock _ _ => none
  | .svncommit _ _ => none
  | .tamperCause _ _ => none
  | .lockdownClear => none
  | .ldcountProgram => none
  | .domainSwitchOn _ _ _ => none
  | .domainSwitchOff _ _ _ => none
  | .switchOnComplete _ => none
  | .dvfsRequest _ _ _ => none
  | .powerControl _ => none
  | .thermalLimit _ _ _ => none
  | .pllUnlock _ => none
  | .warmDeviceReset _ _ => none
  | .domainReset _ _ => none
  | .pairReset _ _ => none
  | .coreReset _ _ => none
  | .linkBlockReset _ _ => none
  | .slotBlockReset _ _ => none
  | .keyUnitReset _ _ => none
  | .monitorReset _ _ => none
  | .laneReset _ _ => none
  | .porN _ => none
  | .wrstN => none
  | .pePerstN _ => none
  | .thermtrip _ => none
  | .avsAckTimeout => none
  | .erase _ _ => none
  | .program _ _ => none
  | .flashRead _ _ => none
  | .flashOperationDone _ => none
  | .txgo _ _ => none
  | .mctpTransmissionDone => none
  | .mctpMessageReceived _ => none
  | .rxfull _ _ => none
  | .uartTransmit _ _ => none
  | .uartReceive _ => none
  | .uartRead _ => none
  | .rng _ _ => none
  | .hash _ _ => none
  | .pkverify _ _ => none
  | .enc _ _ => none
  | .dec _ _ => none
  | .macgen _ _ => none
  | .macver _ _ => none
  | .pinxlate _ _ => none
  | .arqc _ _ => none
  | .cvv _ _ => none
  | .sign _ _ => none
  | .verify _ _ => none
  | .rsadec _ _ => none
  | .kinfo _ _ => none
  | .kgen _ _ => none
  | .kimport _ _ => none
  | .kexport _ _ => none
  | .kdelete _ _ => none
  | .kagree _ _ => none
  | .reseed _ _ => none
  | .drbgReseed _ => none
  | .entropyHealthFail _ => none
  | .registerWrite _ _ _ => none
  | .pllLockRegained _ => none
  | .referenceClockLost => none
  | .referenceClockRestored => none
  | .avsAcknowledgement => none
  | .wrstNRise => none
  | .uartTransmitterEmpty => none
  | .flashOperationTimeout => none
  | .noEligiblePair => none
  | .oldKeyExpiry _ => none

/-- REP_ELEMENT (R164): one element of the instruction i under a REP prefix, issued by context h.ctx of core h.core under the
guard of h. i carries the same header; a word with both prefixes is no instruction. -/
def execRepElement (h : Hdr) (i : Instr) (s : State) : Host.Outcome State Fault Refusal :=
  if h.wide.isSome then .refused .illFormed
  else
    match i with
    | .cpyt h' _ cs cb => if h' = h then issueRep h (insCpyt cs cb) (cpytTook cs) s else .refused .illFormed
    | i =>
      match insOf i with
      | some (h', d) => if h' = h then issueRep h d (fun _ _ => 1) s else .refused .illFormed
      | none => .refused .illFormed

end Sys2Proof.Machine
end

