-- ==== Sys2Proof/Machine/Fabric.lean ====
section
/-! DEFINITION. Packets of the fabric as this node receives them: what is dropped or forwarded, requests for the plots it owns, and the
answers to its own requests ("The Cordillera fabric and the estate", R493-R516, R524, R525). -/

namespace Sys2Proof.Machine

open Sys2Proof

/-! ## Arrival (R493, R496, R499) -/

/-- Every field of a packet lies in its range (R494); PLEN counts the payload. -/
def pktFits (p : Pkt) : Bool :=
  decide (p.typ < 64) && decide (p.vc < 4) && decide (p.dst < 1024) && decide (p.src < 1024) && decide (p.ttl < 32) && decide (p.dl < 2)
    && decide (p.z < 4) && decide (p.reqid < 65536) && decide (p.arg < 65536) && decide (p.addr < 2 ^ 48)
    && decide (p.payload.length < 4096) && p.tags.all (fun t => decide (t < 16))

/-- A packet that R496 drops. -/
def pktMalformed (p : Pkt) : Bool :=
  decide (vcOf p.typ ≠ some p.vc) || decide (p.z ≠ 0) || decide (2048 < p.payload.length)

/-- The types that an ATTACHED link carries (R487). -/
def attachedType (typ : Nat) : Bool := [pkFRAME, pkPHYSRD, pkPHYSWR, pkECHO].contains typ

/-- A packet that came over link l is dropped (R528); 12 stands for this node itself. -/
def State.pktDrop (s : State) (l : Nat) : State := if l < 12 then s.linkReport l 5 else s

/-- A packet is taken from a link that carries packets, or from those this node sent to itself (12). -/
def State.takePkt (s : State) (l : Nat) (p : Pkt) : Option State :=
  if l = 12 then (if s.loop.contains p then some { s with loop := s.loop.erase p } else none)
  else if s.serving && s.linkUp l then some (s.setLink l { s.linkRun l with lastRx := s.now })
  else none

/-- The packet may not pass: malformed, or of a type that its link does not carry (R493, R496). -/
def State.barred (s : State) (l : Nat) (p : Pkt) : Bool :=
  (pktMalformed p) || (decide (l < 12) && decide (s.linkState l = lsATTACHED) && !(attachedType p.typ))

/-- A packet that arrived on link l for another node goes on over its route with one hop less, or is dropped (R496, R499). -/
def State.forward (s : State) (l : Nat) (p : Pkt) : State :=
  if p.ttl = 0 then s.pktDrop l
  else
    let p := { p with ttl := p.ttl - 1, dl := if s.rf (.cdlLctl l) cdlLctl_DATELINE = 1 then 1 else p.dl }
    match s.routeLink p.dst p.src p.addr with
    | none => s.pktDrop l
    | some m => s.emit m (some l) p

/-- A packet of a type arrives on link l, and run is what it does at this node; one for another node is forwarded. Nothing happens
when no such packet is on the link. -/
def fabricRow (typ l : Nat) (p : Pkt) (s : State) (run : State → Host.Outcome State Fault Refusal) :
    Host.Outcome State Fault Refusal :=
  if 12 < l ∨ (pktFits p) = false ∨ p.typ ≠ typ then .refused .illFormed
  else
    match s.takePkt l p with
    | none => .next s
    | some s =>
      let s := s.answerLost
      if s.barred l p then .next (s.pktDrop l)
      else if p.dst ≠ s.node then .next (s.forward l p)
      else run s

/-- PACKET_FORWARD (R496, R498, R499): a packet that is malformed is dropped, and one for another node goes on over its route with one
hop less, or is dropped. -/
def execPacketForward (l : Nat) (p : Pkt) (s : State) : Host.Outcome State Fault Refusal :=
  if 12 ≤ l ∨ (pktFits p) = false then .refused .illFormed
  else
    match s.takePkt l p with
    | none => .next s
    | some s' =>
      if s'.barred l p then .next (s'.pktDrop l)
      else if p.dst = s.node then .next s
      else .next (s'.forward l p)

/-! ## Requests to the owner of a plot (R504, R508) -/

/-- How a request ends before it is performed: the reason of its NACK, the owner's cause and the translation reason. Reason 16 is no answer:
the walk waits on MV of the entry that cause then names (R354). -/
structure Denial where
  reason  : Nat
  cause   : Nat
  oreason : Nat
  deriving DecidableEq, Repr

/-- The translation of a remote access by this node's table (R508, steps 2 to 5): its physical address, or what it ends with; a mark
that is found clear is also reported. While translation is bypassed the address is physical, under the checks of R332 and the rights
of key 0. -/
def ownerPa (s : State) (p : Pkt) (store : Bool) : Except Denial Nat × State :=
  let E := startEnv s.tableCore 0
  let kind := if store then kSTORE else kLOAD
  if s.tableN = 0 then
    if 0x1800000000 ≤ p.addr then (.error ⟨0, ecPAGE_FAULT, 0⟩, s)
    else if s.regionBreach false p.addr then (.error ⟨0, ecPAGE_FAULT, 4⟩, s)
    else if !(keyAllows (keyRights (s.reg (.cdlRkeys 0)) (s.reg (.cdlRkeys 1)) 0) kind) then (.error ⟨0, ecPAGE_FAULT, 3⟩, s)
    else (.ok p.addr, s)
  else
    match walk s E false (p.addr / 2 ^ 14) with
    | ((.wait entry, _, _), s) => (.error ⟨16, entry, 0⟩, s)
    | ((.cause c, _, _), s) => (.error ⟨0, c.code, c.reason⟩, s)
    | ((.ok e, w, _), s) =>
      let marked := fun (s : State) => s.raise 12 (plotOf p.addr) 0x40 0 0
      let rights := keyRights (s.reg (.cdlRkeys 0)) (s.reg (.cdlRkeys 1)) e.pkey
      let unseen := match w with
        | some w => !w.a
        | none => false
      if !(e.allows kind) then (.error ⟨0, ecPAGE_FAULT, 2⟩, s)
      else if store && !e.d then (.error ⟨0, ecDIRTY_MARK, 0⟩, marked s)
      else if !(keyAllows rights kind) then (.error ⟨0, ecPAGE_FAULT, 3⟩, s)
      else if unseen then (.error ⟨0, ecACCESS_MARK, 0⟩, marked s)
      else (.ok ((e.frame + (p.addr / 2 ^ 14 - e.vpn)) * 2 ^ 14 + p.addr % 2 ^ 14), s)

/-- The Ridge check of a remote access as FAB (R508, step 6), with its samples (R399, R517). -/
def State.ridgeRemote (s : State) (write : Bool) (pa src plot : Nat) : Bool × State :=
  let (pick, s) := if s.rdgStale.isEmpty then (0, s) else
    let (v, s) := s.draw
    (v % 2 ^ s.rdgStale.length, s)
  match s.rdgDecide pick mFAB 0 write pa with
  | none => (false, s.rdgDeny mFAB 0 write pa)
  | some _ =>
    let s := if pa < 0x1800000000 then s.heatHit (pa / 2 ^ 14) (dieOfStack (stackOf pa)) else s
    (true, s.plotHitBy plot (some src))

/-- Steps 2 to 6 of R508. -/
def ownerAccess (s : State) (p : Pkt) (store : Bool) : Except Denial Nat × State :=
  match ownerPa s p store with
  | (.error d, s) => (.error d, s)
  | (.ok pa, s) =>
    match s.ridgeRemote store pa p.src (plotOf p.addr) with
    | (false, s) => (.error ⟨6, 0, 0⟩, s)
    | (true, s) => (.ok pa, s)

/-- The size, capability flag and third flag of ARG (R495). -/
def pktSize (p : Pkt) : Nat := p.arg % 32
def pktIsCap (p : Pkt) : Bool := bit p.arg 5
def pktFlag6 (p : Pkt) : Bool := bit p.arg 6

/-- A LOAD or STORE that R506 does not allow. -/
def pktBadAccess (p : Pkt) : Bool :=
  if (pktIsCap p) then decide ((pktSize p) ≠ 16) || decide (p.addr % 16 ≠ 0)
  else !([1, 2, 4, 8].contains (pktSize p)) || decide (8 < p.addr % 8 + (pktSize p))

/-- DATA to the sender of a request. -/
def State.answerData (s : State) (p : Pkt) (bs : List Byte) (tags : List Nat) : State :=
  s.sendOwn (s.mkPkt pkDATA p.src p.reqid 0 0 bs tags)

/-- ACK to the sender of a request. -/
def State.answerAck (s : State) (p : Pkt) (ok : Bool) : State := s.sendOwn (s.mkPkt pkACK p.src p.reqid (b2n ok) 0 [] [])

/-- A Denial is sent. -/
def State.deny (s : State) (p : Pkt) (d : Denial) : State := s.nack p.src p.reqid d.reason d.cause d.oreason none

/-- A remote access that is not performed: it is answered, or kept while its walk waits. -/
def State.denyOrHold (s : State) (l : Nat) (p : Pkt) (d : Denial) : State :=
  if d.reason = 16 then { s with fab := { s.fab with mvHeld := s.fab.mvHeld ++ [⟨l, p, d.cause, s.now⟩] } } else s.deny p d

/-- A capability in the payload from word i on. -/
def pktCapAt (p : Pkt) (i : Nat) : Cap :=
  ⟨word (payloadWord p.payload i), word (payloadWord p.payload (i + 1)),
   decide (p.tags.getD i tINT = tCAPLO) && decide (p.tags.getD (i + 1) tINT = tCAPHI)⟩

/-- A LOAD is served (R57, R69, R507, R508). -/
def serveLoad (s : State) (l : Nat) (p : Pkt) : State :=
  match ownerAccess s p false with
  | (.error d, s) => s.denyOrHold l p d
  | (.ok pa, s) =>
    if isRegSpace pa then
      if (pktIsCap p) || (pktFlag6 p) then s.deny p ⟨0, ecSE_ACCESS, 0⟩
      else if (pktSize p) = 8 ∧ pa % 8 = 0 then
        let (v, s) := readPa s (.master mFAB 0) pa
        s.answerData p (wordBytes [v.toNat]) [tINT]
      else s.deny p ⟨0, ecMC_BUS, 0⟩
    else if !(backedDram pa) then s.deny p ⟨0, ecMC_BUS, 0⟩
    else if (pktFlag6 p) then
      let t := s.mem.tag pa
      if 7 ≤ t then s.deny p ⟨0, ecTAG_FAULT, 0⟩ else s.answerData p (wordBytes [t]) [tINT]
    else if (pktIsCap p) then
      let lo := s.mem.tag pa
      let hi := s.mem.tag (pa + 8)
      match capTagTrap lo hi 0 p.addr with
      | some t => s.deny p ⟨0, t.code, 0⟩
      | none =>
        let c : Cap := ⟨word (s.mem.word pa), word (s.mem.word (pa + 8)), decide (lo = tCAPLO)⟩
        let c := if c.mayLeave then c else { c with tag := false }
        s.answerData p (capBytes c) (if c.tag then [tCAPLO, tCAPHI] else [tINT, tINT])
    else
      match loadTagTrap (s.mem.tag pa) 0 p.addr false with
      | some t => s.deny p ⟨0, t.code, 0⟩
      | none => s.answerData p ((List.range (pktSize p)).map (fun i => s.mem.byte (pa + i))) [s.mem.tag pa]

/-- A STORE is served (R59, R60, R69, R192, R508). -/
def serveStore (s : State) (l : Nat) (p : Pkt) : State :=
  match ownerAccess s p true with
  | (.error d, s) => s.denyOrHold l p d
  | (.ok pa, s) =>
    let v := ofBytes (p.payload.map BitVec.toNat)
    if isRegSpace pa then
      if (pktIsCap p) then s.deny p ⟨0, ecSE_ACCESS, 0⟩
      else if (pktSize p) = 8 ∧ pa % 8 = 0 then
        match writePa s (.master mFAB 0) pa (word v) with
        | some s => s.answerAck p true
        | none => s.deny p ⟨0, ecCAP_PERM, 0⟩
      else s.deny p ⟨0, ecMC_BUS, 0⟩
    else if !(backedDram pa) then s.deny p ⟨0, ecMC_BUS, 0⟩
    else
      let ops := if (pktIsCap p) then capOps pa (pktCapAt p 0) else dataOps pa v (pktSize p) (if (pktFlag6 p) then tFLT else tINT) 3
      let bad := if (pktIsCap p) then capStoreTrap (s.mem.tag pa) (s.mem.tag (pa + 8)) 0 p.addr
        else ops.findSome? (fun o => storeTagTrap (s.mem.tag o.addr) o.mask 0 p.addr false)
      match bad with
      | some t => s.deny p ⟨0, t.code, 0⟩
      | none => (s.writeOps .dram none ops).answerAck p true

/-- A PASS is queued (R513): answered NACK with reason 8 when remote PASS is off or its queue is full. -/
def servePass (s : State) (l : Nat) (p : Pkt) : State :=
  if s.rf .cdlRpass cdlRpass_EN = 0 ∨ 64 ≤ s.fab.rpq.length then s.deny p ⟨8, 0, 0⟩
  else
    let r : RPReq := { num := s.fab.rpNo, src := p.src, reqid := p.reqid, link := l, ro := bit p.arg 0, addr := p.addr,
                       caps := (List.range 6).map (fun i => pktCapAt p (2 + 2 * i)),
                       regs := (List.range 8).map (fun i => word (payloadWord p.payload (14 + i))), gone := false }
    { s with fab := { s.fab with rpq := s.fab.rpq ++ [r], rpNo := s.fab.rpNo + 1 } }

/-- A request for a plot: held while the plot migrates, answered NOT_OWNER by a node that does not own it (R504, R518), and otherwise
served. -/
def serveRequest (s : State) (l : Nat) (p : Pkt) : State :=
  let plot := plotOf p.addr
  let away := match s.fab.migOut with
    | some m => decide (m.plot = plot) && decide (6 ≤ m.step)
    | none => false
  if away then
    { s with fab := { s.fab with migOut := s.fab.migOut.map (fun m => { m with held := m.held ++ [(l, p)] }) } }
  else if !(s.ownMap.contains plot) then
    let hint := match tfind s.forwards plot with
      | some (n, t) => if s.now < t then some n else none
      | none => none
    s.nack p.src p.reqid 5 0 0 hint
  else if p.typ = pkLOAD then serveLoad s l p
  else if p.typ = pkSTORE then serveStore s l p
  else servePass s l p

/-- LOAD_PACKET (R508). -/
def execLoadPacket (l : Nat) (p : Pkt) (s : State) : Host.Outcome State Fault Refusal :=
  fabricRow pkLOAD l p s (fun s =>
    .next (if (pktBadAccess p) && !((pktFlag6 p) && !(pktIsCap p) && decide ((pktSize p) = 8) && decide (p.addr % 8 = 0)) then s.pktDrop l
      else serveRequest s l p))

/-- STORE_PACKET (R508). -/
def execStorePacket (l : Nat) (p : Pkt) (s : State) : Host.Outcome State Fault Refusal :=
  fabricRow pkSTORE l p s (fun s =>
    .next (if (pktBadAccess p) || decide (p.payload.length ≠ (pktSize p)) then s.pktDrop l else serveRequest s l p))

/-- PASS_PACKET (R513). -/
def execPassPacket (l : Nat) (p : Pkt) (s : State) : Host.Outcome State Fault Refusal :=
  fabricRow pkPASS l p s (fun s => .next (if p.payload.length ≠ 176 then s.pktDrop l else serveRequest s l p))

/-! ## Walks that wait on MV (R354, R361) -/

/-- The first remote access that waits on MV ends its wait: it is answered, or served again. -/
def State.heldEnds (s : State) (d : Option Denial) : State :=
  match s.fab.mvHeld with
  | [] => s
  | h :: rest =>
    let s : State := { s with fab := { s.fab with mvHeld := rest } }
    match d with
    | some d => s.deny h.pkt d
    | none => serveRequest s h.link h.pkt

/-- The walk of the first remote access that waits on MV reads word 0 again. -/
def State.heldReread (s : State) : State :=
  match s.fab.mvHeld with
  | [] => s
  | h :: _ =>
    if h.since + 20000 ≤ s.now + 40 then s
    else
      match probe (s.advanceTo (s.now + 40)) (startEnv s.tableCore 0) h.entry 1 with
      | (.error c, s) => s.heldEnds (some ⟨0, c.code, c.reason⟩)
      | (.ok e, s) => if e.mv then s else s.heldEnds none

/-- 20 µs have passed since the walk of the first remote access that waits met MV. -/
def State.heldTimeout (s : State) : State :=
  match s.fab.mvHeld with
  | [] => s
  | h :: _ =>
    match probe (s.advanceTo (h.since + 20000)) (startEnv s.tableCore 0) h.entry 1 with
    | (.error c, s) => s.heldEnds (some ⟨0, c.code, c.reason⟩)
    | (.ok e, s) => s.heldEnds (if e.mv then some ⟨0, ecWALK_ERROR, 4⟩ else none)

/-- MV_REREAD (R361): the walker reads word 0 again, 64 mesh cycles later, as a probe; n = 112 names the first walk that is made for a remote
access, any other the walk of context k of core n. -/
def execMvReread (n k : Nat) (s : State) : Host.Outcome State Fault Refusal :=
  if 113 ≤ n ∨ 2 ≤ k then .refused .illFormed
  else if n = 112 then .next s.heldReread
  else
    match (s.ctx n k).wait with
    | .mv va entry info since =>
      if since + 20000 ≤ s.now + 40 then .next s
      else
        let s := s.advanceTo (s.now + 40)
        let E := s.waitEnv n k
        match probe s E entry 1 with
        | (.error c, s) => .next ((s.endWait n k).fail E ⟨c.code, info + c.reason, va, (s.ctx n k).waitElem⟩)
        | (.ok e, s) => .next (if e.mv then s else s.endWait n k)
    | _ => .next s

/-- MV_WAIT_TIMEOUT (R354): when MV is still set 20 µs after the walk first matched the entry, WALK_ERROR with reason 4, for the walk of context
k of core n or, with n = 112, for a remote access. -/
def execMvWaitTimeout (n k : Nat) (s : State) : Host.Outcome State Fault Refusal :=
  if 113 ≤ n ∨ 2 ≤ k then .refused .illFormed
  else if n = 112 then .next s.heldTimeout
  else
    match (s.ctx n k).wait with
    | .mv va entry info since =>
      let s := s.advanceTo (since + 20000)
      let E := s.waitEnv n k
      .next (
        match probe s E entry 1 with
        | (.error c, s) => (s.endWait n k).fail E ⟨c.code, info + c.reason, va, (s.ctx n k).waitElem⟩
        | (.ok e, s) => if e.mv then (s.endWait n k).fail E ⟨ecWALK_ERROR, info + 4, va, (s.ctx n k).waitElem⟩ else s.endWait n k)
    | _ => .next s

/-! ## Remote-PASS services (R513, R514, R515) -/

/-- The words of a descriptor that a service start reads, with its causes. -/
def rpDesc (s : State) (E : Env) (va size : Nat) : Except Denial (List (Nat × Nat)) × State :=
  let a := routineAcc (rootMemory false 0) 0 va size kLOAD 0
  match chunkAt s E a va size with
  | (.trap t, s) =>
    (.error ⟨0, t.code, if t.code = ecPAGE_FAULT ∨ t.code = ecWALK_ERROR then bits t.info 3 0 else 0⟩, s)
  | (.wait (.mv _ _ _), s) => (.error ⟨0, ecWALK_ERROR, 4⟩, s)
  | (.wait (.owner _ _), s) => (.error ⟨0, ecCAP_PERM, 0⟩, s)
  | (.ok cs, s) =>
    match ctxWords s E 0 va cs with
    | .error t => (.error ⟨0, t.code, 0⟩, s)
    | .ok ws => (.ok ws, s)

/-- What a service start needs of its two descriptors: the gate, the context capability and the level. -/
def rpChecks (s : State) (E : Env) (r : RPReq) : Except Denial (Gate × Cap × Bool) × State :=
  let va := fld (s.reg .cdlRpdesc) 63 7 * 128
  match rpDesc s E va 128 with
  | (.error d, s) => (.error d, s)
  | (.ok ds, s) =>
    let cc := descCap ds 6
    let fl := (ds[8]?).getD (0, 0)
    if !(ctxCapOk cc false) || !((decide (fl.2 = tINT) || decide (fl.2 = tUNINIT)) && decide (fl.1 < 2)) then
      (.error ⟨0, ecCAP_INVALID, 0⟩, s)
    else
      match rpDesc s E r.addr 64 with
      | (.error d, s) => (.error d, s)
      | (.ok ws, s) =>
        match gateTags ws 0 r.addr with
        | some t => (.error ⟨0, t.code, 0⟩, s)
        | none =>
          match gateOf ws 0 r.addr false with
          | .error t => (.error ⟨0, t.code, 0⟩, s)
          | .ok g =>
            if r.ro && !g.ro then (.error ⟨0, ecCAP_PERM, 0⟩, s)
            else if g.code.cur % 4 ≠ 0 then (.error ⟨0, ecALIGN, 0⟩, s)
            else (.ok (g, cc, bit fl.1 0), s)

/-- The context as a service start sets it, with the remote-PASS record pushed (R513, R514). -/
def rpStart (s : State) (E : Env) (r : RPReq) (g : Gate) (cc : Cap) (sup : Bool) : Except Denial State :=
  let slot := cc.base + 0x8000 * (2 * (E.n / 2) + E.k)
  let tx : Tx := { Tx.none with
    state := if r.ro then .active else .none, service := if r.ro then 3 else 2, req := r.num, slotLo := slot, slotHi := slot + 0x8000 }
  let caps := ((List.range 6).zip r.caps).map (fun e => (e.1 + 1, e.2))
  let ring := ((List.range 8).zip r.regs).map (fun e => (ringIndex 0 1 e.1, e.2))
  let s := s.startCtx E.n E.k sup g.code g.data cc caps [] ring tx
  match pushCheck s E 64 with
  | .trap t _ => .error ⟨0, t.code, if t.code = ecPAGE_FAULT ∨ t.code = ecWALK_ERROR then bits t.info 3 0 else 0⟩
  | .wait _ _ => .error ⟨0, ecWALK_ERROR, 4⟩
  | .ok p s =>
    let ctl := controlWord (seeSr s E nCTXID).toNat 0 g.vclr false false 3
    let id := r.src % 1024 + r.reqid * 2 ^ 16 + b2n r.ro * 2 ^ 32
    .ok ((s.push E p [ctl, id, 0, 0, 0, 0, 0, p.addr]).hwSr E nWDEPTH (word 1))

/-- The memory that the start of a service reaches through its table: the two descriptors and, once the first is read, the remote-PASS record
that the push writes. -/
def rpReach (s : State) (E : Env) (r : RPReq) : List (Bool × Nat × Nat) :=
  let va := fld (s.reg .cdlRpdesc) 63 7 * 128
  [(false, va, 128), (false, r.addr, 64)] ++
    match (rpDesc s E va 128).1 with
    | .error _ => []
    | .ok ds => if ctxCapOk (descCap ds 6) false then [(false, (descCap ds 6).base + 0x8000 * (2 * (E.n / 2) + E.k) + 0x7C0, 64)] else []

/-- REMOTE_PASS_SERVICE_START (R513): the request at the head of the queue starts on the pair the placement engine chooses; a failure
is answered NACK with reason 0 and the cause. -/
def execRemotePassServiceStart (s : State) : Host.Outcome State Fault Refusal :=
  match s.fab.rpq with
  | [] => .next s
  | r :: rest =>
    if !s.serving then .next s
    else
      match s.choosePair 128 (s.rf .cdlRpass cdlRpass_PAIRS) false none none with
      | none => .next s
      | some p =>
        let n := 2 * p
        let E := startEnv n ((s.idleCtx n).getD 0)
        match s.startWaits 128 E (rpReach s E r) with
        | some s => .next s
        | none =>
        let s := s.startGoes 128
        let s : State := { s.answerLost with fab := { s.answerLost.fab with rpq := rest } }
        let s := { s with lastPick := tset s.lastPick 128 p }
        let refuse := fun (s : State) (d : Denial) => if r.gone then s else s.nack r.src r.reqid d.reason d.cause d.oreason none
        match rpChecks s E r with
        | (.error d, s) => .next (refuse s d)
        | (.ok (g, cc, sup), s) =>
          match rpStart s E r g cc sup with
          | .error d => .next (refuse s d)
          | .ok s => .next ({ s with fab := { s.fab with rpRun := s.fab.rpRun ++ [r] } }.startChecked n rtRPSTART)

/-! ## Answers to this node's requests (R504, R509-R512) -/

/-- The request of this node with a number: awaited by the context that made it, or posted at a commit. -/
def State.findReq (s : State) (id : Nat) : Option (Bool × RemoteReq) :=
  let mine := s.cores.findSome? (fun e => [e.2.c0, e.2.c1].findSome? (fun x => match x.wait with
    | .remote r => if r.reqid = id then some r else none
    | _ => none))
  match mine with
  | some r => some (true, r)
  | none => (s.posted.find? (fun r => decide (r.reqid = id))).map (fun r => (false, r))

/-- The request changes, as it is sent again. -/
def State.replaceReq (s : State) (awaited : Bool) (old new : RemoteReq) : State :=
  if awaited then s.setCtx new.env.n new.env.k { s.ctx new.env.n new.env.k with wait := .remote new }
  else { s with posted := s.posted.map (fun r => if r.reqid = old.reqid then new else r) }

/-- The request is over: a posted one leaves the list, and a context waits no more. -/
def State.endReq (s : State) (awaited : Bool) (r : RemoteReq) : State :=
  if awaited then s.endWait r.env.n r.env.k else { s with posted := s.posted.filter (fun x => decide (x.reqid ≠ r.reqid)) }

/-- The request fails: REMOTE_FAULT of its context, or DEFER_FAIL of a posted one (R434, R509). -/
def State.failReq (s : State) (awaited : Bool) (r : RemoteReq) (t : Trap) : State :=
  let s := s.endReq awaited r
  if awaited then s.fail r.env t else s.raise 0 r.env.n 0x14 r.env.k r.addr

/-- REMOTE_FAULT of a request (R511). -/
def RemoteReq.fault (r : RemoteReq) (node reason cause oreason : Nat) : Trap :=
  ⟨ecREMOTE_FAULT, remoteInfo oreason r.capNo node reason cause, r.addr, 0⟩

/-- The request that a context has kept back for a plot is sent, the oldest first, now that no earlier one stands (R510). -/
def State.postNext (s : State) (n k addr : Nat) : Nat → State
  | 0 => s
  | fuel + 1 =>
    let same := fun (r : RemoteReq) => decide (r.env.n = n) && decide (r.env.k = k) && decide (plotOf r.addr = plotOf addr)
    match s.fab.postQ.find? (fun e => same e.2) with
    | none => s
    | some (awaited, r) =>
      let s : State := { s with fab := { s.fab with postQ := s.fab.postQ.erase (awaited, r) } }
      let stale := awaited && decide ((s.ctx n k).wait ≠ .remote r)
      if s.posted.any same || stale then (if stale then s.postNext n k addr fuel else s)
      else
        let (id, s) := s.newReq
        match s.send (s.mkPkt r.typ r.node id r.arg r.addr r.payload r.tags) with
        | (none, s) =>
          let s := if awaited then (s.endWait n k).fail r.env (r.fault r.node 4 0 0) else s.raise 0 n 0x14 k r.addr
          s.postNext n k addr fuel
        | (some l, s) =>
          let r := { r with reqid := id, link := l, due := s.now + s.rtmo }
          if awaited then s.setCtx n k { s.ctx n k with wait := .remote r } else { s with posted := s.posted ++ [r] }

/-- A request has been answered: what it kept back goes. -/
def State.answered (s : State) (r : RemoteReq) : State := s.postNext r.env.n r.env.k r.addr (s.fab.postQ.length + 1)

/-- The request is sent again to a node, or ends after eight resends (R504). -/
def State.resend (s : State) (awaited : Bool) (r : RemoteReq) (node : Nat) : State :=
  if 8 ≤ r.resends then (s.failReq awaited r (r.fault r.node 5 0 0)).answered r
  else
    let (id, s) := s.newReq
    match s.send (s.mkPkt r.typ node id r.arg r.addr r.payload r.tags) with
    | (none, s) => (s.failReq awaited r (r.fault node 4 0 0)).answered r
    | (some l, s) =>
      s.replaceReq awaited r { r with node := node, reqid := id, link := l, due := s.now + s.rtmo, resends := r.resends + 1 }

/-- The owner of the request's plot is asked for (R504). -/
def State.askAgain (s : State) (awaited : Bool) (r : RemoteReq) : State :=
  let p := plotOf r.addr
  let node := s.askNode p
  let (id, s) := s.newReq
  match s.send (s.mkPkt pkLOOKUP node id 0 (p * 2 ^ 21) [] []) with
  | (none, s) => (s.failReq awaited r (r.fault node 4 0 0)).answered r
  | (some l, s) => s.replaceReq awaited r { r with node := node, reqid := id, link := l, due := s.now + s.rtmo }

/-- The instruction that made the request completes: the element of a REP goes on as R163 says. -/
def State.completeReq (s : State) (r : RemoteReq) (before : Nat) : State :=
  if r.env.rep then s.elementDone r.env before 1 else s.complete r.env

/-- The write-back of the request's operand (R155). -/
def State.reqWriteBack (s : State) (r : RemoteReq) : State :=
  match r.wb with
  | none => s
  | some (cb, c) => wrC s r.env cb c 0

/-- DATA_PACKET (R509): the answer to a remote load completes it; any other is discarded. -/
def execDataPacket (l : Nat) (p : Pkt) (s : State) : Host.Outcome State Fault Refusal :=
  fabricRow pkDATA l p s (fun s =>
    match s.findReq p.reqid with
    | some (true, r) =>
      if r.typ ≠ pkLOAD ∨ r.node ≠ p.src then .next s
      else
        let before := (s.ctx r.env.n r.env.k).flights.length
        let s := s.endReq true r
        let v := ofBytes ((p.payload.take r.size).map BitVec.toNat)
        let s := match r.mode with
          | 1 => wrG s r.env r.dst (extendLoad v r.size false) 0
          | 2 => wrG s r.env r.dst (extendLoad v r.size true) 0
          | _ => wrC s r.env r.dst (pktCapAt p 0) 0
        .next (((s.reqWriteBack r).completeReq r before).answered r)
    | _ => .next s)

/-- A posted or awaited STORE is acknowledged. -/
def ackStore (s : State) (awaited : Bool) (r : RemoteReq) : State :=
  let before := (s.ctx r.env.n r.env.k).flights.length
  let s := s.endReq awaited r
  (if awaited then (s.reqWriteBack r).completeReq r before else s).answered r

/-- The registers that a PASSREPLY sets in its requester (R512). -/
def State.passReturn (s : State) (E : Env) (caps : List Cap) (regs : List Word) : State :=
  let x := s.ctx E.n E.k
  let base := fld (x.srv nWBASE) 4 0
  let depth := fld (x.srv nWDEPTH) 4 0
  let gone := fun (n : Nat) => decide (n ≤ 6) || (decide (8 ≤ n) && decide (n ≤ 13))
  let win := (List.range 8).map (fun i => ringIndex base depth (16 + i))
  let x := { x with
    g := x.g.filter (fun e => decide (8 ≤ e.1)), preds := [], caps := x.caps.filter (fun e => !(gone e.1)) }
  let x := x.landed (fun l => match l with
    | .g n => decide (n < 8)
    | .ring i => win.contains i
    | .p _ => true
    | .c n => gone n
    | _ => false)
  let s := s.setCtx E.n E.k x
  let s := ((List.range 8).zip regs).foldl (fun s e => s.setGloc E.n E.k (.ring (ringIndex base depth (16 + e.1))) e.2) s
  ((List.range 6).zip caps).foldl (fun s e => s.hwCap E (e.1 + 1) e.2) s

/-- PASSREPLY (R512): the reply of a remote PASS sets the requester's registers; one that nothing awaits is discarded. -/
def execPassreply (l : Nat) (p : Pkt) (s : State) : Host.Outcome State Fault Refusal :=
  fabricRow pkPASSREPLY l p s (fun s =>
    match s.findReq p.reqid with
    | none => .next s
    | some (awaited, r) =>
      if r.typ ≠ pkPASS ∨ r.node ≠ p.src then .next s
      else
        let s := s.endReq awaited r
        let s := if awaited then
            (s.passReturn r.env ((List.range 6).map (fun i => pktCapAt p (2 * i)))
              ((List.range 8).map (fun i => word (payloadWord p.payload (12 + i))))).complete r.env
          else s
        .next (s.answered r))

/-- LOOKREPLY (R502): an owner is written into the plot cache and the access goes on; unowned and lost end it. -/
def execLookreply (l : Nat) (p : Pkt) (s : State) : Host.Outcome State Fault Refusal :=
  fabricRow pkLOOKREPLY l p s (fun s =>
    let kind := p.arg % 4
    let owner := bits p.arg 11 2
    let reason := if kind = 2 then 1 else 2
    let waits := s.cores.findSome? (fun e => ([(0, e.2.c0), (1, e.2.c1)].findSome? (fun (c : Nat × Ctx) => match c.2.wait with
      | .lookup plot ea capNo reqid node _ _ => if reqid = p.reqid ∧ node = p.src then some (e.1, c.1, plot, ea, capNo) else none
      | _ => none)))
    match waits with
    | some (n, k, plot, ea, capNo) =>
      if kind = 1 then .next ((s.plotLearn plot owner).endWait n k)
      else
        let E := s.waitEnv n k
        .next ((s.endWait n k).fail E ⟨ecREMOTE_FAULT, remoteInfo 0 capNo p.src reason 0, ea, (s.ctx n k).waitElem⟩)
    | none =>
      match s.findReq p.reqid with
      | none => .next s
      | some (awaited, r) =>
        if r.node ≠ p.src then .next s
        else if kind = 1 then .next ((s.plotLearn (plotOf r.addr) owner).resend awaited r owner)
        else .next ((s.failReq awaited r (r.fault p.src reason 0 0)).answered r))

/-- A NACK of a request for a plot (R504, R509, R515): NOT_OWNER redirects it, and every other reason ends it. -/
def nackReq (s : State) (awaited : Bool) (r : RemoteReq) (p : Pkt) : State :=
  let reason := p.arg % 16
  let hint := payloadWord p.payload 0
  if reason = 5 then
    let s := s.addRf .cdlPstat cdlPstat_NOTOWNER 1
    if bit hint 15 then
      let o := hint % 1024
      let s := s.plotLearn (plotOf r.addr) o
      if awaited && decide (o = s.node) then (s.endReq awaited r).answered r else s.resend awaited r o
    else
      let s := s.plotForget (plotOf r.addr)
      if 8 ≤ r.resends then (s.failReq awaited r (r.fault p.src 5 0 0)).answered r else s.askAgain awaited { r with resends := r.resends + 1 }
  else
    let cause := bits p.arg 11 4
    let t := if reason = 0 ∧ r.typ = pkPASS ∧ r.arg = 1 ∧ cause = ecCAP_PERM then trapPerm r.capNo (2 ^ 21) r.addr
      else r.fault p.src reason (if reason = 0 then cause else 0) (bits p.arg 15 12)
    (s.failReq awaited r t).answered r

/-! ## Frames and physical accesses -/

/-- FRAME (R524): a frame of 1 to 2,048 bytes lands on its lane when the lane takes frames of the fabric; otherwise it is dropped. It
waits for a free frame slot. -/
def execFrame (l : Nat) (p : Pkt) (s : State) : Host.Outcome State Fault Refusal :=
  fabricRow pkFRAME l p s (fun s =>
    let lane := p.arg % 16
    if s.rf (.ingLcfg lane) ingLcfg_EN = 0 ∨ s.rf (.ingLcfg lane) ingLcfg_SRC = 0 ∨ p.payload.isEmpty = true then .next (s.pktDrop l)
    else if s.ingOn = false ∨ s.freeSlots.isEmpty = true then .next s
    else
      let fmt := if bit p.arg 12 then bits p.arg 11 4 else s.rf (.ingLcfg lane) ingLcfg_DEFFMT
      .next (s.land lane (p.src % 1024 + p.reqid * 2 ^ 16) fmt (p.payload.map BitVec.toNat)))

/-- FRESP (R524): a response packet for a frame. This node sends no frame of its own, so nothing of it awaits one. -/
def execFresp (l : Nat) (p : Pkt) (s : State) : Host.Outcome State Fault Refusal :=
  fabricRow pkFRESP l p s (fun s => .next s)

/-- A physical access is accepted: from an ATTACHED link, of 1 to 64 bytes within one line (R525). -/
def State.physOk (s : State) (l : Nat) (p : Pkt) : Bool :=
  decide (l < 12) && decide (s.linkState l = lsATTACHED) && decide (p.arg < 64) && decide (p.addr % 64 + p.arg < 64)
    && decide (p.addr < 2 ^ 44)

/-- PHYSRD (R525, R70): a read by an ATTACHED peer, Ridge-checked as FAB; words without data read as zero. DESIGN CHOICE, safe: a read that meets POISON, a reserved tag or an
address with no memory, for which R70 gives an error response alone, is answered NACK with reason 0 and the cause. -/
def execPhysrd (l : Nat) (p : Pkt) (s : State) : Host.Outcome State Fault Refusal :=
  fabricRow pkPHYSRD l p s (fun s =>
    if !(s.physOk l p) then .next (s.pktDrop l)
    else
      let n := p.arg + 1
      match s.ridge mFAB 0 false p.addr with
      | (none, s) => .next (s.deny p ⟨6, 0, 0⟩)
      | (some _, s) =>
        if isRegSpace p.addr then
          if n = 8 ∧ p.addr % 8 = 0 then
            let (v, s) := readPa s (.master mFAB 0) p.addr
            .next (s.answerData p (wordBytes [v.toNat]) [])
          else .next (s.deny p ⟨0, ecMC_BUS, 0⟩)
        else if !(backedDram p.addr) then .next (s.deny p ⟨0, ecMC_BUS, 0⟩)
        else if (wordsOf p.addr n).any (fun a => !(s.mem.masterRead a).2) then .next (s.deny p ⟨0, ecMC_POISON, 0⟩)
        else
          .next (s.answerData p ((List.range n).map (fun i =>
            BitVec.ofNat 8 (byteOf (s.mem.masterRead ((p.addr + i) / 8 * 8)).1 ((p.addr + i) % 8)))) []))

/-- PHYSWR (R525, R70): a write by an ATTACHED peer, every word with tag INT. DESIGN CHOICE, safe: a write that is refused by a tag or
has no memory behind it is answered as such a read is. -/
def execPhyswr (l : Nat) (p : Pkt) (s : State) : Host.Outcome State Fault Refusal :=
  fabricRow pkPHYSWR l p s (fun s =>
    if !(s.physOk l p) || decide (p.payload.length ≠ p.arg + 1) then .next (s.pktDrop l)
    else
      let n := p.arg + 1
      let v := ofBytes (p.payload.map BitVec.toNat)
      match s.ridge mFAB 0 true p.addr with
      | (none, s) => .next (s.deny p ⟨6, 0, 0⟩)
      | (some _, s) =>
        if isRegSpace p.addr then
          if n = 8 ∧ p.addr % 8 = 0 then
            match writePa s (.master mFAB 0) p.addr (word v) with
            | some s => .next (s.answerAck p true)
            | none => .next (s.deny p ⟨0, ecCAP_PERM, 0⟩)
          else .next (s.deny p ⟨0, ecMC_BUS, 0⟩)
        else if !(backedDram p.addr) then .next (s.deny p ⟨0, ecMC_BUS, 0⟩)
        else
          let (ok, s) := (dataOps p.addr v n tINT 10).foldl (fun (acc : Bool × State) (o : WOp) =>
            let (m, ok) := acc.2.mem.masterWrite o.addr o.data o.mask
            (acc.1 && ok, if ok then ({ acc.2 with mem := m }).lineWritten .dram (lineOf o.addr) none else acc.2)) (true, s)
          .next (if ok then s.answerAck p true else s.deny p ⟨0, ecMC_POISON, 0⟩))

end Sys2Proof.Machine
end

