-- ==== Sys2Proof/Machine/Estate.lean ====
section
/-! DEFINITION. The estate: the registrar's table and its backup, plot migration, lost and joining nodes, and what the fabric does when an
answer does not come ("The Cordillera fabric and the estate", R500-R505, R509, R517-R523). -/

namespace Sys2Proof.Machine

open Sys2Proof

/-! ## The registrar (R500-R502, R505) -/

/-- LOOKUP (R502): the registrar, or its backup, answers what it records of the plot. -/
def execLookup (l : Nat) (p : Pkt) (s : State) : Host.Outcome State Fault Refusal :=
  fabricRow pkLOOKUP l p s (fun s =>
    let arg := match tfind s.registrar (plotOf p.addr) with
      | none => 2
      | some e => match e.owner with
        | none => 3
        | some o => 1 + o % 1024 * 4
    .next (s.sendOwn (s.mkPkt pkLOOKREPLY p.src p.reqid arg p.addr [] [])))

/-- The backup of a plot's registrar (R500). -/
def State.backupOf (s : State) (plot : Nat) : Nat := (s.registrarOf plot + 1) % (if s.estSize = 0 then 1 else s.estSize)

/-- A node is recorded as lost. -/
def State.nodeLost (s : State) (n : Nat) : Bool :=
  match tfind s.nodes n with
  | some (_, b) => b
  | none => false

/-- An entry of the registrar table takes a value, or leaves. -/
def State.setRegistrar (s : State) (plot : Nat) (e : Option RegEntry) : State :=
  { s with registrar := match e with
      | some e => tset s.registrar plot e
      | none => tdel s.registrar plot }

/-- A change of the table is written to the backup before it is answered (R501); it is answered at once when this node is the backup
itself, or has none that it can reach. -/
def State.regChange (s : State) (plot : Nat) (e : Option RegEntry) (ans : Pkt) : State :=
  let s := s.setRegistrar plot e
  let b := s.backupOf plot
  if s.registrarOf plot ≠ s.node ∨ b = s.node ∨ s.nodeLost b = true then s.sendOwn ans
  else
    let (id, s) := s.newReq
    let arg := match e with
      | some ⟨some o, _, _⟩ => 3 + o % 1024 * 16
      | _ => 2
    match s.send (s.mkPkt pkREG b id arg (plot * 2 ^ 21) [] []) with
    | (none, s) => s.sendOwn ans
    | (some l, s) =>
      { s with fab := { s.fab with regWait := s.fab.regWait ++ [(⟨id, s.now + s.rtmo, l, ans⟩ : RegWait)] } }

/-- The next epoch of a plot's record. -/
def nextEpoch (e : Option RegEntry) : Nat :=
  match e with
  | none => 1
  | some e => (e.epoch + 1) % 65536

/-- A claim, release or update at the registrar (R505, R518). -/
def regServe (s : State) (p : Pkt) : State :=
  let plot := plotOf p.addr
  let op := p.arg % 4
  let e := tfind s.registrar plot
  let owner := match e with
    | some e => e.owner
    | none => none
  let ack := fun (b : Bool) => s.mkPkt pkACK p.src p.reqid (b2n b) 0 [] []
  let none' := if e.isSome then 2 else 1
  if op = 1 then
    match owner with
    | some o => s.nack p.src p.reqid 5 0 0 (some o)
    | none =>
      if e.isNone ∧ 2 ^ 20 ≤ s.registrar.length then s.sendOwn (ack false)
      else s.regChange plot (some ⟨some p.src, nextEpoch e, false⟩) (ack true)
  else
    match owner with
    | none => s.nack p.src p.reqid none' 0 0 none
    | some o =>
      if o ≠ p.src then s.nack p.src p.reqid 5 0 0 (some o)
      else if op = 2 then s.regChange plot none (ack true)
      else s.regChange plot (some ⟨some (bits p.arg 13 4), nextEpoch e, false⟩) (ack true)

/-- A change that the registrar writes to this node as its backup (R501). -/
def regMirror (s : State) (p : Pkt) : State :=
  let plot := plotOf p.addr
  let e := if p.arg % 4 = 2 then none else some (⟨some (bits p.arg 13 4), nextEpoch (tfind s.registrar plot), true⟩ : RegEntry)
  (s.setRegistrar plot e).answerAck p true

/-- REG (R501, R505): a claim, release or update at the registrar, or a change that a registrar writes to its backup. -/
def execReg (l : Nat) (p : Pkt) (s : State) : Host.Outcome State Fault Refusal :=
  fabricRow pkREG l p s (fun s =>
    let plot := plotOf p.addr
    let r := s.registrarOf plot
    .next (
      if p.arg % 4 = 0 then s.pktDrop l
      else if r ≠ s.node ∧ p.src = r ∧ s.backupOf plot = s.node then regMirror s p
      else regServe s p))

/-- The registrar changes that a backup has acknowledged are answered. -/
def State.regAnswer (s : State) (ws : List RegWait) : State :=
  ws.foldl (fun s w => s.sendOwn w.ans) { s with fab := { s.fab with regWait := s.fab.regWait.filter (fun w => !(ws.contains w)) } }

/-! ## Claims of this node (R505) -/

/-- The claim or release under way has succeeded. -/
def State.claimDone (s : State) (c : Claim) : State :=
  let s := if c.op = 1 then
      { s with ownMap := s.ownMap.filter (fun q => decide (q ≠ c.plot)) ++ [c.plot] }.plotLearn c.plot s.node
    else ({ s with ownMap := s.ownMap.filter (fun q => decide (q ≠ c.plot)) }.plotForget c.plot).tlbDropPlot c.plot
  s.claimEnd 0 0

/-- The claim or release under way is answered NACK: owned by another node, not owned, or otherwise not reached. -/
def State.claimNack (s : State) (p : Pkt) : State :=
  let reason := p.arg % 16
  let hint := payloadWord p.payload 0
  if reason = 5 then s.claimEnd 1 (hint % 1024) else if reason = 1 ∨ reason = 2 then s.claimEnd 5 0 else s.claimEnd 2 0

/-! ## Plot migration (R517-R519) -/

/-- The mapped pages of a plot, by page number and index of their table entry. -/
def State.plotPages (s : State) (plot : Nat) : List (Nat × Nat) :=
  (List.range s.tableN).filterMap (fun i =>
    let e := s.entryOf i
    if e.v && !e.space && decide (e.vpn / 128 = plot) then some (e.vpn % 128, i) else none)

/-- A mapped page of the list has PIN, SE or MV set. -/
def State.pagesFixed (s : State) (pages : List (Nat × Nat)) : Bool :=
  pages.any (fun e => let x := s.entryOf e.2; x.pin || x.se || x.mv)

/-- Replaces the migration at its source. -/
def State.setMigOut (s : State) (m : Option MigOut) : State := { s with fab := { s.fab with migOut := m } }

/-- PLOT_MIGRATION (R517, R518 step 1): the engine offers a plot that its evaluation has called for to its top requester; it makes no offer
while a page bars it or another move is under way. -/
def execPlotMigration (s : State) : Host.Outcome State Fault Refusal :=
  match s.offers with
  | [] => .next s
  | plot :: rest =>
    if s.serving = false then .next s
    else
      let s := { s with offers := rest }
      let pages := s.plotPages plot
      match (s.plotStatOf plot).top with
      | none => .next s
      | some d =>
        if s.rf .pleCtl pleCtl_EN = 0 ∨ s.fab.migOut.isSome = true ∨ s.fab.migIn.isSome = true ∨ pages = [] ∨ d = s.node
            ∨ s.ownMap.contains plot = false ∨ s.pagesFixed pages = true ∨ s.ovfBars (pages.map (fun e => e.2)) = true then .next s
        else
          let (id, s) := s.newReq
          match s.send (s.mkPkt pkOFFER d id pages.length (plot * 2 ^ 21) [] []) with
          | (none, s) => .next s
          | (some _, s) => .next (s.setMigOut (some ⟨plot, d, pages, 2, id, s.now + s.rtmo, []⟩))

/-- A step before 7 fails (R519): MV is cleared, the requests held are served here, and source 534 is reported. -/
def State.migFail (s : State) (m : MigOut) : State :=
  let s := s.setMigOut none
  let s := if 6 ≤ m.step then m.pages.foldl (fun s e => s.setMv e.2 false) s else s
  (m.held.foldl (fun s e => serveRequest s e.1 e.2) s).report 534

/-- The parts of one page, as packets (R518 step 5): eight of data with tags, and the entry. -/
def State.pageParts (s : State) (m : MigOut) (id page i : Nat) : List Pkt :=
  let addr := m.plot * 2 ^ 21 + page * 2 ^ 14
  let mk := fun (part : Nat) (bs : List Byte) (tags : List Nat) => s.mkPkt pkMDATA m.dst id (page + part * 128) addr bs tags
  let e := s.entryOf i
  (List.range 8).map (fun part =>
    let a := i * 2 ^ 14 + part * 2048
    mk part ((List.range 2048).map (fun j => s.mem.byte (a + j))) ((List.range 256).map (fun j => s.mem.tag (a + 8 * j))))
    ++ [mk 8 (wordBytes [e.w0, e.w3]) [tINT, tINT]]

/-- Steps 3 to 5 of R518, after the destination has accepted. -/
def State.migSend (s : State) (m : MigOut) : State :=
  let pages := s.plotPages m.plot
  if pages ≠ m.pages ∨ s.pagesFixed pages = true then s.migFail m
  else
    let vpns := pages.map (fun e => (s.entryOf e.2).vpn)
    let s := pages.foldl (fun s e => s.setMv e.2 true) s
    let s := (vpns.foldl (fun s v => s.tlbDropEvery false v) s).drainAll
    let m := { m with step := 6 }
    if pages.any (fun e => s.frameBuffered e.2) then s.migFail m
    else
      let (id, s) := s.newReq
      let ps := pages.flatMap (fun e => s.pageParts m id e.1 e.2)
      let (may, s) := s.ridgeAll mFAB (pages.flatMap (fun e =>
        ((s.tableBase + 32 * e.2) :: linesFrom (e.2 * 2 ^ 14) (2 ^ 14)).map (fun a => (false, a))))
      if !may then s.migFail m else
      let (ok, s) := ps.foldl (fun (acc : Bool × State) p =>
        match acc.2.send p with
        | (none, s) => (false, s)
        | (some _, s) => (acc.1, s)) (true, s)
      let m := { m with reqid := id, due := s.now + s.rtmo }
      if ok then s.setMigOut (some m) else s.migFail m

/-- Step 7 of R518: the registrar is told of the new owner. -/
def State.migUpdate (s : State) (m : MigOut) : State :=
  let (id, s) := s.newReq
  match s.send (s.mkPkt pkREG (s.askNode m.plot) id (3 + m.dst * 16) (m.plot * 2 ^ 21) [] []) with
  | (none, s) => s.migFail m
  | (some _, s) => s.setMigOut (some { m with step := 7, reqid := id, due := s.now + s.rtmo })

/-- An entry leaves its bucket's chain and is cleared but for word 2 (step 8 of R353), and its frame is cleared and pooled. The engine never
waits for a bucket that software holds locked (R351): the entry then stays in its chain, and only ceases to be valid. -/
def State.dropPage (s : State) (i : Nat) : State :=
  let e := s.entryOf i
  if (s.entryOf (s.bucketOf i)).lk then s.setEntry i 0 0 else
  let s := s.repoint (s.bucketOf i) i e.next
  let s := ((s.setEntry i 0 0).setEntry i 1 0).setEntry i 3 0
  (s.clearFrame i).poolFrame i

/-- Step 8 of R518. -/
def State.migFinish (s : State) (m : MigOut) : State :=
  let s : State := { s.setMigOut none with
    ownMap := s.ownMap.filter (fun q => decide (q ≠ m.plot)), plotStat := tdel s.plotStat m.plot }
  let s := (m.pages.foldl (fun s e => s.dropPage e.2) s).tlbDropPlot m.plot
  let s := s.plotLearn m.plot m.dst
  let s := { s with forwards := tset s.forwards m.plot (m.dst, s.now + 2 * s.plotTtl) }
  (m.held.foldl (fun s e => s.nack e.2.src e.2.reqid 5 0 0 (some m.dst)) s).report 534

/-- An answer to the migration at its source: yes tells an ACK that accepts. -/
def State.migAnswer (s : State) (m : MigOut) (yes : Bool) : State :=
  if !yes then s.migFail m
  else if m.step = 2 then s.migSend m
  else if m.step = 6 then s.migUpdate m
  else s.migFinish m

/-- Frames are taken from the pools, free values choosing among those that are eligible. -/
def State.takeFrames (s : State) : Nat → List Nat × State
  | 0 => ([], s)
  | n + 1 =>
    let all := ((List.range 4).flatMap s.pool).filter s.eligible
    let (v, s) := s.draw
    let f := all.getD (v % Nat.max 1 all.length) 0
    let st := pcOfFrame f / 32
    let (fs, s) := (s.setPool st ((s.pool st).erase f)).takeFrames n
    (f :: fs, s)

/-- OFFER (R518 step 2): the destination accepts when its pools yield the frames and nothing of the plot conflicts. -/
def execOffer (l : Nat) (p : Pkt) (s : State) : Host.Outcome State Fault Refusal :=
  fabricRow pkOFFER l p s (fun s =>
    let plot := plotOf p.addr
    let m := p.arg
    let all := ((List.range 4).flatMap s.pool).filter s.eligible
    if m = 0 ∨ 128 < m ∨ s.fab.migOut.isSome = true ∨ s.fab.migIn.isSome = true ∨ s.ownMap.contains plot = true
        ∨ s.plotMapped plot = true ∨ all.length < m then .next (s.answerAck p false)
    else
      let (fs, s) := s.takeFrames m
      let x : MigIn := { plot := plot, src := p.src, count := m, link := l, reqid := p.reqid, frames := fs, pages := [], parts := [],
                         since := s.now }
      .next ({ s with fab := { s.fab with migIn := some x } }.answerAck p true))

/-- The index of the last entry of the chain that pointer p begins. -/
def State.chainEnd (s : State) : Nat → Nat → Nat
  | 0, p => p - 1
  | n + 1, p =>
    let e := s.entryOf (p - 1)
    if e.next = 0 then p - 1 else s.chainEnd n e.next

/-- Word 0 of a migrated entry: V = 1, MV = 0, and A, D, PKEY and rights as sent (R518 step 5). -/
def migWord0 (w vpn : Nat) : Nat := setBits (setBits (setBits (setBits w 63 60 8) 57 55 0) 45 34 0) 33 0 vpn

/-- The entry of page f of a migrated plot is written and joins its bucket's chain. -/
def State.mapPage (s : State) (f vpn w0 w3 : Nat) : State :=
  let h := iptHash s.tableSeed s.tableN false vpn
  let s := ((s.setEntry f 0 (migWord0 w0 vpn)).setEntry f 1 0).setEntry f 3 w3
  let b := s.entryOf h
  if b.anchor = 0 then s.setEntry h 2 (setBits b.w2 22 0 (f + 1))
  else
    let i := s.chainEnd 16 b.anchor
    s.setEntry i 1 (setBits (s.entryOf i).w1 22 0 (f + 1))

/-- A data part of a page is written with its tags. -/
def State.writePart (s : State) (a : Nat) (p : Pkt) : State :=
  let s : State := { s with mem := (List.range 256).foldl (fun (m : Mem) i =>
    m.setWord (a + 8 * i) (payloadWord p.payload i) (p.tags.getD i tINT)) s.mem }
  (List.range 32).foldl (fun s i => s.lineWritten .dram (a + 64 * i) none) s

/-- The migration at its destination is given up: its frames are freed (R519). -/
def State.migGiveUp (s : State) (m : MigIn) : State :=
  let s : State := { s with fab := { s.fab with migIn := none } }
  let mapped := m.pages.filter (fun e => m.parts.contains (e.1, 8))
  let s := mapped.foldl (fun s e => s.dropPage e.2) s
  (m.frames.filter (fun f => !((mapped.map (fun e => e.2)).contains f))).foldl (fun s f => (s.clearFrame f).poolFrame f) s

/-- The state after part of a page has arrived: when all have, the plot is this node's (R518 step 6). -/
def migArrived (s : State) (m : MigIn) (p : Pkt) : State :=
  if m.parts.length < 9 * m.count then { s with fab := { s.fab with migIn := some { m with since := s.now } } }
  else
    let s : State := { s with fab := { s.fab with migIn := none }, ownMap := s.ownMap ++ [m.plot] }
    ((s.plotLearn m.plot s.node).answerAck p true).report 534

/-- The writes of a part of a page are admitted to master FAB, line by line: the 2 KiB of a data part; the words of the entry and of its
bucket for the entry part (R355, R366). -/
def State.partAdmitted (s : State) (f part h : Nat) : Bool × State :=
  s.ridgeAll mFAB ((if part < 8 then linesFrom (f * 2 ^ 14 + part * 2048) 2048 else [s.tableBase + 32 * f, s.tableBase + 32 * h]).map
    (fun a => (true, a)))

/-- MDATA (R518 step 5): a part of a page, or its entry, is written at the destination, as FAB. A part that is denied, or whose bucket
software holds locked, which the engine passes over (R351), is not written, and the move fails for want of it (R519). -/
def execMdata (l : Nat) (p : Pkt) (s : State) : Host.Outcome State Fault Refusal :=
  fabricRow pkMDATA l p s (fun s =>
    let page := p.arg % 128
    let part := bits p.arg 10 7
    match s.fab.migIn with
    | none => .next s
    | some m =>
      let f := match tfind m.pages page with
        | some f => f
        | none => m.frames.getD m.pages.length 0
      if m.src ≠ p.src ∨ m.plot ≠ plotOf p.addr then .next s
      else if 8 < part ∨ p.payload.length ≠ (if part = 8 then 16 else 2048)
          ∨ ((tfind m.pages page).isNone = true ∧ m.count ≤ m.pages.length) then .next (s.pktDrop l)
      else
        let m := { m with pages := tset m.pages page f, parts := m.parts.filter (fun e => decide (e ≠ (page, part))) ++ [(page, part)] }
        let vpn := m.plot * 128 + page
        let h := iptHash s.tableSeed s.tableN false vpn
        match s.partAdmitted f part h with
        | (false, s) => .next s
        | (true, s) =>
          if part < 8 then .next (migArrived (s.writePart (f * 2 ^ 14 + part * 2048) p) m p)
          else if (s.entryOf h).lk then .next s
          else .next (migArrived (s.mapPage f vpn (payloadWord p.payload 0) (payloadWord p.payload 1)) m p))

/-! ## ACK and NACK (R504, R509) -/

/-- ACK_PACKET (R501, R505, R509, R518): a remote store completes; or a claim, a registrar's write to its backup, or a step of a migration is
answered. Any other is discarded. -/
def execAckPacket (l : Nat) (p : Pkt) (s : State) : Host.Outcome State Fault Refusal :=
  fabricRow pkACK l p s (fun s =>
    let yes := decide (p.arg % 2 = 1)
    match s.findReq p.reqid with
    | some (awaited, r) => .next (if r.typ ≠ pkSTORE ∨ r.node ≠ p.src then s else ackStore s awaited r)
    | none =>
      match s.fab.regWait.find? (fun w => decide (w.reqid = p.reqid)) with
      | some w => .next (s.regAnswer [w])
      | none =>
        let claim := s.fab.claim.filter (fun c => decide (c.reqid = p.reqid))
        let mig := s.fab.migOut.filter (fun m => decide (m.reqid = p.reqid))
        match claim, mig with
        | some c, _ => .next (if yes then s.claimDone c else s.claimEnd 4 0)
        | none, some m => .next (s.migAnswer m yes)
        | none, none => .next s)

/-- NACK (R504, R505, R509, R519): a request of this node is turned away or redirected. -/
def execNack (l : Nat) (p : Pkt) (s : State) : Host.Outcome State Fault Refusal :=
  fabricRow pkNACK l p s (fun s =>
    match s.findReq p.reqid with
    | some (awaited, r) => .next (if r.node ≠ p.src then s else nackReq s awaited r p)
    | none =>
      let claim := s.fab.claim.filter (fun c => decide (c.reqid = p.reqid))
      let mig := s.fab.migOut.filter (fun m => decide (m.reqid = p.reqid))
      match claim, mig with
      | some _, _ => .next (s.claimNack p)
      | none, some m => .next (s.migFail m)
      | none, none => .next s)

/-! ## Lost and joining nodes (R520-R523) -/

/-- The incarnation recorded of a node, with whether it is lost. -/
def State.recorded (s : State) (n : Nat) : Option (Nat × Bool) :=
  if n = s.node then some (s.rf .cdlEst cdlEst_INC, s.nodeLost n) else tfind s.nodes n

/-- The awaited requests and lookups of this node that were addressed to n end with reason 2. -/
def State.endRequestsTo (s : State) (n : Nat) : State :=
  let waits := s.cores.flatMap (fun e => [(e.1, 0, e.2.c0), (e.1, 1, e.2.c1)])
  waits.foldl (fun s w => match w.2.2.wait with
    | .remote r => if r.node = n then s.failReq true r (r.fault n 2 0 0) else s
    | .lookup _ ea capNo _ node _ _ =>
      if node = n then
        (s.endWait w.1 w.2.1).fail (s.waitEnv w.1 w.2.1) ⟨ecREMOTE_FAULT, remoteInfo 0 capNo n 2 0, ea, (s.ctx w.1 w.2.1).waitElem⟩
      else s
    | _ => s) s

/-- Deferred requests to n are reported as events. -/
def State.dropPostedTo (s : State) (n : Nat) : State :=
  let gone := s.posted.filter (fun r => decide (r.node = n))
    ++ (s.fab.postQ.filter (fun e => !e.1 && decide (e.2.node = n))).map (fun e => e.2)
  let s : State := { s with posted := s.posted.filter (fun r => decide (r.node ≠ n)),
                            fab := { s.fab with postQ := s.fab.postQ.filter (fun e => decide (e.2.node ≠ n)) } }
  gone.foldl (fun s r => (s.raise 0 r.env.n 0x14 r.env.k r.addr).answered r) s

/-- The moves and the claim of this node that rested on n end (R519); the new owner of a plot is told to the backup of a registrar that is
lost (R522). -/
def State.endMovesWith (s : State) (n : Nat) : State :=
  let s := match s.fab.migOut with
    | some m =>
      if m.step = 7 then (if s.registrarOf m.plot = n then s.migUpdate m else s)
      else if m.dst = n then s.migFail m else s
    | none => s
  let s := match s.fab.migIn with
    | some m => if m.src = n then s.migGiveUp m else s
    | none => s
  match s.fab.claim with
  | some c => if s.registrarOf c.plot = n then s.claimEnd 2 0 else s
  | none => s

/-- What a node does on a new LOST for node n (R522). -/
def State.loseNode (s : State) (n : Nat) : State :=
  let s : State := { s with plotCache := s.plotCache.filter (fun e => decide (e.owner ≠ n)), echoes := tdel s.echoes n }
  let s := ((s.endRequestsTo n).dropPostedTo n).endMovesWith n
  let s : State := { s with
    registrar := s.registrar.map (fun e => if e.2.owner = some n then (e.1, { e.2 with owner := none }) else e)
    fab := { s.fab with
      rpq := s.fab.rpq.map (fun r => if r.src = n then { r with gone := true } else r)
      rpRun := s.fab.rpRun.map (fun r => if r.src = n then { r with gone := true } else r) } }
  let s := if n = (s.node + 1) % (if s.estSize = 0 then 1 else s.estSize) then s.regAnswer s.fab.regWait else s
  if n = s.node then { s.ownMap.foldl (fun s p => s.tlbDropPlot p) s with ownMap := [] } else s

/-- A new LOST is acted on, recorded, and forwarded on every ADMITTED link but the one it came over. -/
def State.takeLost (s : State) (n inc : Nat) (from' : Option Nat) : State :=
  let s := ({ s with nodes := tset s.nodes n (inc, true) }).loseNode n
  s.notify pkLOST (noticePayload n inc) from'

/-- The node and incarnation a notice names (R495). -/
def noticeOf (p : Pkt) : Nat × Nat := (bits (payloadWord p.payload 0) 9 0, bits (payloadWord p.payload 0) 63 32)

/-- LOST (R521, R522): a new notice is acted on and forwarded, and source 176 + 8l + 6 is reported; any other is dropped silently. -/
def execLost (l : Nat) (p : Pkt) (s : State) : Host.Outcome State Fault Refusal :=
  fabricRow pkLOST l p s (fun s =>
    let (n, inc) := noticeOf p
    if p.payload.length ≠ 8 then .next (s.pktDrop l)
    else if s.recorded n ≠ some (inc, false) then .next s
    else .next (if l < 12 then (s.takeLost n inc (some l)).linkReport l 6 else s.takeLost n inc none))

/-- JOIN (R521, R523): a new notice first applies LOST for the incarnation it replaces, then is recorded and forwarded. -/
def execJoin (l : Nat) (p : Pkt) (s : State) : Host.Outcome State Fault Refusal :=
  fabricRow pkJOIN l p s (fun s =>
    let (n, inc) := noticeOf p
    let old := s.recorded n
    if p.payload.length ≠ 8 then .next (s.pktDrop l)
    else if n = s.node ∨ old.map (fun e => e.1) = some inc then .next s
    else
      let s := match old with
        | some (_, false) => s.loseNode n
        | _ => s
      let s := ({ s with nodes := tset s.nodes n (inc, false) }).notify pkJOIN (noticePayload n inc) (some l)
      .next (if l < 12 then s.linkReport l 6 else s))

/-- ECHO (R520): a request is answered; an answer shows that the node is reached. -/
def execEcho (l : Nat) (p : Pkt) (s : State) : Host.Outcome State Fault Refusal :=
  fabricRow pkECHO l p s (fun s =>
    .next (if p.arg % 2 = 0 then s.sendOwn (s.mkPkt pkECHO p.src p.reqid 1 0 [] [])
      else { s with echoes := tdel s.echoes p.src }))

/-- ECHO_TIMEOUT (R520): no answer has come from node n in 100 µs: LOST is originated with its recorded incarnation. -/
def execEchoTimeout (n : Nat) (s : State) : Host.Outcome State Fault Refusal :=
  if 1024 ≤ n then .refused .illFormed
  else
    match tfind s.echoes n with
    | none => .next s
    | some t =>
      let s := { s with echoes := tdel s.echoes n }.advanceTo t
      match s.recorded n with
      | some (_, true) => .next s
      | some (inc, false) => .next (s.takeLost n inc none)
      | none => .next (s.takeLost n 0 none)

/-! ## Answers that do not come, and what expires -/

/-- The lookup that a context awaits under a number, with its deadline and the link it left on. -/
def State.findLookup (s : State) (id : Nat) : Option (Nat × Nat × Nat × Nat × Nat × Nat × Nat) :=
  s.cores.findSome? (fun e => ([(0, e.2.c0), (1, e.2.c1)].findSome? (fun (c : Nat × Ctx) => match c.2.wait with
    | .lookup _ ea capNo reqid node due link => if reqid = id then some (e.1, c.1, ea, capNo, node, due, link) else none
    | _ => none)))

/-- Source 176 + 8l + 7 of the link that a request left on. -/
def State.timedOut (s : State) (l : Nat) : State := if l < 12 then s.linkReport l 7 else s

/-- REMOTE_TIMEOUT (R502, R505, R509, R519): the request of this node numbered id has had no answer within RTMO. 65,536 stands for the
parts of a plot migration that this node receives. -/
def execRemoteTimeout (id : Nat) (s : State) : Host.Outcome State Fault Refusal :=
  if noReq < id then .refused .illFormed
  else if id = noReq then
    match s.fab.migIn with
    | some m => .next ((s.advanceTo (m.since + s.rtmo)).migGiveUp m)
    | none => .next s
  else
    match s.findReq id, s.findLookup id with
    | some (awaited, r), _ =>
      .next ((((s.advanceTo r.due).timedOut r.link).failReq awaited r (r.fault r.node 3 0 0)).answered r)
    | none, some (n, k, ea, capNo, node, due, link) =>
      let s := (s.advanceTo due).timedOut link
      .next ((s.endWait n k).fail (s.waitEnv n k) ⟨ecREMOTE_FAULT, remoteInfo 0 capNo node 3 0, ea, (s.ctx n k).waitElem⟩)
    | none, none =>
      let claim := s.fab.claim.filter (fun c => decide (c.reqid = id))
      let mig := s.fab.migOut.filter (fun m => decide (m.reqid = id))
      match claim, mig, s.fab.regWait.find? (fun w => decide (w.reqid = id)) with
      | some c, _, _ => .next ((s.advanceTo c.due).claimEnd 2 0)
      | none, some m, _ => .next ((s.advanceTo m.due).migFail m)
      | none, none, some w =>
        .next ({ s with fab := { s.fab with regWait := s.fab.regWait.erase w } }.advanceTo w.due)
      | none, none, none => .next s

/-- PLOT_CACHE_EXPIRY (R503): the entry of a plot owned by another node expires. -/
def execPlotCacheExpiry (plot : Nat) (s : State) : Host.Outcome State Fault Refusal :=
  if 2 ^ 27 ≤ plot then .refused .illFormed
  else
    match (s.plotCache.find? (fun e => decide (e.plot = plot))).bind PlotEntry.expiry with
    | none => .next s
    | some t => .next ((s.advanceTo t).plotForget plot)

/-- FORWARDING_EXPIRY (R504): the forwarding record of a plot expires. -/
def execForwardingExpiry (plot : Nat) (s : State) : Host.Outcome State Fault Refusal :=
  if 2 ^ 27 ≤ plot then .refused .illFormed
  else
    match tfind s.forwards plot with
    | none => .next s
    | some (_, t) => .next ({ s with forwards := tdel s.forwards plot }.advanceTo t)

end Sys2Proof.Machine
end

