-- ==== Sys2Proof/Machine/Events.lean ====
section
/-! DEFINITION. What happens to the cores beside their instructions: interrupts, machine checks, the prefetch queue and the store buffer, the
control store, waits on MV, and the return of a pair that failed over ("Exceptions and interrupts"; "P-core and W-core pipelines";
"Micro-routines and the control store"; "Translation and protection keys", R354, R361; "Dependability, ageing and monitors", R540). -/

namespace Sys2Proof.Machine

open Sys2Proof

/-! ## The interrupt controller -/

/-- INTERRUPT_REPORT (R266): a block sends a report to source n. -/
def execInterruptReport (n : Nat) (s : State) : Host.Outcome State Fault Refusal :=
  if 640 ≤ n then .refused .illFormed else .next (s.report n)

/-- HOLD_END (R266): time reaches the end of the hold of source n, which holds a deferred report. -/
def execHoldEnd (n : Nat) (s : State) : Host.Outcome State Fault Refusal :=
  if 640 ≤ n then .refused .illFormed
  else if s.rf (.intcSrc n) intcSrc_DEFER = 0 then .next s
  else .next ((s.advanceTo (s.holdUntil n)).holdEnd n)

/-- The source that target t is offered and may accept (R266), for a context whose core executes: at a boundary that is not the first
of a resumed stream (R255), with no late cause that must come first (R262). -/
def State.acceptableSource (s : State) (n k : Nat) : Option Nat :=
  let t := 2 * n + k
  let x := s.ctx n k
  let c := s.core n
  match s.bestPending t with
  | none => none
  | some i =>
    if s.coreRuns n && !c.quiesced && decide (x.st ≠ .idle) && x.atBoundary && !x.first && !x.stopped && s.betweenIssues n k && s.unmasked n k
        && stIE (s.nextStatus n k) && !(s.maBlocks n k)
        && decide (Nat.max (s.runpri t) (s.rf (.intcTgt t) intcTgt_THRESH) < s.srcLevelOf i) then some i
    else none

/-- Context k of core n accepts source i and enters (R245, R250, R261, R266): the entry stays open for a takeover. -/
def State.acceptInterrupt (s : State) (n k i : Nat) : State :=
  let level := s.srcLevelOf i
  let before := match tfind s.srcLast i with
    | none => 0
    | some t => t + 1
  let info := i + s.rf (.intcSrc i) intcSrc_CNT * 2 ^ 16
  let made := (s.csTrap n (some rtENTRY)).isNone
  let s := ((s.leaveWait n k).switchTo n k).acceptSrc (2 * n + k) i
  let s := s.enterExc n k ⟨0x20 + level, info, 0, 0⟩ (s.pc n k)
  if made then s.setCore n { s.core n with openEntry := some ⟨k, i, level, before⟩ } else s

/-- INTERRUPT_ACCEPT (R266): context k of core n accepts its best acceptable source at an instruction boundary. -/
def execInterruptAccept (n k : Nat) (s : State) : Host.Outcome State Fault Refusal :=
  if 112 ≤ n ∨ 2 ≤ k then .refused .illFormed
  else
    match s.acceptableSource n k with
    | none => .next s
    | some i => .next (s.acceptInterrupt n k i)

/-- TIMER_COMPARE (R270): INTC.NOW reaches the CMP of timer k. -/
def execTimerCompare (k : Nat) (s : State) : Host.Outcome State Fault Refusal :=
  if 16 ≤ k then .refused .illFormed
  else if s.reg (.intcTmr k) = 0xFFFFFFFFFFFFFFFF then .next s
  else .next ((s.advanceTo (s.reg (.intcTmr k)).toNat).timerFire k)

/-! ## Machine checks -/

/-- The clock of a core in units of 0.1 GHz: 20 on a P-core, and on a W-core the operating point of its group (R590, R591). -/
def State.coreClock (s : State) (n : Nat) : Nat :=
  if n < 48 then 20 else [28, 24, 20, 16, 12, 8].getD (s.rf (.pwrDvfs ((n - 48) / 2)) pwrDvfs_CUR) 8

/-- When the MASKLIMIT count of core n, begun at time t, exceeds LIMIT (R257). -/
def State.maskEnd (s : State) (n t : Nat) : Nat := t + ((s.core n).maskLimit + 1) * 10 / s.coreClock n

/-- MASKLIMIT_EXPIRY (R257): a machine check has been held in core n for more than LIMIT cycles, and the core resets; the count does not
run while the core is halted (R374). -/
def execMasklimitExpiry (n : Nat) (s : State) : Host.Outcome State Fault Refusal :=
  if 112 ≤ n then .refused .illFormed
  else
    match (s.core n).maskSince with
    | none => .next s
    | some t =>
      if s.coreRuns n then .next ((s.advanceTo (s.maskEnd n t)).coreReset n) else .next s

/-- BUSERR_ASYNC (R258): context k of core n takes a late bus error that it holds. -/
def execBuserrAsync (n k : Nat) (s : State) : Host.Outcome State Fault Refusal :=
  if 112 ≤ n ∨ 2 ≤ k then .refused .illFormed
  else
    match s.maReady n k ecBUSERR_ASYNC with
    | none => .next s
    | some m => .next (s.takeMa n k m)

/-! ## The pipeline: far data, prefetch and stores -/

/-- FAR_DATA_ARRIVAL (R287): the data or acknowledgement of a far access reaches P-core n, and issue no longer waits for it; the far
stores before it on the same path have been sent (R284). -/
def execFarDataArrival (n : Nat) (s : State) : Host.Outcome State Fault Refusal :=
  if 48 ≤ n then .refused .illFormed
  else if (s.core n).farWait then
    let s := s.sendFar n
    .next (s.setCore n { s.core n with farWait := false })
  else .next s

/-- The context of a P-core that runs. -/
def State.runningCtx (s : State) (n : Nat) : Option Nat := [0, 1].find? (fun k => decide ((s.ctx n k).st = .run))

/-- Where fetch stands as it follows the words of the queue: the next address, whether the word before it was a prefix, and a copy of
the state in which the loop counts fall as fetch follows them (R278). -/
structure Ahead where
  addr  : Nat
  inPfx : Bool
  copy  : State

/-- Fetch passes the instruction word at its address, in a queue word (R276, R278): a prefix goes on to its second word; a form-B branch
of the boot flash that the branch-target buffer holds is taken to go to the target held there (R297); otherwise the loop-end check gives
the next address. -/
def Ahead.pass (a : Ahead) (E : Env) (w : PfWord) : Ahead :=
  let ins := w.half a.addr
  let c := a.copy.core E.n
  let hit := match tfind c.btb (a.addr / 4 % 64) with
    | some (b, target) => if c.line.isSome ∧ wMajor ins = 0x16 ∧ b = a.addr then some target else none
    | none => none
  if isPrefix ins ∧ a.inPfx = false then { a with addr := a.addr + 4, inPfx := true }
  else
    match hit with
    | some target => { a with addr := target, inPfx := false }
    | none =>
      let (next, x) := loopEnd a.copy E a.addr (a.copy.ctx E.n E.k) 4
      ⟨next, false, a.copy.setCtx E.n E.k { x with flights := [] }⟩

/-- The address after the words queued (R276, R278): the instructions are followed from the program counter on. -/
def fetchPast (E : Env) : List PfWord → Ahead → Nat
  | [], a => a.addr / 8 * 8
  | w :: ws, a =>
    let first := a.addr
    let a := a.pass E w
    fetchPast E ws (if first % 8 = 0 ∧ a.addr = first + 4 then a.pass E w else a)

/-- The next address that fetch of context k of P-core n reads. -/
def State.fetchNext (s : State) (n k : Nat) : Nat :=
  let x := s.ctx n k
  fetchPast (s.waitEnv n k) (s.core n).prefetch ⟨s.pc n k, false, s.setCtx n k { x with flights := [] }⟩

/-- The port of a TCM grants a fetch in cycle c (R281): no data access precedes it in this model's order, and no store-buffer entry of
the TCM waits, or an exception entry keeps it from the port in that cycle (R247). -/
def State.fetchGranted (s : State) (n c : Nat) : Bool :=
  match (s.core n).sb with
  | e :: _ => decide (e.tgt = .dram) || decide (c ≤ (s.core n).pace.entry)
  | [] => true

/-- The word of the boot flash at a flash offset. -/
def State.flashWord (s : State) (off : Nat) : Nat := ofBytes ((List.range 8).map (fun i => (s.flashByte (off + i)).toNat))

/-- Words enter the prefetch queue: read in the port's next cycle and decoded in the one after, so that their instructions issue from
the second on (R276). -/
def State.queueWords (s : State) (n : Nat) (ws : List (Nat × Nat × Nat)) : State :=
  let c := s.core n
  let k := c.pace.port + 1
  s.setCore n { c with
    prefetch := c.prefetch ++ ws.map (fun w => ⟨w.1, w.2.1, w.2.2, k + 2⟩)
    pace := { c.pace with port := k } }

/-- The prefetch of context k reads at address va (R276, R280, R297): a word of the core's TCM; a far word, when the queue is empty, as a
far request that issue waits for; or the rest of a 32-byte line of the boot flash, as far as the queue has room. Nothing is read where
the checks of a fetch do not pass: the instruction raises their cause when it issues. -/
def State.prefetchAt (s : State) (n k va : Nat) : State :=
  let E := s.waitEnv n k
  let p := s.pcc n k
  let q := (s.core n).prefetch
  let a : Acc := ⟨p, 0xF, va, 8, kFETCH, 0, 0, 0, true, false, false⟩
  match chunkAt s E a va 8 with
  | (.ok (c :: _), s1) =>
    let s1 := s1.setCore n { s1.core n with line := none }
    (match c.place with
     | .mem .dram pa =>
       if q = [] then
         let s := s1.noteFar E [c]
         s.queueWords n [(va, (s.memOf .dram).word pa, (s.memOf .dram).tag pa)]
       else s
     | .mem t pa =>
       if s.fetchGranted n ((s.core n).pace.port + 1) then s1.queueWords n [(va, (s1.memOf t).word pa, (s1.memOf t).tag pa)] else s
     | .unbacked _ => if q = [] then s1.queueWords n [(va, 0, tBUS)] else s
     | .reg pa =>
       (match s1.windowOffset pa with
        | some off =>
          let (served, s) := s1.serveFlash (.core n k) off pa
          let s := s.setCore n { s.core n with line := some (off / 32) }
          s.queueWords n ((List.range (Nat.min (4 - q.length) (4 - va / 8 % 4))).map (fun i =>
            if served then (va + 8 * i, s.flashWord (off + 8 * i), tINT) else (va + 8 * i, 0, tBUS)))
        | none => s)
     | _ => s)
  | _ => s

/-- PREFETCH_READ (R276): the core fetches while its queue has a free entry, unless it issues a loop body from kept words (R279). -/
def execPrefetchRead (n : Nat) (s : State) : Host.Outcome State Fault Refusal :=
  if 48 ≤ n then .refused .illFormed
  else if s.unit n ≠ n ∨ s.coreRuns n = false ∨ 4 ≤ (s.core n).prefetch.length ∨ (s.core n).kept ≠ none ∨ (s.core n).farWait = true then .next s
  else
    match s.runningCtx n with
    | none => .next s
    | some k => .next (s.prefetchAt n k (s.fetchNext n k))

/-- STORE_BUFFER_WRITE (R282): the oldest store-buffer entry of core n is written, on a P-core by its TCM's port when it lies there. -/
def execStoreBufferWrite (n : Nat) (s : State) : Host.Outcome State Fault Refusal :=
  if 112 ≤ n then .refused .illFormed
  else if (s.core n).off = true then .next s
  else
    match (s.core n).sb with
    | [] => .next s
    | e :: _ => .next (if e.tgt = .dram then s.drainOne n else (s.drainOne n).portUsed n)

/-- The port of a TCM can grant priority 4 (R281): no store-buffer entry of the TCM and no fetch wants it. -/
def State.outsideGranted (s : State) (n : Nat) : Bool :=
  let c := s.core n
  !(c.sb.any (fun e => decide (e.tgt ≠ .dram)))
    && (decide (4 ≤ c.prefetch.length) || c.kept.isSome || !(s.coreRuns n) || (s.runningCtx n).isNone)

/-- TCM_WRITE_FROM_OUTSIDE (R281, R296): a write of a master outside the pair, admitted at the port of that master (R356), reaches the
bytes of mask of one word of its TCM, under the master's row of R59, in a cycle in which the port grants priority 4; both TCMs of a pair change at the same point of the stream. -/
def execTcmWriteFromOutside (n pa data mask : Nat) (s : State) : Host.Outcome State Fault Refusal :=
  if 48 ≤ n ∨ pa % 8 ≠ 0 ∨ 2 ^ 64 ≤ data ∨ 256 ≤ mask ∨ mask = 0 then .refused .illFormed
  else if s.unit n ≠ n ∨ s.tgtOf n pa ≠ .tcm n ∨ (s.core n).off = true ∨ s.outsideGranted n = false then .next s
  else
    let (m, ok) := (s.memOf (.tcm n)).masterWrite pa data mask
    .next (if ok then (s.setMemOf (.tcm n) m).lineWritten (.tcm n) (lineOf pa) none else s)

/-! ## The control store -/

/-- CS_PARITY_CORRECTION (R321, R322): a word of the control store of a core fails its parity. When one copy fails, the other is used, and
MCS rewrites the word, counts it and reports it; when both fail, the word stands bad until a routine of that number reads it: a CROSS or
KCMD wait under way does so at once. -/
def execCsParityCorrection (core micro nano : Nat) (isNano both : Bool) (routine : Nat) (s : State) :
    Host.Outcome State Fault Refusal :=
  if 112 ≤ core ∨ 8192 ≤ micro ∨ 1024 ≤ nano then .refused .illFormed
  else if (s.core (s.unit core)).off then .next s
  else if both then
    let u := s.unit core
    let c := s.core u
    let s := s.setCore u { c with csBad := c.csBad ++ [(⟨core, routine, micro, nano, isNano, resumableRoutine routine⟩ : CsBad)] }
    .next ([0, 1].foldl (fun s k => s.waitFault (s.waitEnv u k)) s)
  else .next ((s.satRf (.mcsCore core) mcsCore_FIXCNT 1).raise 0 core 0x08 0 0)

/-- MCS_LOAD_COMPLETE (R326, R327): the load in progress ends; readback tells whether every word reads back as written. -/
def execMcsLoadComplete (readback : Bool) (s : State) : Host.Outcome State Fault Refusal :=
  if s.rf .mcsStat mcsStat_BUSY = 0 then .next s
  else
    let (err, s) := s.csLoad (s.rf .mcsStat mcsStat_LASTCORE) (s.rf .mcsSrc mcsSrc_ADDR * 4096) readback
    .next ((s.setRf .mcsStat mcsStat_ERR err).setRf .mcsStat mcsStat_BUSY 0)

/-! ## A pair that failed over (R540) -/

/-- Reset pair p is in its self-test: DEP.PAIR shows 1, or 3 where R536 keeps it (R540). -/
def State.pairUnderTest (s : State) (p : Nat) : Bool :=
  decide (s.rf (.depPair p) depPair_STATE = 1) || decide (s.rf (.depPair p) depPair_STATE = 3)

/-- PAIR_SELF_TEST (R540): the self-test of reset pair p ends 5.01 ms after it began. A pair that passes has its control store loaded
again when CS_DUAL was reported, and awaits its TCM contents; one that fails reports SELFTEST_FAIL. -/
def execPairSelfTest (p : Nat) (pass : Bool) (s : State) : Host.Outcome State Fault Refusal :=
  if 24 ≤ p then .refused .illFormed
  else
    match tfind s.selfTest p with
    | none => .next s
    | some t =>
      if s.pairUnderTest p = false then .next s
      else
        let s := s.advanceTo (t + 5010000)
        let s := { s with selfTest := tdel s.selfTest p }
        .next (
          if pass then
            let dual := s.rf (.mcsCore (2 * p)) mcsCore_DUAL = 1 ∨ s.rf (.mcsCore (2 * p + 1)) mcsCore_DUAL = 1
            let s := if dual then s.csAgain (2 * p) else s
            { s with selfTest := tset s.selfTest (24 + p) t }
          else s.raise 1 p 0x12 0 0)

/-- PAIR_TCM_RELOAD (R540): 5.21 ms after detection IMG has reloaded both TCMs of pair p; context 0 starts at the reset entry and the
pair is eligible again; the record of a pair that R536 keeps goes on showing 3. -/
def execPairTcmReload (p : Nat) (s : State) : Host.Outcome State Fault Refusal :=
  if 24 ≤ p then .refused .illFormed
  else
    match tfind s.selfTest (24 + p) with
    | none => .next s
    | some t =>
      if s.pairUnderTest p = false then .next s
      else
        let n := 2 * p
        let s := s.advanceTo (t + 5210000)
        let s := { s with selfTest := tdel s.selfTest (24 + p) }.tcmReload n
        let s := s.setCore n { s.core n with held := false }
        .next (if s.rf (.depPair p) depPair_STATE = 3 then s else s.setRf (.depPair p) depPair_STATE 0)

/-! ## Placement finds nothing (R405) -/

/-- A request waits that no pair can take: the head of a class queue or of a CROSS queue. -/
def State.unplaced (s : State) : Bool :=
  (List.range 64).any (fun q => match tget s.queues q [] with
    | [] => false
    | f :: _ => decide (s.now ≤ f.deadline) && (s.framePair f).isNone)
  || (List.range 64).any (fun q => match tget s.xq q [] with
    | [] => false
    | _ :: _ => (s.choosePair (64 + q) (s.rf (.xqcfg q) xqcfg_SERVERS) (crossWorld q) none none).isNone)

/-- NO_ELIGIBLE_PAIR (R405): a dispatch or CROSS request has found no eligible pair for 1 ms. -/
def execNoEligiblePair (s : State) : Host.Outcome State Fault Refusal :=
  if s.serving && s.unplaced then .next ((s.advanceTo (s.now + 1000000)).report 535) else .next s

end Sys2Proof.Machine
end

