-- ==== Sys2Proof/Machine/RegRows.lean ====
section
/-! DEFINITION. The commands that are a write or a read of one register by a requester: a core context, or a Ridge-checked master
("Register blocks"; R5-R12, R355-R358, R371-R378, R582). A core's own path to a register, with the checks of its capability, is its
load or store instruction; here the access has reached the register. -/

namespace Sys2Proof.Machine

open Sys2Proof

/-! ## The way of a master to a register -/

/-- The access of a master passes the Ridge check (R356, R358). In LOCKDOWN, and in a fatal SELFTEST, what answers is a matter of the
register alone (R578). The debug port serves nothing in SELFTEST (R621); in LOCKDOWN it reads the diagnostic registers without a check,
and every other access of it is a denial (R372, R373). In CONFIGURE recovery the PCIe physical function reaches IMG.CHECK through BAR0
(R556). -/
def State.masterReaches (s : State) (m f : Nat) (write : Bool) (a : Nat) (diag : Bool) : Bool × State :=
  if m = mDBG then
    if s.mode = mdSELFTEST then (false, s)
    else if s.mode = mdLOCKDOWN then (if !write && diag then (true, s) else (false, s.dbgDeny write a))
    else
      match s.ridge mDBG 0 write a with
      | (some _, s) => (true, s)
      | (none, s) => (false, s.dbgDeny write a)
  else if s.sealedShut then (true, s)
  else if m = mHOST ∧ f = 0 ∧ s.mode = mdCONFIGURE ∧ s.rf .sysMode sysMode_RECOVERY = 1 ∧ a = Reg.imgCheck.pa then (true, s)
  else
    match s.ridge m f write a with
    | (some _, s) => (true, s)
    | (none, s) => (false, s)

/-- A write of a core that a world rule denies raises CAP_PERM with EINFO[16]. The capability register and the address of the store are
not part of these commands: free values. -/
def State.regDenyTrap (s : State) (n k : Nat) : State :=
  let (c, s) := s.draw
  let (a, s) := s.draw
  s.raiseTrap n k (trapPerm (c % 16) (2 ^ 16) (a % 2 ^ 64)) (s.pc n k)

/-- A write of v to register r by requester q. ok holds the range of the operands and the trigger that names the command. -/
def regRow (ok : Bool) (q : Requester) (r : Reg) (v : Word) (s : State) : Host.Outcome State Fault Refusal :=
  if !(ok && q.wf) then .refused .illFormed
  else
    match q with
    | .core n k =>
      if !(s.canIssue n k) then .next s
      else
        -- R205, R380: after every earlier store of the context
        let s := s.drain n
        match regWrite s q r v with
        | some s => .next s
        | none => .next (s.regDenyTrap n k)
    | .master m f =>
      match s.masterReaches m f true r.pa false with
      | (false, s) => .next s
      | (true, s) => .next ((regWrite s q r v).getD s)

/-- A read is answered: the word, and whether with an error response (R358, R373). -/
def State.answerRead (s : State) (w : Word) (err : Bool) : State := { s with regOut := some w, regErr := err }

/-- A denied read of a master: zero with an error response; in SELFTEST the debug port serves no access (R371). -/
def State.denyRead (s : State) (m : Nat) : State := if m = mDBG ∧ s.mode = mdSELFTEST then s else s.answerRead 0 true

/-- A read of register r by requester q: the word it answers, and what the read does. A read that is denied returns zero with an error
response. -/
def readRow (ok : Bool) (q : Requester) (r : Reg) (s : State) : Host.Outcome State Fault Refusal :=
  if !(ok && q.wf) then .refused .illFormed
  else
    match q with
    | .core n k =>
      if !(s.canIssue n k) then .next s
      else
        let (w, s) := regRead (s.drain n) q r
        .next (s.answerRead w false)
    | .master m f =>
      match s.masterReaches m f false r.pa (diagReg r) with
      | (false, s) => .next (s.denyRead m)
      | (true, s) =>
        let (w, s) := regRead s q r
        .next (s.answerRead w false)

/-! ## Writes with an effect of their own -/

/-- EOI (R267): a write of INTC.TGT[t] with EOI ends the highest active source of target t. -/
def execEoi (q : Requester) (t : Nat) (v : Word) (s : State) : Host.Outcome State Fault Refusal :=
  regRow (decide (t < 224) && flag v 16) q (.intcTgt t) v s

/-- CNTSUB (R270): a write of INTC.SRC[n] with CNTSUB subtracts from the count of source n. -/
def execCntsub (q : Requester) (n : Nat) (v : Word) (s : State) : Host.Outcome State Fault Refusal :=
  regRow (decide (n < 640) && decide (fld v 47 32 ≠ 0)) q (.intcSrc n) v s

/-- PEND_WITHDRAW (R270): a write of 1 to PEND of INTC.SRC[n] withdraws a pending source. -/
def execPendWithdraw (q : Requester) (n : Nat) (v : Word) (s : State) : Host.Outcome State Fault Refusal :=
  regRow (decide (n < 640) && flag v 23) q (.intcSrc n) v s

/-- DOORBELL (R270): a write of INTC.DOORBELL reports source 616 + BELL. -/
def execDoorbell (q : Requester) (v : Word) (s : State) : Host.Outcome State Fault Refusal :=
  regRow (true) q (.intcDoorbell) v s

/-- MCS_LOADREQ (R326): a write of MCS.LOADREQ starts a control-store load. -/
def execMcsLoadreq (q : Requester) (v : Word) (s : State) : Host.Outcome State Fault Refusal :=
  regRow (true) q (.mcsLoadreq) v s

/-- GIVE (R402): a write of PLE.GIVE adds a frame to its pool, or rejects it. -/
def execGive (q : Requester) (v : Word) (s : State) : Host.Outcome State Fault Refusal :=
  regRow (true) q (.pleGive) v s

/-- CALNOW (R391): a write of MEM.PCCTL with CALNOW starts a retraining of the selected pseudo-channel. -/
def execCalnow (q : Requester) (v : Word) (s : State) : Host.Outcome State Fault Refusal :=
  regRow (flag v 3) q (.memPcctl ((s.reg (.memPcsel q)).toNat % 128)) v s

/-- RETIRE (R394): a write of MEM.PCCTL with RETIRE starts the retirement of the selected pseudo-channel. -/
def execRetire (q : Requester) (v : Word) (s : State) : Host.Outcome State Fault Refusal :=
  regRow (flag v 16) q (.memPcctl ((s.reg (.memPcsel q)).toNat % 128)) v s

/-- ADV (R370): a write of RDG.EPOCH with ADV starts or queues an epoch advance. -/
def execAdv (q : Requester) (v : Word) (s : State) : Host.Outcome State Fault Refusal :=
  regRow (flag v 0) q (.rdgEpoch) v s

/-- HALT (R374): a write of DBG.CORECTL[n] requests or releases a halt. -/
def execHalt (q : Requester) (n : Nat) (v : Word) (s : State) : Host.Outcome State Fault Refusal :=
  regRow (decide (n < 112)) q (.dbgCorectl n) v s

/-- STEP (R374): a write of DBG.CORECTL[n] sets or clears single step. -/
def execStep (q : Requester) (n : Nat) (v : Word) (s : State) : Host.Outcome State Fault Refusal :=
  regRow (decide (n < 112)) q (.dbgCorectl n) v s

/-- FLOAD (R420): a write of ING.FLOAD makes a format resident. -/
def execFload (q : Requester) (v : Word) (s : State) : Host.Outcome State Fault Refusal :=
  regRow (true) q (.ingFload) v s

/-- RELEASE (R477): a write of JC.SLOT[j] with RELEASE stops appends and fails the slot. -/
def execRelease (q : Requester) (j : Nat) (v : Word) (s : State) : Host.Outcome State Fault Refusal :=
  regRow (decide (j < 2) && flag v 8) q (.jcSlot j) v s

/-- RELSEQ (R485): a write of JC.REL, ignored if lower and clamped to DURSEQ. -/
def execRelseq (q : Requester) (v : Word) (s : State) : Host.Outcome State Fault Refusal :=
  regRow (true) q (.jcRel) v s

/-- GO (R474): a write of JC.RDCTL with GO starts a read-out. -/
def execGo (q : Requester) (v : Word) (s : State) : Host.Outcome State Fault Refusal :=
  regRow (flag v 0) q (.jcRdctl) v s

/-- CLAIM (R505): a write of CDL.CLAIM with OP 1 claims a plot. -/
def execClaim (q : Requester) (v : Word) (s : State) : Host.Outcome State Fault Refusal :=
  regRow (decide (fld v 63 62 = 1)) q (.cdlClaim) v s

/-- PLOT_RELEASE (R505): a write of CDL.CLAIM with OP 2 releases a plot. -/
def execPlotRelease (q : Requester) (v : Word) (s : State) : Host.Outcome State Fault Refusal :=
  regRow (decide (fld v 63 62 = 2)) q (.cdlClaim) v s

/-- RETIRE_NOW (R548): a write of DEP.RETIRE with OP 1 retires a named unit. -/
def execRetireNow (q : Requester) (v : Word) (s : State) : Host.Outcome State Fault Refusal :=
  regRow (decide (fld v 1 0 = 1)) q (.depRetire) v s

/-- READMIT (R539): a write of DEP.RETIRE with OP 2 erases a unit's entry of the retirement log. -/
def execReadmit (q : Requester) (v : Word) (s : State) : Host.Outcome State Fault Refusal :=
  regRow (decide (fld v 1 0 = 2)) q (.depRetire) v s

/-- RECORD_FREE (R548): a write of 1 to V of DEP.REC[r] frees the record. -/
def execRecordFree (q : Requester) (r : Nat) (v : Word) (s : State) : Host.Outcome State Fault Refusal :=
  regRow (decide (r < 1024) && flag v 0) q (.depRec r) v s

/-- RECORD_ACKNOWLEDGE (R548): a write of 1 to NEW of DEP.REC[r] acknowledges the record. -/
def execRecordAcknowledge (q : Requester) (r : Nat) (v : Word) (s : State) : Host.Outcome State Fault Refusal :=
  regRow (decide (r < 1024) && flag v 1) q (.depRec r) v s

/-- SNAP (R553): a write of MON.CTL with SNAP copies the live values of the selected monitor. -/
def execSnap (q : Requester) (v : Word) (s : State) : Host.Outcome State Fault Refusal :=
  regRow (flag v 33) q (.monCtl ((s.reg (.monSel q)).toNat % 32)) v s

/-- CLEAR (R553): a write of MON.CTL with CLEAR resets the live values of the selected monitor. -/
def execClear (q : Requester) (v : Word) (s : State) : Host.Outcome State Fault Refusal :=
  regRow (flag v 34) q (.monCtl ((s.reg (.monSel q)).toNat % 32)) v s

/-- RCTL_GO (R572): a write of IMG.RCTL with GO enters RECONFIG and quiesces the slice. -/
def execRctlGo (q : Requester) (v : Word) (s : State) : Host.Outcome State Fault Refusal :=
  regRow (flag v 0) q (.imgRctl) v s

/-- LOCK (R582): a write of SYS.LOCK with its code enters LOCKDOWN with CAUSE 7. -/
def execLock (q : Requester) (v : Word) (s : State) : Host.Outcome State Fault Refusal :=
  regRow (true) q (.sysLock) v s

/-- SVNCOMMIT (R582): a write of SYS.SVNCOMMIT with GO raises SVNMIN. -/
def execSvncommit (q : Requester) (v : Word) (s : State) : Host.Outcome State Fault Refusal :=
  regRow (flag v 0) q (.sysSvncommit) v s

/-- DOMAIN_SWITCH_ON (R588): a write of PWR.DOM[d] with REQ = 1 switches a domain on. -/
def execDomainSwitchOn (q : Requester) (d : Nat) (v : Word) (s : State) : Host.Outcome State Fault Refusal :=
  regRow (decide (d < 96) && flag v 0) q (.pwrDom d) v s

/-- DOMAIN_SWITCH_OFF (R588): a write of PWR.DOM[d] with REQ = 0 switches an idle domain off. -/
def execDomainSwitchOff (q : Requester) (d : Nat) (v : Word) (s : State) : Host.Outcome State Fault Refusal :=
  regRow (decide (d < 96) && !(flag v 0)) q (.pwrDom d) v s

/-- DVFS_REQUEST (R590): a write of PWR.DVFS[j] changes the point that group j asks for. -/
def execDvfsRequest (q : Requester) (j : Nat) (v : Word) (s : State) : Host.Outcome State Fault Refusal :=
  regRow (decide (j < 32)) q (.pwrDvfs j) v s

/-- WARM_DEVICE_RESET (R598): a write of PWR.RESET with OP 1. -/
def execWarmDeviceReset (q : Requester) (v : Word) (s : State) : Host.Outcome State Fault Refusal :=
  regRow (decide (fld v 2 0 = 1)) q (.pwrReset) v s

/-- DOMAIN_RESET (R598): a write of PWR.RESET with OP 2. -/
def execDomainReset (q : Requester) (v : Word) (s : State) : Host.Outcome State Fault Refusal :=
  regRow (decide (fld v 2 0 = 2)) q (.pwrReset) v s

/-- PAIR_RESET (R599): a write of PWR.RESET with OP 3. -/
def execPairReset (q : Requester) (v : Word) (s : State) : Host.Outcome State Fault Refusal :=
  regRow (decide (fld v 2 0 = 3)) q (.pwrReset) v s

/-- CORE_RESET (R598): a write of PWR.RESET with OP 4. -/
def execCoreReset (q : Requester) (v : Word) (s : State) : Host.Outcome State Fault Refusal :=
  regRow (decide (fld v 2 0 = 4)) q (.pwrReset) v s

/-- LINK_BLOCK_RESET (R601): a write of PWR.RESET with OP 5 and CLASS 0. -/
def execLinkBlockReset (q : Requester) (v : Word) (s : State) : Host.Outcome State Fault Refusal :=
  regRow (decide (fld v 2 0 = 5) && decide (fld v 23 20 = 0)) q (.pwrReset) v s

/-- SLOT_BLOCK_RESET (R601): a write of PWR.RESET with OP 5 and CLASS 1. -/
def execSlotBlockReset (q : Requester) (v : Word) (s : State) : Host.Outcome State Fault Refusal :=
  regRow (decide (fld v 2 0 = 5) && decide (fld v 23 20 = 1)) q (.pwrReset) v s

/-- KEY_UNIT_RESET (R601): a write of PWR.RESET with OP 5 and CLASS 2. -/
def execKeyUnitReset (q : Requester) (v : Word) (s : State) : Host.Outcome State Fault Refusal :=
  regRow (decide (fld v 2 0 = 5) && decide (fld v 23 20 = 2)) q (.pwrReset) v s

/-- MONITOR_RESET (R601): a write of PWR.RESET with OP 5 and CLASS 3. -/
def execMonitorReset (q : Requester) (v : Word) (s : State) : Host.Outcome State Fault Refusal :=
  regRow (decide (fld v 2 0 = 5) && decide (fld v 23 20 = 3)) q (.pwrReset) v s

/-- LANE_RESET (R601): a write of PWR.RESET with OP 5 and CLASS 4. -/
def execLaneReset (q : Requester) (v : Word) (s : State) : Host.Outcome State Fault Refusal :=
  regRow (decide (fld v 2 0 = 5) && decide (fld v 23 20 = 4)) q (.pwrReset) v s

/-- ERASE (R624): a write of MGT.FLCMD with OP 1 erases 4 KiB of flash. -/
def execErase (q : Requester) (v : Word) (s : State) : Host.Outcome State Fault Refusal :=
  regRow (decide (fld v 2 0 = 1)) q (.mgtFlcmd) v s

/-- PROGRAM (R624): a write of MGT.FLCMD with OP 2 programs 256 bytes. -/
def execProgram (q : Requester) (v : Word) (s : State) : Host.Outcome State Fault Refusal :=
  regRow (decide (fld v 2 0 = 2)) q (.mgtFlcmd) v s

/-- FLASH_READ (R624): a write of MGT.FLCMD with OP 3 reads 256 bytes into FLBUF. -/
def execFlashRead (q : Requester) (v : Word) (s : State) : Host.Outcome State Fault Refusal :=
  regRow (decide (fld v 2 0 = 3)) q (.mgtFlcmd) v s

/-- TXGO (R624): a write of MGT.MCTL with TXGO sends an MCTP message. -/
def execTxgo (q : Requester) (v : Word) (s : State) : Host.Outcome State Fault Refusal :=
  regRow (flag v 24) q (.mgtMctl) v s

/-- RXFULL (R624): a write of 1 to RXFULL of MGT.MCTL frees the receive buffer. -/
def execRxfull (q : Requester) (v : Word) (s : State) : Host.Outcome State Fault Refusal :=
  regRow (flag v 0) q (.mgtMctl) v s

/-- UART_TRANSMIT (R624): a write of MGT.UDATA queues a byte. -/
def execUartTransmit (q : Requester) (v : Word) (s : State) : Host.Outcome State Fault Refusal :=
  regRow (true) q (.mgtUdata) v s

/-- CHECK (R572, R556): a write of IMG.CHECK with GO checks the staged image, or, by the PCIe physical function in CONFIGURE recovery, the
image that it has put into the BAR2 window of 32 MiB. -/
def execCheck (q : Requester) (v : Word) (image : List (Nat × Byte)) (s : State) : Host.Outcome State Fault Refusal :=
  let bar := decide (q = .master mHOST 0) && decide (s.mode = mdCONFIGURE) && decide (s.rf .sysMode sysMode_RECOVERY = 1)
  if !(image.isEmpty || bar) || !(image.all (fun e => decide (e.1 < 0x2000000))) then .refused .illFormed
  else
    let s := if bar then { s with bar2 := image.foldl (fun t e => aset t e.1 e.2 0) s.bar2 } else s
    regRow (flag v 0) q .imgCheck v s

/-! ## Reads with an effect of their own -/

/-- TAKE (R404): a read of PLE.TAKE[t] removes a frame from a pool. -/
def execTake (q : Requester) (t : Nat) (s : State) : Host.Outcome State Fault Refusal :=
  readRow (decide (t < 4)) q (.pleTake t) s

/-- OVF_READ (R402): a read of PLE.OVF removes the oldest overflow frame. -/
def execOvfRead (q : Requester) (s : State) : Host.Outcome State Fault Refusal := readRow true q .pleOvf s

/-- UART_READ (R624): a read of MGT.UDATA removes the oldest received byte. -/
def execUartRead (q : Requester) (s : State) : Host.Outcome State Fault Refusal := readRow true q .mgtUdata s

/-! ## Any register -/

/-- A write of an aligned word of DRAM by a master (R58, R59, R355): denied, refused by its tag, or made. -/
def State.masterWord (s : State) (m f pa : Nat) (v : Word) : State :=
  (s.masterWriteBytes m f pa (toBytes v.toNat 8) 2).2

/-- REGISTER_WRITE (R9): a 64-bit write of register space; an offset with no register ignores it (R26). The boot-flash window holds no
register. With an address of DRAM it is the write that a master other than a core makes there, as an inbound request of a PCIe function is
(R355). -/
def execRegisterWrite (q : Requester) (pa : Nat) (v : Word) (s : State) : Host.Outcome State Fault Refusal :=
  if backedDram pa then
    match q with
    | .core _ _ => .refused .illFormed
    | .master m f =>
      if !(q.wf) || decide (pa % 8 ≠ 0) then .refused .illFormed
      else if m = mDBG ∨ s.sealedShut = true then .next s
      else .next (s.masterWord m f pa v)
  else if !(isRegSpace pa) || decide (pa % 8 ≠ 0) || (decide (0x0F0012800000 ≤ pa) && decide (pa < 0x0F0013000000)) then .refused .illFormed
  else
    match s.regAtPa q pa with
    | some r => regRow true q r v s
    | none =>
      if !(q.wf) then .refused .illFormed
      else
        match q with
        | .core n k =>
          if !(s.canIssue n k) then .next s
          else
            let s := s.drain n
            .next (if s.spareDenied q pa then s.regDenyTrap n k else s)
        | .master m f => .next (s.masterReaches m f true pa false).2

/-- READ_REG (R620): an MCTP command reads one of the registers of R578; of any other address there is no answer. -/
def execReadReg (pa : Nat) (s : State) : Host.Outcome State Fault Refusal :=
  if s.smbOn = false then .next s
  else
    match (if isRegSpace pa = true ∧ pa % 8 = 0 then s.regAtPa (.master 11 0) pa else none) with
    | none => .next { s with mctpAns := [] }
    | some r =>
      if diagReg r then .next { s with mctpAns := toBytes (regRead s (.master 11 0) r).1.toNat 8 }
      else .next { s with mctpAns := [] }

/-! ## The debug port -/

/-- What a read of an aligned word that is admitted answers, and whether with an error response: a register, a word of the boot-flash window
(R620), a word of DRAM with the tags of R57, and zero elsewhere (R21). -/
def State.dbgRead (s : State) (a : Nat) : Word × Bool × State :=
  if isRegSpace a then
    match s.windowOffset a with
    | some off =>
      (match s.serveFlash (.master mDBG 0) off a with
      | (true, s) => (word (s.flashRead off 8), false, s)
      | (false, s) => (0, true, s))
    | none =>
      let (w, s) := readPa s (.master mDBG 0) a
      (w, false, s)
  else if backedDram a then (word (s.mem.masterRead a).1, !(s.mem.masterRead a).2, s)
  else (0, true, s)

/-- What a write of the masked bytes of an aligned word that is admitted does. A register takes whole words only. -/
def State.dbgWrite (s : State) (a : Nat) (v : Word) (mask : Nat) : State :=
  if isRegSpace a then
    (if mask = 0xFF ∧ (s.windowOffset a).isNone = true then (writePa s (.master mDBG 0) a v).getD s else s)
  else if backedDram a then
    let (m, ok) := s.mem.masterWrite a v.toNat mask
    if ok then ({ s with mem := m }).lineWritten .dram (lineOf a) none else s
  else s

/-- DBG_ACCESS (R372): the debug port reads or writes an aligned word of memory or of register space. A denied read returns zero, and a
denied write is discarded (R373). -/
def execDbgAccess (write : Bool) (a : Nat) (v : Word) (mask : Nat) (s : State) : Host.Outcome State Fault Refusal :=
  if a % 8 ≠ 0 ∨ 2 ^ 44 ≤ a ∨ 256 ≤ mask ∨ mask = 0 then .refused .illFormed
  else
    let diag := isRegSpace a && (match s.regAtPa (.master mDBG 0) a with
      | some r => diagReg r
      | none => false)
    match s.masterReaches mDBG 0 write a diag with
    | (false, s) => .next (if write then s else s.denyRead mDBG)
    | (true, s) =>
      if write then .next (s.dbgWrite a v mask)
      else
        let (w, err, s) := s.dbgRead a
        .next (s.answerRead w err)

end Sys2Proof.Machine
end

