-- ==== Sys2Proof/Machine/Dispatch.lean ====
section
/-! DEFINITION. The dispatch: one arm per constructor of Instr, each one direct call of its meaning. -/

namespace Sys2Proof.Machine

open Sys2Proof

def exec (i : Instr) (s : State) : Host.Outcome State Fault Refusal :=
  match i with
  | .add h rd ra rb => Sys2Proof.Machine.execAdd h rd ra rb s
  | .sub h rd ra rb => Sys2Proof.Machine.execSub h rd ra rb s
  | .and h rd ra rb => Sys2Proof.Machine.execAnd h rd ra rb s
  | .or h rd ra rb => Sys2Proof.Machine.execOr h rd ra rb s
  | .xor h rd ra rb => Sys2Proof.Machine.execXor h rd ra rb s
  | .andn h rd ra rb => Sys2Proof.Machine.execAndn h rd ra rb s
  | .sll h rd ra rb => Sys2Proof.Machine.execSll h rd ra rb s
  | .srl h rd ra rb => Sys2Proof.Machine.execSrl h rd ra rb s
  | .sra h rd ra rb => Sys2Proof.Machine.execSra h rd ra rb s
  | .ror h rd ra rb => Sys2Proof.Machine.execRor h rd ra rb s
  | .min h rd ra rb => Sys2Proof.Machine.execMin h rd ra rb s
  | .max h rd ra rb => Sys2Proof.Machine.execMax h rd ra rb s
  | .minu h rd ra rb => Sys2Proof.Machine.execMinu h rd ra rb s
  | .maxu h rd ra rb => Sys2Proof.Machine.execMaxu h rd ra rb s
  | .clz h rd ra => Sys2Proof.Machine.execClz h rd ra s
  | .ctz h rd ra => Sys2Proof.Machine.execCtz h rd ra s
  | .popc h rd ra => Sys2Proof.Machine.execPopc h rd ra s
  | .bswap h rd ra => Sys2Proof.Machine.execBswap h rd ra s
  | .sext h rd ra sel => Sys2Proof.Machine.execSext h rd ra sel s
  | .zext h rd ra sel => Sys2Proof.Machine.execZext h rd ra sel s
  | .slli h rd ra sh => Sys2Proof.Machine.execSlli h rd ra sh s
  | .srli h rd ra sh => Sys2Proof.Machine.execSrli h rd ra sh s
  | .srai h rd ra sh => Sys2Proof.Machine.execSrai h rd ra sh s
  | .rori h rd ra sh => Sys2Proof.Machine.execRori h rd ra sh s
  | .addi h rd ra imm => Sys2Proof.Machine.execAddi h rd ra imm s
  | .andi h rd ra imm => Sys2Proof.Machine.execAndi h rd ra imm s
  | .ori h rd ra imm => Sys2Proof.Machine.execOri h rd ra imm s
  | .xori h rd ra imm => Sys2Proof.Machine.execXori h rd ra imm s
  | .movi h rd imm => Sys2Proof.Machine.execMovi h rd imm s
  | .movs h rd imm => Sys2Proof.Machine.execMovs h rd imm s
  | .ceq h pd ra rb => Sys2Proof.Machine.execCeq h pd ra rb s
  | .cne h pd ra rb => Sys2Proof.Machine.execCne h pd ra rb s
  | .clt h pd ra rb => Sys2Proof.Machine.execClt h pd ra rb s
  | .cge h pd ra rb => Sys2Proof.Machine.execCge h pd ra rb s
  | .cltu h pd ra rb => Sys2Proof.Machine.execCltu h pd ra rb s
  | .cgeu h pd ra rb => Sys2Proof.Machine.execCgeu h pd ra rb s
  | .ctst h pd ra rb => Sys2Proof.Machine.execCtst h pd ra rb s
  | .ceqi h pd ra imm => Sys2Proof.Machine.execCeqi h pd ra imm s
  | .cnei h pd ra imm => Sys2Proof.Machine.execCnei h pd ra imm s
  | .clti h pd ra imm => Sys2Proof.Machine.execClti h pd ra imm s
  | .cgei h pd ra imm => Sys2Proof.Machine.execCgei h pd ra imm s
  | .pand h pd pa pb => Sys2Proof.Machine.execPand h pd pa pb s
  | .por h pd pa pb => Sys2Proof.Machine.execPor h pd pa pb s
  | .pxor h pd pa pb => Sys2Proof.Machine.execPxor h pd pa pb s
  | .pandn h pd pa pb => Sys2Proof.Machine.execPandn h pd pa pb s
  | .pnot h pd pa => Sys2Proof.Machine.execPnot h pd pa s
  | .mul h rd ra rb => Sys2Proof.Machine.execMul h rd ra rb s
  | .mulh h rd ra rb => Sys2Proof.Machine.execMulh h rd ra rb s
  | .mulhu h rd ra rb => Sys2Proof.Machine.execMulhu h rd ra rb s
  | .mulhsu h rd ra rb => Sys2Proof.Machine.execMulhsu h rd ra rb s
  | .div h rd ra rb => Sys2Proof.Machine.execDiv h rd ra rb s
  | .divu h rd ra rb => Sys2Proof.Machine.execDivu h rd ra rb s
  | .rem h rd ra rb => Sys2Proof.Machine.execRem h rd ra rb s
  | .remu h rd ra rb => Sys2Proof.Machine.execRemu h rd ra rb s
  | .dividerResult core => Sys2Proof.Machine.execDividerResult core s
  | .fadd h f rd ra rb => Sys2Proof.Machine.execFadd h f rd ra rb s
  | .fsub h f rd ra rb => Sys2Proof.Machine.execFsub h f rd ra rb s
  | .fmul h f rd ra rb => Sys2Proof.Machine.execFmul h f rd ra rb s
  | .fdiv h f rd ra rb => Sys2Proof.Machine.execFdiv h f rd ra rb s
  | .fsqrt h f rd ra => Sys2Proof.Machine.execFsqrt h f rd ra s
  | .fmin h f rd ra rb => Sys2Proof.Machine.execFmin h f rd ra rb s
  | .fmax h f rd ra rb => Sys2Proof.Machine.execFmax h f rd ra rb s
  | .fmac h f rd ra rb => Sys2Proof.Machine.execFmac h f rd ra rb s
  | .fceq h f pd ra rb => Sys2Proof.Machine.execFceq h f pd ra rb s
  | .fclt h f pd ra rb => Sys2Proof.Machine.execFclt h f pd ra rb s
  | .fcle h f pd ra rb => Sys2Proof.Machine.execFcle h f pd ra rb s
  | .fcun h f pd ra rb => Sys2Proof.Machine.execFcun h f pd ra rb s
  | .fneg h f rd ra => Sys2Proof.Machine.execFneg h f rd ra s
  | .fabs h f rd ra => Sys2Proof.Machine.execFabs h f rd ra s
  | .fclass h f rd ra => Sys2Proof.Machine.execFclass h f rd ra s
  | .fcvtif h f rd ra => Sys2Proof.Machine.execFcvtif h f rd ra s
  | .fcvtuf h f rd ra => Sys2Proof.Machine.execFcvtuf h f rd ra s
  | .fcvtfi h f rd ra => Sys2Proof.Machine.execFcvtfi h f rd ra s
  | .fcvtfir h f rd ra => Sys2Proof.Machine.execFcvtfir h f rd ra s
  | .fcvtfu h f rd ra => Sys2Proof.Machine.execFcvtfu h f rd ra s
  | .fcvtff h f rd ra => Sys2Proof.Machine.execFcvtff h f rd ra s
  | .ldb h t m => Sys2Proof.Machine.execLdb h t m s
  | .ldh h t m => Sys2Proof.Machine.execLdh h t m s
  | .ldw h t m => Sys2Proof.Machine.execLdw h t m s
  | .ld h t m => Sys2Proof.Machine.execLd h t m s
  | .ldbu h t m => Sys2Proof.Machine.execLdbu h t m s
  | .ldhu h t m => Sys2Proof.Machine.execLdhu h t m s
  | .ldwu h t m => Sys2Proof.Machine.execLdwu h t m s
  | .stb h t m => Sys2Proof.Machine.execStb h t m s
  | .sth h t m => Sys2Proof.Machine.execSth h t m s
  | .stw h t m => Sys2Proof.Machine.execStw h t m s
  | .st h t m => Sys2Proof.Machine.execSt h t m s
  | .ldf32 h t m => Sys2Proof.Machine.execLdf32 h t m s
  | .ldf64 h t m => Sys2Proof.Machine.execLdf64 h t m s
  | .stf32 h t m => Sys2Proof.Machine.execStf32 h t m s
  | .stf64 h t m => Sys2Proof.Machine.execStf64 h t m s
  | .ldc h t m => Sys2Proof.Machine.execLdc h t m s
  | .stc h t m => Sys2Proof.Machine.execStc h t m s
  | .ldres h t cb => Sys2Proof.Machine.execLdres h t cb s
  | .stcond h t cb pd => Sys2Proof.Machine.execStcond h t cb pd s
  | .ldresc h t cb => Sys2Proof.Machine.execLdresc h t cb s
  | .stcondc h t cb pd => Sys2Proof.Machine.execStcondc h t cb pd s
  | .gettag h t m => Sys2Proof.Machine.execGettag h t m s
  | .cleartag h t cb => Sys2Proof.Machine.execCleartag h t cb s
  | .cleartagp h t cb => Sys2Proof.Machine.execCleartagp h t cb s
  | .cpyt h rep cs cb => Sys2Proof.Machine.execCpyt h rep cs cb s
  | .br h off => Sys2Proof.Machine.execBr h off s
  | .call h off => Sys2Proof.Machine.execCall h off s
  | .jmp h ca => Sys2Proof.Machine.execJmp h ca s
  | .callc h ca => Sys2Proof.Machine.execCallc h ca s
  | .ret h => Sys2Proof.Machine.execRet h s
  | .jmpx h src => Sys2Proof.Machine.execJmpx h src s
  | .mfs h num rd rn => Sys2Proof.Machine.execMfs h num rd rn s
  | .mts h num src rn => Sys2Proof.Machine.execMts h num src rn s
  | .mfsc h num cd => Sys2Proof.Machine.execMfsc h num cd s
  | .mtsc h num ca => Sys2Proof.Machine.execMtsc h num ca s
  | .loop h lvl imm len count => Sys2Proof.Machine.execLoop h lvl imm len count s
  | .repElement h ins => Sys2Proof.Machine.execRepElement h ins s
  | .cstep h cd ca gs => Sys2Proof.Machine.execCstep h cd ca gs s
  | .caim h cd ca gs => Sys2Proof.Machine.execCaim h cd ca gs s
  | .ctrim h cd ca gs => Sys2Proof.Machine.execCtrim h cd ca gs s
  | .ctrimx h cd ca gs => Sys2Proof.Machine.execCtrimx h cd ca gs s
  | .cstrip h cd ca gs => Sys2Proof.Machine.execCstrip h cd ca gs s
  | .ctether h cd ca => Sys2Proof.Machine.execCtether h cd ca s
  | .ccopy h cd ca => Sys2Proof.Machine.execCcopy h cd ca s
  | .cvoid h cd ca => Sys2Proof.Machine.execCvoid h cd ca s
  | .crdcur h ca gd => Sys2Proof.Machine.execCrdcur h ca gd s
  | .crdbase h ca gd => Sys2Proof.Machine.execCrdbase h ca gd s
  | .crdlen h ca gd => Sys2Proof.Machine.execCrdlen h ca gd s
  | .crdperm h ca gd => Sys2Proof.Machine.execCrdperm h ca gd s
  | .crdtype h ca gd => Sys2Proof.Machine.execCrdtype h ca gd s
  | .crdflag h ca gd => Sys2Proof.Machine.execCrdflag h ca gd s
  | .crdhi h ca gd => Sys2Proof.Machine.execCrdhi h ca gd s
  | .cclose h cd ca cs => Sys2Proof.Machine.execCclose h cd ca cs s
  | .copen h cd ca cs => Sys2Proof.Machine.execCopen h cd ca cs s
  | .ckdrop h cd ca gs => Sys2Proof.Machine.execCkdrop h cd ca gs s
  | .pass h ca => Sys2Proof.Machine.execPass h ca s
  | .passr h ca => Sys2Proof.Machine.execPassr h ca s
  | .cross h ca => Sys2Proof.Machine.execCross h ca s
  | .xreply h => Sys2Proof.Machine.execXreply h s
  | .ascend h => Sys2Proof.Machine.execAscend h s
  | .descend h => Sys2Proof.Machine.execDescend h s
  | .eret h => Sys2Proof.Machine.execEret h s
  | .fence h => Sys2Proof.Machine.execFence h s
  | .fencesl h => Sys2Proof.Machine.execFencesl h s
  | .isync h => Sys2Proof.Machine.execIsync h s
  | .tlbiv h gs => Sys2Proof.Machine.execTlbiv h gs s
  | .tlbivs h gs => Sys2Proof.Machine.execTlbivs h gs s
  | .tlbivd h gs => Sys2Proof.Machine.execTlbivd h gs s
  | .tlbivsd h gs => Sys2Proof.Machine.execTlbivsd h gs s
  | .tlbiall h => Sys2Proof.Machine.execTlbiall h s
  | .tlbialld h => Sys2Proof.Machine.execTlbialld h s
  | .handlerEnd h ca gs => Sys2Proof.Machine.execHandlerEnd h ca gs s
  | .savel h => Sys2Proof.Machine.execSavel h s
  | .saveh h => Sys2Proof.Machine.execSaveh h s
  | .loadl h => Sys2Proof.Machine.execLoadl h s
  | .loadh h => Sys2Proof.Machine.execLoadh h s
  | .vspill h => Sys2Proof.Machine.execVspill h s
  | .vfill h => Sys2Proof.Machine.execVfill h s
  | .kcmd h cd ca gd => Sys2Proof.Machine.execKcmd h cd ca gd s
  | .kcmdStatus => Sys2Proof.Machine.execKcmdStatus s
  | .vadd h es vd va vb => Sys2Proof.Machine.execVadd h es vd va vb s
  | .vsub h es vd va vb => Sys2Proof.Machine.execVsub h es vd va vb s
  | .vand h es vd va vb => Sys2Proof.Machine.execVand h es vd va vb s
  | .vor h es vd va vb => Sys2Proof.Machine.execVor h es vd va vb s
  | .vxor h es vd va vb => Sys2Proof.Machine.execVxor h es vd va vb s
  | .vandn h es vd va vb => Sys2Proof.Machine.execVandn h es vd va vb s
  | .vsll h es vd va vb => Sys2Proof.Machine.execVsll h es vd va vb s
  | .vsrl h es vd va vb => Sys2Proof.Machine.execVsrl h es vd va vb s
  | .vsra h es vd va vb => Sys2Proof.Machine.execVsra h es vd va vb s
  | .vmin h es vd va vb => Sys2Proof.Machine.execVmin h es vd va vb s
  | .vmax h es vd va vb => Sys2Proof.Machine.execVmax h es vd va vb s
  | .vminu h es vd va vb => Sys2Proof.Machine.execVminu h es vd va vb s
  | .vmaxu h es vd va vb => Sys2Proof.Machine.execVmaxu h es vd va vb s
  | .vadds h es vd va vb => Sys2Proof.Machine.execVadds h es vd va vb s
  | .vaddsu h es vd va vb => Sys2Proof.Machine.execVaddsu h es vd va vb s
  | .vsubs h es vd va vb => Sys2Proof.Machine.execVsubs h es vd va vb s
  | .vsubsu h es vd va vb => Sys2Proof.Machine.execVsubsu h es vd va vb s
  | .vabsd h es vd va vb => Sys2Proof.Machine.execVabsd h es vd va vb s
  | .vmul h es vd va vb => Sys2Proof.Machine.execVmul h es vd va vb s
  | .vmulh h es vd va vb => Sys2Proof.Machine.execVmulh h es vd va vb s
  | .vbcast h es vd ra => Sys2Proof.Machine.execVbcast h es vd ra s
  | .vfadd h f vd va vb => Sys2Proof.Machine.execVfadd h f vd va vb s
  | .vfsub h f vd va vb => Sys2Proof.Machine.execVfsub h f vd va vb s
  | .vfmul h f vd va vb => Sys2Proof.Machine.execVfmul h f vd va vb s
  | .vfmac h f vd va vb => Sys2Proof.Machine.execVfmac h f vd va vb s
  | .vfmin h f vd va vb => Sys2Proof.Machine.execVfmin h f vd va vb s
  | .vfmax h f vd va vb => Sys2Proof.Machine.execVfmax h f vd va vb s
  | .vfneg h f vd va => Sys2Proof.Machine.execVfneg h f vd va s
  | .vfabs h f vd va => Sys2Proof.Machine.execVfabs h f vd va s
  | .vfcvtif h f vd va => Sys2Proof.Machine.execVfcvtif h f vd va s
  | .vfcvtfi h f vd va => Sys2Proof.Machine.execVfcvtfi h f vd va s
  | .vfcvtfir h f vd va => Sys2Proof.Machine.execVfcvtfir h f vd va s
  | .vdot8 h vd va vb => Sys2Proof.Machine.execVdot8 h vd va vb s
  | .vdot8us h vd va vb => Sys2Proof.Machine.execVdot8us h vd va vb s
  | .vdot16 h vd va vb => Sys2Proof.Machine.execVdot16 h vd va vb s
  | .vmac h es vd va vb => Sys2Proof.Machine.execVmac h es vd va vb s
  | .vperm h vd va vb => Sys2Proof.Machine.execVperm h vd va vb s
  | .vredadd h es rd va => Sys2Proof.Machine.execVredadd h es rd va s
  | .vredmin h es rd va => Sys2Proof.Machine.execVredmin h es rd va s
  | .vredmax h es rd va => Sys2Proof.Machine.execVredmax h es rd va s
  | .vredminu h es rd va => Sys2Proof.Machine.execVredminu h es rd va s
  | .vredmaxu h es rd va => Sys2Proof.Machine.execVredmaxu h es rd va s
  | .vfredadd h f rd va => Sys2Proof.Machine.execVfredadd h f rd va s
  | .vext h es rd va rb => Sys2Proof.Machine.execVext h es rd va rb s
  | .vins h es vd ra rb => Sys2Proof.Machine.execVins h es vd ra rb s
  | .vceq h es vd va vb => Sys2Proof.Machine.execVceq h es vd va vb s
  | .vclt h es vd va vb => Sys2Proof.Machine.execVclt h es vd va vb s
  | .vcltu h es vd va vb => Sys2Proof.Machine.execVcltu h es vd va vb s
  | .vfceq h f vd va vb => Sys2Proof.Machine.execVfceq h f vd va vb s
  | .vfclt h f vd va vb => Sys2Proof.Machine.execVfclt h f vd va vb s
  | .vsel h es vd va vb => Sys2Proof.Machine.execVsel h es vd va vb s
  | .vany h pd va => Sys2Proof.Machine.execVany h pd va s
  | .vall h pd va => Sys2Proof.Machine.execVall h pd va s
  | .vsetvl h es rd ra => Sys2Proof.Machine.execVsetvl h es rd ra s
  | .vld h t m => Sys2Proof.Machine.execVld h t m s
  | .vst h t m => Sys2Proof.Machine.execVst h t m s
  | .vstf h t m => Sys2Proof.Machine.execVstf h t m s
  | .gather h es sc sgn ft vd va cb => Sys2Proof.Machine.execGather h es sc sgn ft vd va cb s
  | .scatter h es sc sgn ft vd va cb => Sys2Proof.Machine.execScatter h es sc sgn ft vd va cb s
  | .mvReread n k => Sys2Proof.Machine.execMvReread n k s
  | .mvWaitTimeout n k => Sys2Proof.Machine.execMvWaitTimeout n k s
  | .interruptReport n => Sys2Proof.Machine.execInterruptReport n s
  | .holdEnd n => Sys2Proof.Machine.execHoldEnd n s
  | .interruptAccept n k => Sys2Proof.Machine.execInterruptAccept n k s
  | .eoi q t v => Sys2Proof.Machine.execEoi q t v s
  | .cntsub q n v => Sys2Proof.Machine.execCntsub q n v s
  | .pendWithdraw q n v => Sys2Proof.Machine.execPendWithdraw q n v s
  | .doorbell q v => Sys2Proof.Machine.execDoorbell q v s
  | .timerCompare k => Sys2Proof.Machine.execTimerCompare k s
  | .masklimitExpiry n => Sys2Proof.Machine.execMasklimitExpiry n s
  | .buserrAsync n k => Sys2Proof.Machine.execBuserrAsync n k s
  | .handlerWatchdog n k => Sys2Proof.Machine.execHandlerWatchdog n k s
  | .farDataArrival n => Sys2Proof.Machine.execFarDataArrival n s
  | .prefetchRead n => Sys2Proof.Machine.execPrefetchRead n s
  | .storeBufferWrite n => Sys2Proof.Machine.execStoreBufferWrite n s
  | .tcmWriteFromOutside n pa data mask => Sys2Proof.Machine.execTcmWriteFromOutside n pa data mask s
  | .pairSelfTest p pass => Sys2Proof.Machine.execPairSelfTest p pass s
  | .pairTcmReload p => Sys2Proof.Machine.execPairTcmReload p s
  | .csParityCorrection core micro nano isNano both routine => Sys2Proof.Machine.execCsParityCorrection core micro nano isNano both routine s
  | .mcsLoadreq q v => Sys2Proof.Machine.execMcsLoadreq q v s
  | .mcsLoadComplete readback => Sys2Proof.Machine.execMcsLoadComplete readback s
  | .heatDecay => Sys2Proof.Machine.execHeatDecay s
  | .placementMove f => Sys2Proof.Machine.execPlacementMove f s
  | .give q v => Sys2Proof.Machine.execGive q v s
  | .take q t => Sys2Proof.Machine.execTake q t s
  | .ovfRead q => Sys2Proof.Machine.execOvfRead q s
  | .ceWriteback a d => Sys2Proof.Machine.execCeWriteback a d s
  | .scrubRead pc f => Sys2Proof.Machine.execScrubRead pc f s
  | .rowSparing pc row => Sys2Proof.Machine.execRowSparing pc row s
  | .retraining pc fin => Sys2Proof.Machine.execRetraining pc fin s
  | .calnow q v => Sys2Proof.Machine.execCalnow q v s
  | .retire q v => Sys2Proof.Machine.execRetire q v s
  | .drainingCopy pc => Sys2Proof.Machine.execDrainingCopy pc s
  | .retdone pc => Sys2Proof.Machine.execRetdone pc s
  | .adv q v => Sys2Proof.Machine.execAdv q v s
  | .epochAdvanceComplete => Sys2Proof.Machine.execEpochAdvanceComplete s
  | .dbgAccess write a v mask => Sys2Proof.Machine.execDbgAccess write a v mask s
  | .halt q n v => Sys2Proof.Machine.execHalt q n v s
  | .step q n v => Sys2Proof.Machine.execStep q n v s
  | .coreHalted n => Sys2Proof.Machine.execCoreHalted n s
  | .laneDoorbell f l v => Sys2Proof.Machine.execLaneDoorbell f l v s
  | .ringDescriptorRead l => Sys2Proof.Machine.execRingDescriptorRead l s
  | .frameLanding l => Sys2Proof.Machine.execFrameLanding l s
  | .laneStall l => Sys2Proof.Machine.execLaneStall l s
  | .formatFetch => Sys2Proof.Machine.execFormatFetch s
  | .fload q v => Sys2Proof.Machine.execFload q v s
  | .parse => Sys2Proof.Machine.execParse s
  | .handlerStart => Sys2Proof.Machine.execHandlerStart s
  | .deadline slot => Sys2Proof.Machine.execDeadline slot s
  | .abortRedispatch n k => Sys2Proof.Machine.execAbortRedispatch n k s
  | .abortEnd n k => Sys2Proof.Machine.execAbortEnd n k s
  | .abortRelease n k => Sys2Proof.Machine.execAbortRelease n k s
  | .recordSealing => Sys2Proof.Machine.execRecordSealing s
  | .append => Sys2Proof.Machine.execAppend s
  | .cartridgeAck j a => Sys2Proof.Machine.execCartridgeAck j a s
  | .journalStall => Sys2Proof.Machine.execJournalStall s
  | .slotUnanswered j => Sys2Proof.Machine.execSlotUnanswered j s
  | .mediaError j => Sys2Proof.Machine.execMediaError j s
  | .responseRelease l => Sys2Proof.Machine.execResponseRelease l s
  | .postBuffer f l v => Sys2Proof.Machine.execPostBuffer f l v s
  | .responseBufferWait l => Sys2Proof.Machine.execResponseBufferWait l s
  | .cartridgeInsert j c => Sys2Proof.Machine.execCartridgeInsert j c s
  | .cartridgeRemove j => Sys2Proof.Machine.execCartridgeRemove j s
  | .attestation j => Sys2Proof.Machine.execAttestation j s
  | .attestationTimeout j => Sys2Proof.Machine.execAttestationTimeout j s
  | .wearRead => Sys2Proof.Machine.execWearRead s
  | .release q j v => Sys2Proof.Machine.execRelease q j v s
  | .resilver j => Sys2Proof.Machine.execResilver j s
  | .resilverComplete j => Sys2Proof.Machine.execResilverComplete j s
  | .labelRewrite j => Sys2Proof.Machine.execLabelRewrite j s
  | .relseq q v => Sys2Proof.Machine.execRelseq q v s
  | .go q v => Sys2Proof.Machine.execGo q v s
  | .readOutComplete => Sys2Proof.Machine.execReadOutComplete s
  | .linkTraining l work => Sys2Proof.Machine.execLinkTraining l work s
  | .admission l answered chain signs node size key => Sys2Proof.Machine.execAdmission l answered chain signs node size key s
  | .rekey l => Sys2Proof.Machine.execRekey l s
  | .heartbeat l => Sys2Proof.Machine.execHeartbeat l s
  | .linkSilent l => Sys2Proof.Machine.execLinkSilent l s
  | .flitReceive l fate lane => Sys2Proof.Machine.execFlitReceive l fate lane s
  | .packetForward l p => Sys2Proof.Machine.execPacketForward l p s
  | .loadPacket l p => Sys2Proof.Machine.execLoadPacket l p s
  | .storePacket l p => Sys2Proof.Machine.execStorePacket l p s
  | .passPacket l p => Sys2Proof.Machine.execPassPacket l p s
  | .lookup l p => Sys2Proof.Machine.execLookup l p s
  | .reg l p => Sys2Proof.Machine.execReg l p s
  | .offer l p => Sys2Proof.Machine.execOffer l p s
  | .physrd l p => Sys2Proof.Machine.execPhysrd l p s
  | .physwr l p => Sys2Proof.Machine.execPhyswr l p s
  | .dataPacket l p => Sys2Proof.Machine.execDataPacket l p s
  | .ackPacket l p => Sys2Proof.Machine.execAckPacket l p s
  | .nack l p => Sys2Proof.Machine.execNack l p s
  | .passreply l p => Sys2Proof.Machine.execPassreply l p s
  | .lookreply l p => Sys2Proof.Machine.execLookreply l p s
  | .mdata l p => Sys2Proof.Machine.execMdata l p s
  | .frame l p => Sys2Proof.Machine.execFrame l p s
  | .fresp l p => Sys2Proof.Machine.execFresp l p s
  | .lost l p => Sys2Proof.Machine.execLost l p s
  | .join l p => Sys2Proof.Machine.execJoin l p s
  | .echo l p => Sys2Proof.Machine.execEcho l p s
  | .echoTimeout n => Sys2Proof.Machine.execEchoTimeout n s
  | .remoteTimeout id => Sys2Proof.Machine.execRemoteTimeout id s
  | .plotCacheExpiry plot => Sys2Proof.Machine.execPlotCacheExpiry plot s
  | .forwardingExpiry plot => Sys2Proof.Machine.execForwardingExpiry plot s
  | .claim q v => Sys2Proof.Machine.execClaim q v s
  | .plotRelease q v => Sys2Proof.Machine.execPlotRelease q v s
  | .plotMigration => Sys2Proof.Machine.execPlotMigration s
  | .remotePassServiceStart => Sys2Proof.Machine.execRemotePassServiceStart s
  | .crossServiceStart q => Sys2Proof.Machine.execCrossServiceStart q s
  | .crossTimeout n k => Sys2Proof.Machine.execCrossTimeout n k s
  | .eventReport e => Sys2Proof.Machine.execEventReport e s
  | .depHoldEnd r => Sys2Proof.Machine.execDepHoldEnd r s
  | .retireNow q v => Sys2Proof.Machine.execRetireNow q v s
  | .readmit q v => Sys2Proof.Machine.execReadmit q v s
  | .recordFree q r v => Sys2Proof.Machine.execRecordFree q r v s
  | .recordAcknowledge q r v => Sys2Proof.Machine.execRecordAcknowledge q r v s
  | .ageMeasurement d slack => Sys2Proof.Machine.execAgeMeasurement d slack s
  | .monitorSample m ix x => Sys2Proof.Machine.execMonitorSample m ix x s
  | .snap q v => Sys2Proof.Machine.execSnap q v s
  | .clear q v => Sys2Proof.Machine.execClear q v s
  | .selftest failed => Sys2Proof.Machine.execSelftest failed s
  | .configure => Sys2Proof.Machine.execConfigure s
  | .check q v image => Sys2Proof.Machine.execCheck q v image s
  | .checkComplete => Sys2Proof.Machine.execCheckComplete s
  | .rctlGo q v => Sys2Proof.Machine.execRctlGo q v s
  | .sliceQuiesced => Sys2Proof.Machine.execSliceQuiesced s
  | .quiesceTimeout => Sys2Proof.Machine.execQuiesceTimeout s
  | .fuseRoot hash => Sys2Proof.Machine.execFuseRoot hash s
  | .warmReset => Sys2Proof.Machine.execWarmReset s
  | .readReg pa => Sys2Proof.Machine.execReadReg pa s
  | .getId => Sys2Proof.Machine.execGetId s
  | .lock q v => Sys2Proof.Machine.execLock q v s
  | .svncommit q v => Sys2Proof.Machine.execSvncommit q v s
  | .tamperCause cause k => Sys2Proof.Machine.execTamperCause cause k s
  | .lockdownClear => Sys2Proof.Machine.execLockdownClear s
  | .ldcountProgram => Sys2Proof.Machine.execLdcountProgram s
  | .domainSwitchOn q d v => Sys2Proof.Machine.execDomainSwitchOn q d v s
  | .domainSwitchOff q d v => Sys2Proof.Machine.execDomainSwitchOff q d v s
  | .switchOnComplete d => Sys2Proof.Machine.execSwitchOnComplete d s
  | .dvfsRequest q j v => Sys2Proof.Machine.execDvfsRequest q j v s
  | .powerControl w => Sys2Proof.Machine.execPowerControl w s
  | .thermalLimit d t stay => Sys2Proof.Machine.execThermalLimit d t stay s
  | .pllUnlock n => Sys2Proof.Machine.execPllUnlock n s
  | .warmDeviceReset q v => Sys2Proof.Machine.execWarmDeviceReset q v s
  | .domainReset q v => Sys2Proof.Machine.execDomainReset q v s
  | .pairReset q v => Sys2Proof.Machine.execPairReset q v s
  | .coreReset q v => Sys2Proof.Machine.execCoreReset q v s
  | .linkBlockReset q v => Sys2Proof.Machine.execLinkBlockReset q v s
  | .slotBlockReset q v => Sys2Proof.Machine.execSlotBlockReset q v s
  | .keyUnitReset q v => Sys2Proof.Machine.execKeyUnitReset q v s
  | .monitorReset q v => Sys2Proof.Machine.execMonitorReset q v s
  | .laneReset q v => Sys2Proof.Machine.execLaneReset q v s
  | .porN low => Sys2Proof.Machine.execPorN low s
  | .wrstN => Sys2Proof.Machine.execWrstN s
  | .pePerstN low => Sys2Proof.Machine.execPePerstN low s
  | .thermtrip d => Sys2Proof.Machine.execThermtrip d s
  | .avsAckTimeout => Sys2Proof.Machine.execAvsAckTimeout s
  | .erase q v => Sys2Proof.Machine.execErase q v s
  | .program q v => Sys2Proof.Machine.execProgram q v s
  | .flashRead q v => Sys2Proof.Machine.execFlashRead q v s
  | .flashOperationDone ok => Sys2Proof.Machine.execFlashOperationDone ok s
  | .txgo q v => Sys2Proof.Machine.execTxgo q v s
  | .mctpTransmissionDone => Sys2Proof.Machine.execMctpTransmissionDone s
  | .mctpMessageReceived bs => Sys2Proof.Machine.execMctpMessageReceived bs s
  | .rxfull q v => Sys2Proof.Machine.execRxfull q v s
  | .uartTransmit q v => Sys2Proof.Machine.execUartTransmit q v s
  | .uartReceive b => Sys2Proof.Machine.execUartReceive b s
  | .uartRead q => Sys2Proof.Machine.execUartRead q s
  | .rng w flaw => Sys2Proof.Machine.execRng w flaw s
  | .hash w flaw => Sys2Proof.Machine.execHash w flaw s
  | .pkverify w flaw => Sys2Proof.Machine.execPkverify w flaw s
  | .enc w flaw => Sys2Proof.Machine.execEnc w flaw s
  | .dec w flaw => Sys2Proof.Machine.execDec w flaw s
  | .macgen w flaw => Sys2Proof.Machine.execMacgen w flaw s
  | .macver w flaw => Sys2Proof.Machine.execMacver w flaw s
  | .pinxlate w flaw => Sys2Proof.Machine.execPinxlate w flaw s
  | .arqc w flaw => Sys2Proof.Machine.execArqc w flaw s
  | .cvv w flaw => Sys2Proof.Machine.execCvv w flaw s
  | .sign w flaw => Sys2Proof.Machine.execSign w flaw s
  | .verify w flaw => Sys2Proof.Machine.execVerify w flaw s
  | .rsadec w flaw => Sys2Proof.Machine.execRsadec w flaw s
  | .kinfo w flaw => Sys2Proof.Machine.execKinfo w flaw s
  | .kgen w flaw => Sys2Proof.Machine.execKgen w flaw s
  | .kimport w flaw => Sys2Proof.Machine.execKimport w flaw s
  | .kexport w flaw => Sys2Proof.Machine.execKexport w flaw s
  | .kdelete w flaw => Sys2Proof.Machine.execKdelete w flaw s
  | .kagree w flaw => Sys2Proof.Machine.execKagree w flaw s
  | .reseed w flaw => Sys2Proof.Machine.execReseed w flaw s
  | .drbgReseed w => Sys2Proof.Machine.execDrbgReseed w s
  | .entropyHealthFail ins => Sys2Proof.Machine.execEntropyHealthFail ins s
  | .registerWrite q pa v => Sys2Proof.Machine.execRegisterWrite q pa v s
  | .pllLockRegained n => Sys2Proof.Machine.execPllLockRegained n s
  | .referenceClockLost => Sys2Proof.Machine.execReferenceClockLost s
  | .referenceClockRestored => Sys2Proof.Machine.execReferenceClockRestored s
  | .avsAcknowledgement => Sys2Proof.Machine.execAvsAcknowledgement s
  | .wrstNRise => Sys2Proof.Machine.execWrstNRise s
  | .uartTransmitterEmpty => Sys2Proof.Machine.execUartTransmitterEmpty s
  | .flashOperationTimeout => Sys2Proof.Machine.execFlashOperationTimeout s
  | .noEligiblePair => Sys2Proof.Machine.execNoEligiblePair s
  | .oldKeyExpiry l => Sys2Proof.Machine.execOldKeyExpiry l s

end Sys2Proof.Machine
end

