-- ==== Sys2Proof/Machine/Step.lean ====
section
/-! DEFINITION. One step of the device: the command at the front of the queue is performed; on an empty queue the
management clock ticks. -/

namespace Sys2Proof.Machine

open Sys2Proof

/-- One step. The command at the front of the queue acts on the state with the queue's rest. On an empty queue nothing is
commanded, and the free-running time INTC.NOW passes by one period of the 100 MHz management clock (R270), DESIGN CHOICE:
nothing else happens at the tick; what is due at a time is a command of its own. -/
def step (s : State) : Host.Outcome State Fault Refusal :=
  match s.pending with
  | [] => .next { s with now := s.now + 10 }
  | c :: rest => exec c { s with pending := rest }

/-- s with the command that a table word spells put at the front of its queue. No row of the table gives bits, so no word
spells a command, and s is unchanged. -/
def State.withFetchWord (s : State) (_nbits _w : Nat) : State := s

end Sys2Proof.Machine
end

