-- ==== Sys2Proof/Safety.lean ====
section
/-! DEFINITION. What a safe state is, and the words in which the statements say how an instruction of a core reaches its
execution and how it leaves the machine. -/

namespace Sys2Proof.Machine

open Sys2Proof

/-- Every memory of the state is in its canonical form. -/
def State.memWf (s : State) : Bool := s.mem.wf && s.tcms.all (fun e => e.2.wf)

/-! ## Locations -/

/-- A location under one name: bank 2 is D, and any other number names bank E. -/
def Loc.canon : Loc → Loc
  | .e b r => .e (if b = 2 then 2 else 1) r
  | .bank b r => .bank (if b = 2 then 2 else 1) r
  | l => l

/-- What a location holds in context k of core n: general, window and bank registers, capability, vector and predicate registers, the
state registers of the context and of the core. -/
def State.held (s : State) (n k : Nat) : Loc → Val
  | .c r => .c ((s.ctx n k).cap r)
  | .v r => .v ((s.ctx n k).vreg r)
  | .p r => .b ((s.ctx n k).pred r)
  | .sr r => .w ((s.ctx n k).srv r)
  | .csr r => .c ((s.ctx n k).csrv r)
  | .core r => .w (if r = 99 then word (s.core n).inUse else (s.core n).srv r)
  | .bank b r => .w (((s.core n).bank b).r r)
  | l => .w (s.gloc n k l)

/-! ## How an instruction reaches its execution -/

/-- The words of E are fetched in s, which leaves s1 (R141, R145, R201, R276): the context of E can issue, it holds no cause that is to be
entered first, and the words at its program counter, whose fetch passes its checks, are those of E. -/
structure Fetches (s : State) (E : Env) (s1 : State) : Prop where
  issues  : s.canIssue E.n E.k = true
  nothing : (s.ctx E.n E.k).due = none
  words   : fetch (s.beginIssue E.n) E = (.word E.pfx E.ins, s1)

/-- An instruction with header h and definition d issues in s and is decoded: its fields are in range, its words are fetched and leave s1,
no breakpoint stands at them when its guard holds, and its encoding is not reserved. E is what the issue knows of the instruction. -/
structure Decodes (s : State) (h : Hdr) (d : InsDef) (E : Env) (s1 : State) : Prop extends Fetches s E s1 where
  wf      : h.wf = true
  env     : E = mkEnv s h d false
  noBreak : guardHolds s1 E h = true → s1.breakAt E.n 0 E.pc E.len = none
  legal   : d.reserved = false ∧ badHeader h d = false

/-- A decoded instruction reaches its execution: its guard holds (R142), it has the vector state and the level it needs (R42, R227), and
its routine's control store is sound. -/
structure Reaches (s : State) (h : Hdr) (d : InsDef) (E : Env) (s1 : State) : Prop extends Decodes s h d E s1 where
  guard   : guardHolds s1 E h = true
  vector  : d.vector = true → fld (seeSr s1 E nVSTATE) 0 0 = 1
  level   : d.priv = true → seeSup s1 E = true ∧ (s1.pcc E.n E.k).has pSYS = true
  store   : s1.csTrap E.n (d.routineAt E s1) = none

/-- The core instruction i issues in s and is decoded. -/
def Decoded (s : State) (i : Instr) (E : Env) (s1 : State) : Prop := ∃ h d, insOf i = some (h, d) ∧ Decodes s h d E s1

/-- The core instruction i issues in s and reaches its execution, with s1 as it finds the machine. -/
def Issued (s : State) (i : Instr) (E : Env) (s1 : State) : Prop := ∃ h d, insOf i = some (h, d) ∧ Reaches s h d E s1

/-- The routine that an element of a REP runs: its instruction's own, or that of REP (R308). -/
def InsDef.element (d : InsDef) : InsDef := { d with routine := some (d.routine.getD rtREP) }

/-- One element of the core instruction of definition d under a REP prefix reaches its execution (R163-R166): it is decoded with the
prefix, which it accepts, RPT.COUNT is not zero, its guard holds, or was read before the first element, and its vector state, level and
control store are as for any instruction. -/
structure RepReaches (s : State) (h : Hdr) (d : InsDef) (E : Env) (s1 : State) : Prop extends Fetches s E s1 where
  wf      : h.wf = true ∧ h.wide = none
  env     : E = mkEnv s h d true
  noBreak : s1.breakAt E.n 0 E.pc E.len = none
  legal   : d.reserved = false ∧ badHeader h d = false ∧ d.repOk = true
  count   : fld (seeSr s1 E nRPT) 31 0 ≠ 0
  guard   : (s1.ctx E.n E.k).inRep = true ∨ guardHolds s1 E h = true
  vector  : d.vector = true → fld (seeSr s1 E nVSTATE) 0 0 = 1
  level   : d.priv = true → seeSup s1 E = true ∧ (s1.pcc E.n E.k).has pSYS = true
  store   : s1.csTrap E.n (d.element.routineAt E s1) = none

/-- t holds every register, every byte and tag of memory, and every write on its way to memory as s does. -/
structure Keeps (s t : State) : Prop where
  held    : ∀ n k l, t.held n k l = s.held n k l
  mem     : t.mem = s.mem
  tcms    : t.tcms = s.tcms
  cbuf    : t.cbuf = s.cbuf
  stores  : ∀ n, (t.core n).sb = (s.core n).sb
  pending : t.pending = s.pending

/-- The instruction of definition d runs as a micro-routine of a P-core (R308). -/
def InsDef.micro (d : InsDef) (E : Env) (s1 : State) : Bool := (d.routineAt E s1).isSome && decide (E.n < 48)

/-- What the instruction finds when it executes: its pair compares the operands it names (R291), and a micro-routine of a P-core has waited
for the store buffer to drain (R285). -/
def routineState (d : InsDef) (E : Env) (s1 : State) : State :=
  if d.micro E s1 then (s1.formIns E (d.compared E s1)).drain E.n else s1.formIns E (d.compared E s1)

/-- A micro-routine that has completed has the acknowledgements of its far writes (R288). -/
def afterRoutine (d : InsDef) (E : Env) (s1 u : State) : State := if d.micro E s1 then u.sendFar E.n else u

/-- What an element of a REP finds when it executes: REP runs as a micro-routine (R285, R308). -/
def elementState (d : InsDef) (E : Env) (s1 : State) : State := routineState d.element E s1

/-- What an element of a REP leaves when its own execution leaves u. -/
def afterElement (d : InsDef) (E : Env) (s1 u : State) : State := afterRoutine d.element E s1 u

/-- No hardware loop ends at the instruction: every level has a count of zero or ends elsewhere (R160). -/
def NoLoopEnd (s : State) (E : Env) : Prop :=
  ∀ i, i < 4 → fld (seeSr s E (nLCOUNT + i)) 31 0 = 0 ∨ fld (seeSr s E (nLEND + i)) 63 2 * 4 ≠ E.endAddr

/-- The context does not single-step: SS is clear, or its core is of the sealed world (R119). -/
def NoStep (s : State) (E : Env) : Prop := stSS (s.ctx E.n E.k).status = false ∨ s.coreWorld E.n = true

/-- Nothing but the instruction itself says where the program goes on. -/
def Straight (s : State) (E : Env) : Prop := NoLoopEnd s E ∧ NoStep s E

/-! ## How an instruction leaves the machine -/

/-- Everything but the cores and the count of the free values drawn: memory with its tags, the registers of the device, every queue and
buffer. -/
def State.outside (s : State) : State := { s with cores := [], free := 0 }

/-- t is s after the instruction of E has written exactly the values ws and left the context at address pc. Every other register of the
context, its shadow banks and its core is as it was, but for the program-counter capability; so are the other context of the core and every
other core; of the core, beside that, only what its fetch holds may change: the prefetch queue, the cycles counted and the branch targets
learned. Everything outside the cores is as it was: every byte and tag of memory, every register of the device, every queue and buffer. div
tells whether the divider is left busy. -/
structure Ends (s t : State) (E : Env) (ws : List (Loc × Val)) (pc : Nat) (div : Bool) : Prop where
  wrote  : ∀ w, w ∈ ws → t.held E.n E.k w.1 = w.2
  kept   : ∀ l : Loc, l.canon ≠ .c 15 → (∀ w, w ∈ ws → w.1.canon ≠ l.canon) → t.held E.n E.k l = s.held E.n E.k l
  pcAt   : t.pc E.n E.k = pc
  ctx    : t.ctx E.n E.k = { s.ctx E.n E.k with
             g := (t.ctx E.n E.k).g, ring := (t.ctx E.n E.k).ring, caps := (t.ctx E.n E.k).caps, vec := (t.ctx E.n E.k).vec
             preds := (t.ctx E.n E.k).preds, sr := (t.ctx E.n E.k).sr, csr := (t.ctx E.n E.k).csr
             flights := (t.ctx E.n E.k).flights, inRep := false, progress := none }
  other  : t.ctx E.n (other E.k) = s.ctx E.n (other E.k)
  core   : t.core E.n = { s.core E.n with
             c0 := (t.core E.n).c0, c1 := (t.core E.n).c1, bankE := (t.core E.n).bankE, bankD := (t.core E.n).bankD
             sr := (t.core E.n).sr, prefetch := (t.core E.n).prefetch, kept := (t.core E.n).kept, pace := (t.core E.n).pace
             btb := (t.core E.n).btb, divBusy := div }
  cores  : ∀ m, m ≠ E.n → t.core m = s.core m
  rest   : t.outside = s.outside

/-- The address of the next instruction in sequence (R141). -/
def nextPc (E : Env) : Nat := (E.pc + E.len) % 2 ^ 64

/-- t is s after the instruction has written ws and gone on to the next one. -/
def Goes (s t : State) (E : Env) (ws : List (Loc × Val)) : Prop := Ends s t E ws (nextPc E) (s.core E.n).divBusy

/-- The cause t is raised at the instruction in s and is entered: EXL is clear in both contexts of the core, GM is 1, and the routine of
exception entry is sound (R124, R244, R256, R322). -/
structure Enters (s : State) (E : Env) : Prop where
  exl   : stEXL (s.seenStatus E.n E.k) = false
  other : stEXL (s.ctx E.n (other E.k)).status = false
  gm    : stGM (s.seenStatus E.n E.k) = true
  entry : s.csTrap E.n (some rtENTRY) = none

end Sys2Proof.Machine
end

