-- ==== Sys2Proof/Certificates/Slice0/Obligations.lean ====
section
/-! DEFINITION. The statements for the provers, and the tables of instructions they range over. A statement of an instruction says what
exec answers for every operand, and through Ends what the instruction writes and that it leaves everything else as it was. -/

open Sys2Proof Sys2Proof.Machine

namespace Sys2Proof.Claims

/-! ## Integer register instructions (R176-R180) -/

/-- Instructions that write a general register from two, with their results (R177, R180). A shift amount is bits 5:0 of b. -/
def reg2 : List ((Hdr → Nat → Nat → Nat → Instr) × (Word → Word → Word)) :=
  [(.add, fun a b => a + b), (.sub, fun a b => a - b), (.and, fun a b => a &&& b), (.or, fun a b => a ||| b),
   (.xor, fun a b => a ^^^ b), (.andn, fun a b => a &&& ~~~b), (.sll, fun a b => a <<< (b.toNat % 64)),
   (.srl, fun a b => a >>> (b.toNat % 64)), (.sra, fun a b => a.sshiftRight (b.toNat % 64)),
   (.ror, fun a b => a.rotateRight (b.toNat % 64)), (.min, fun a b => if b.slt a then b else a),
   (.max, fun a b => if a.slt b then b else a), (.minu, fun a b => if b < a then b else a),
   (.maxu, fun a b => if a < b then b else a), (.mul, fun a b => a * b),
   (.mulh, fun a b => BitVec.ofInt 64 (a.toInt * b.toInt / 2 ^ 64)), (.mulhu, fun a b => BitVec.ofNat 64 (a.toNat * b.toNat / 2 ^ 64)),
   (.mulhsu, fun a b => BitVec.ofInt 64 (a.toInt * b.toNat / 2 ^ 64))]

/-- Instructions that write a general register from one, with their results (R177). -/
def reg1 : List ((Hdr → Nat → Nat → Instr) × (Word → Word)) :=
  [(.clz, fun a => BitVec.ofNat 64 ((List.range 64).takeWhile (fun i => !a.getLsbD (63 - i))).length),
   (.ctz, fun a => BitVec.ofNat 64 ((List.range 64).takeWhile (fun i => !a.getLsbD i)).length),
   (.popc, fun a => BitVec.ofNat 64 ((List.range 64).countP (fun i => a.getLsbD i))),
   (.bswap, fun a => a.extractLsb' 0 8 ++ a.extractLsb' 8 8 ++ a.extractLsb' 16 8 ++ a.extractLsb' 24 8 ++ a.extractLsb' 32 8
     ++ a.extractLsb' 40 8 ++ a.extractLsb' 48 8 ++ a.extractLsb' 56 8),
   (fun h rd ra => .sext h rd ra 0, fun a => (a.setWidth 8).signExtend 64),
   (fun h rd ra => .sext h rd ra 1, fun a => (a.setWidth 16).signExtend 64),
   (fun h rd ra => .sext h rd ra 2, fun a => (a.setWidth 32).signExtend 64),
   (fun h rd ra => .zext h rd ra 0, fun a => (a.setWidth 8).setWidth 64),
   (fun h rd ra => .zext h rd ra 1, fun a => (a.setWidth 16).setWidth 64),
   (fun h rd ra => .zext h rd ra 2, fun a => (a.setWidth 32).setWidth 64)]

/-- Shifts by an amount below 64 in the instruction (R177). -/
def shiftImm : List ((Hdr → Nat → Nat → Nat → Instr) × (Word → Nat → Word)) :=
  [(.slli, fun a n => a <<< n), (.srli, fun a n => a >>> n), (.srai, fun a n => a.sshiftRight n),
   (.rori, fun a n => a.rotateRight n)]

/-- The sign-extended immediate of form I, of 10 bits or of 30 under WIDE (R147). -/
def immI (h : Hdr) (imm : Nat) : Word :=
  match h.wide with
  | none => (BitVec.ofNat 10 imm).signExtend 64
  | some p => (BitVec.ofNat 20 p ++ BitVec.ofNat 10 imm).signExtend 64

/-- The sign-extended immediate of form K, of 16 bits or of 36 under WIDE (R147). -/
def immK (h : Hdr) (imm : Nat) : Word :=
  match h.wide with
  | none => (BitVec.ofNat 16 imm).signExtend 64
  | some p => (BitVec.ofNat 20 p ++ BitVec.ofNat 16 imm).signExtend 64

/-- Instructions of a register and an immediate, with their results (R178). -/
def regImm : List ((Hdr → Nat → Nat → Nat → Instr) × (Word → Word → Word)) :=
  [(.addi, fun a i => a + i), (.andi, fun a i => a &&& i), (.ori, fun a i => a ||| i), (.xori, fun a i => a ^^^ i)]

/-- Compares of two registers, with their conditions (R179). -/
def cmp2 : List ((Hdr → Nat → Nat → Nat → Instr) × (Word → Word → Bool)) :=
  [(.ceq, fun a b => a == b), (.cne, fun a b => a != b), (.clt, fun a b => a.slt b), (.cge, fun a b => !a.slt b),
   (.cltu, fun a b => a.ult b), (.cgeu, fun a b => !a.ult b), (.ctst, fun a b => a &&& b != 0)]

/-- Compares with an immediate, with their conditions (R179). -/
def cmpImm : List ((Hdr → Nat → Nat → Nat → Instr) × (Word → Word → Bool)) :=
  [(.ceqi, fun a b => a == b), (.cnei, fun a b => a != b), (.clti, fun a b => a.slt b), (.cgei, fun a b => !a.slt b)]

/-- Predicate logic (R179). -/
def predLogic : List ((Hdr → Nat → Nat → Nat → Instr) × (Bool → Bool → Bool)) :=
  [(.pand, fun a b => a && b), (.por, fun a b => a || b), (.pxor, fun a b => a != b), (.pandn, fun a b => a && !b),
   (fun h pd pa _ => .pnot h pd pa, fun a _ => !a)]

/-- What a write of predicate p leaves: p0 discards it (R109). -/
def predWrite (p : Nat) (v : Bool) : List (Loc × Val) := if p = 0 then [] else [(.p p, .b v)]

/-- Divides, with their results (R180). -/
def divide : List ((Hdr → Nat → Nat → Nat → Instr) × (Word → Word → Word)) :=
  [(.div, fun a b => if b = 0 then BitVec.allOnes 64 else a.sdiv b), (.divu, fun a b => if b = 0 then BitVec.allOnes 64 else a / b),
   (.rem, fun a b => if b = 0 then a else a.srem b), (.remu, fun a b => if b = 0 then a else a % b)]

/-! ## Float register instructions (R182, R183) -/

/-- The operand of a format: binary32 is read from bits 31:0. -/
def fin (single : Bool) (a : Word) : Nat := if single then (a.setWidth 32).toNat else a.toNat

/-- Float instructions of two operands, with their results as patterns of the format. -/
def float2 : List ((Hdr → Bool → Nat → Nat → Nat → Instr) × (Fmt → Nat → Nat → Nat)) :=
  [(.fadd, Fmt.add), (.fsub, Fmt.sub), (.fmul, Fmt.mul), (.fmin, Fmt.min), (.fmax, Fmt.max)]

/-- Float instructions of one operand, and the conversions, with their results. -/
def float1 : List ((Hdr → Bool → Nat → Nat → Instr) × (Bool → Word → Word)) :=
  [(.fneg, fun f a => word ((fmtOf f).neg (fin f a))), (.fabs, fun f a => word ((fmtOf f).abs (fin f a))),
   (.fclass, fun f a => word ((fmtOf f).classify (fin f a))), (.fcvtif, fun f a => word ((fmtOf f).ofInt a.toInt)),
   (.fcvtuf, fun f a => word ((fmtOf f).ofInt a.toNat)),
   (.fcvtfi, fun f a => BitVec.ofInt 64 ((fmtOf f).toInt (fin f a) false (-2 ^ 63) (2 ^ 63 - 1))),
   (.fcvtfir, fun f a => BitVec.ofInt 64 ((fmtOf f).toInt (fin f a) true (-2 ^ 63) (2 ^ 63 - 1))),
   (.fcvtfu, fun f a => BitVec.ofInt 64 ((fmtOf f).toInt (fin f a) false 0 (2 ^ 64 - 1))),
   (.fcvtff, fun f a => word ((fmtOf f).pack ((fmtOf (!f)).unpack (fin (!f) a))))]

/-- Float compares. -/
def floatCmp : List ((Hdr → Bool → Nat → Nat → Nat → Instr) × (Fmt → Nat → Nat → Bool)) :=
  [(.fceq, Fmt.eq), (.fclt, Fmt.lt), (.fcle, Fmt.le), (.fcun, Fmt.un)]

/-! ## Loads and stores (R152-R156, R184-R193) -/

/-- Data loads: their size in bytes and what of the value loaded goes to the register (R185). -/
def loads : List ((Hdr → Nat → MemOp → Instr) × Nat × (Nat → Word)) :=
  [(.ldb, 1, fun v => (BitVec.ofNat 8 v).signExtend 64), (.ldh, 2, fun v => (BitVec.ofNat 16 v).signExtend 64),
   (.ldw, 4, fun v => (BitVec.ofNat 32 v).signExtend 64), (.ld, 8, fun v => BitVec.ofNat 64 v),
   (.ldbu, 1, fun v => BitVec.ofNat 64 v), (.ldhu, 2, fun v => BitVec.ofNat 64 v), (.ldwu, 4, fun v => BitVec.ofNat 64 v),
   (.ldf32, 4, fun v => BitVec.ofNat 64 v), (.ldf64, 8, fun v => BitVec.ofNat 64 v)]

/-- Data stores: their size in bytes and the tag they leave (R185). -/
def stores : List ((Hdr → Nat → MemOp → Instr) × Nat × Nat) :=
  [(.stb, 1, tINT), (.sth, 2, tINT), (.stw, 4, tINT), (.st, 8, tINT), (.stf32, 4, tFLT), (.stf64, 8, tFLT)]

/-- The access of a data load through the operand o of m (R153, R186). -/
def loadAcc (m : MemOp) (o : Operand) (size : Nat) : Acc := ⟨o.cap, m.cb, o.ea, size, kLOAD, pm pLOAD, 0, 0, false, true, true⟩

/-- The access of a data store through the operand o of m (R153, R186). -/
def storeAcc (m : MemOp) (o : Operand) (size : Nat) : Acc := ⟨o.cap, m.cb, o.ea, size, kSTORE, pm pSTORE, 0, 0, false, true, true⟩

/-- The access of a capability load, which needs LOAD and LOADCAP (R186). -/
def loadCapAcc (m : MemOp) (o : Operand) : Acc := ⟨o.cap, m.cb, o.ea, 16, kLOAD, pm pLOAD + pm pLOADCAP, 0, 16, false, false, true⟩

/-- The access of a store of capability c, which needs STORE, with STORECAP for a tagged one, and the rules R45 and R46 (R186). -/
def storeCapAcc (m : MemOp) (o : Operand) (c : Cap) : Acc :=
  ⟨o.cap, m.cb, o.ea, 16, kSTORE, storePerms c, storedRules o.cap c, 16, false, false, true⟩

/-- What an instruction of form M writes to cb once its access is complete (R153, R155). -/
def updated (m : MemOp) (o : Operand) : List (Loc × Val) :=
  match o.wb with
  | none => []
  | some a => [(.c m.cb, .c (o.cap.setCursor a))]

/-- n bytes from address a, the lowest address in the lowest byte (R184). -/
def littleEndian (m : Mem) (a n : Nat) : Nat := (List.range n).foldr (fun i v => (m.byte (a + i)).toNat * 256 ^ i + v) 0

/-- Byte b of memory m after a data store of the n low bytes of v at address a (R59, R60, R184): a byte stored to holds its byte of v;
another byte of a word stored to is kept when the word was tagged INT or FLT and is zero otherwise; the other word of a capability
whose one word was stored to is zero; every other byte is kept. -/
def storedByte (m : Mem) (a n v b : Nat) : Byte :=
  let word := fun (x : Nat) => x = a / 8 ∨ x = (a + n - 1) / 8
  if a ≤ b ∧ b < a + n then BitVec.ofNat 8 (v / 256 ^ (b - a))
  else if word (b / 8) then (if m.tag b = tINT ∨ m.tag b = tFLT then m.byte b else 0)
  else if (word (b / 16 * 2) ∨ word (b / 16 * 2 + 1)) ∧ m.tag (b / 16 * 16) = tCAPLO ∧ m.tag (b / 16 * 16 + 8) = tCAPHI then 0
  else m.byte b

/-- No write of context k to target t is held in the commit buffer, and the context has no transaction under way. -/
def Plain (s : State) (E : Env) (t : Tgt) : Prop := (s.ctx E.n E.k).tx.state = .none ∧ s.cbOps E.n E.k t = []

/-! ## Tag instructions and REP (R163-R168, R197, R198) -/

/-- CLEARTAG and CLEARTAGP: the routine, the definition and the tag left (R63, R197). -/
def clears : List ((Hdr → Nat → Nat → Instr) × (Nat → Nat → InsDef) × Nat × Nat) :=
  [(.cleartag, insCleartag, 0x01, tUNINIT), (.cleartagp, insCleartagp, 0x02, tPOISON)]

/-- The access of CLEARTAG and CLEARTAGP to count bytes at the cursor of c: STORE, and SYS too for the POISON fill (R197). -/
def clearAcc (c : Cap) (cb count fill : Nat) : Acc :=
  ⟨c, cb, c.cur, count, kSTORE, pm pSTORE + (if fill = tPOISON then pm pSYS else 0), 0, 8, false, false, false⟩

/-! ## Control transfers, levels and state registers (R111-R120, R157-R162, R199-R203) -/

/-- The offset of form B in bytes (R157). -/
def branchBytes (off : Nat) : Word := (BitVec.ofNat 22 off).signExtend 64 <<< 2

/-- A capability that a transfer accepts in a context of the open world, or in one of the sealed world: valid, unsealed, with EXEC, of a
world the context may use, its cursor a multiple of 4 (R200). -/
structure Target (s : State) (E : Env) (c : Cap) : Prop where
  valid : c.valid = true
  plain : c.isSealed = false
  exec  : c.has pEXEC = true
  world : c.world = true → (s.ctx E.n E.k).world = true
  align : c.cur % 4 = 0

/-- R160 on the counts, starts and ends of the levels below n: the next address after an instruction that ends at x, and the counts. -/
def loopNext (x : Nat) (start last : Nat → Nat) (count : Nat → Nat) : Nat → Nat × (Nat → Nat)
  | 0 => (x + 4, count)
  | n + 1 =>
    if count n ≠ 0 ∧ last n = x then
      if 1 < count n then (start n, fun i => if i = n then count n - 1 else count i)
      else loopNext x start last (fun i => if i = n then 0 else count i) n
    else loopNext x start last count n

/-- The 64-bit state registers of a context that are not of a bank and not core-wide (R118), with the bits MTS writes of each. -/
def contextSr : List (Nat × Word) :=
  [(nCTXID, 0xFFFF), (nRPT, 0xFFFFFFFF), (nVSTATE, 0x7F03), (nWBASE, 0x1F), (nWDEPTH, 0x1F), (nMPROG, 0xFF01FFFFFFFFFFFF),
   (nPKMLO, BitVec.allOnes 64), (nPKMHI, BitVec.allOnes 64),
   (nLSTART, 0xFFFFFFFFFFFFFFFC), (nLSTART + 1, 0xFFFFFFFFFFFFFFFC), (nLSTART + 2, 0xFFFFFFFFFFFFFFFC),
   (nLSTART + 3, 0xFFFFFFFFFFFFFFFC), (nLEND, 0xFFFFFFFFFFFFFFFC), (nLEND + 1, 0xFFFFFFFFFFFFFFFC),
   (nLEND + 2, 0xFFFFFFFFFFFFFFFC), (nLEND + 3, 0xFFFFFFFFFFFFFFFC), (nLCOUNT, 0xFFFFFFFF), (nLCOUNT + 1, 0xFFFFFFFF),
   (nLCOUNT + 2, 0xFFFFFFFF), (nLCOUNT + 3, 0xFFFFFFFF)]

/-- The core-wide state registers (R118), with the bits MTS writes of each. -/
def coreSr : List (Nat × Word) :=
  [(nMASKLIMIT, 0xFFFFFF), (nIPTBASE, 0xFFFFFE00000), (nIPTSIZE, 0x7FFFFF), (nIPTHASH, 0x7FFFFFFFF)]

/-- The bank registers (R118, R245, R260), with the bits MTS writes of each. -/
def bankSr : List (Nat × Word) :=
  [(nECAUSE, 0x80FFFFFF), (nEINFO, BitVec.allOnes 64), (nEADDR, BitVec.allOnes 64), (nEELEM, 0xF), (nEPC, 0xFFFFFFFFFFFFFFFC),
   (nESTATUS, 0x19), (nECEIL, 0)]

/-- The registers that MTS writes at user level too: RPT, the loop registers, and ECEIL, whose write is ignored (R116). -/
def userWrite : List Nat :=
  [nRPT, nLSTART, nLSTART + 1, nLSTART + 2, nLSTART + 3, nLEND, nLEND + 1, nLEND + 2, nLEND + 3, nLCOUNT, nLCOUNT + 1, nLCOUNT + 2,
   nLCOUNT + 3, nECEIL]

/-- Supervisor level with SYS on the program-counter capability (R42). -/
def Privileged (s : State) (E : Env) : Prop := seeSup s E = true ∧ (s.pcc E.n E.k).has pSYS = true

/-- A state register with the bits of m taken from v (R115, R116). -/
def merged (m old v : Word) : Word := (old &&& ~~~m) ||| (v &&& m)

/-! ## Capability derivation (R37-R40, R209-R211) -/

/-- Derivations of a valid, unsealed source c with operand x. -/
def derive : List ((Hdr → Nat → Nat → Nat → Instr) × (Cap → Word → Cap)) :=
  [(.cstep, fun c x => c.setCursor (c.cursor + x).toNat), (.caim, fun c x => c.setCursor x.toNat),
   (.cstrip, fun c x => { c with hi := c.hi &&& (x.setWidth 14 ++ BitVec.allOnes 50) }),
   (fun h cd ca _ => .ctether h cd ca, fun c _ => { c with hi := c.hi ||| 0x100000000 })]

/-- Field reads (R209). -/
def field : List ((Hdr → Nat → Nat → Instr) × (Cap → Word)) :=
  [(.crdcur, fun c => c.cursor), (.crdbase, Cap.readBase), (.crdlen, Cap.readLen), (.crdperm, fun c => (c.hi.extractLsb' 50 14).setWidth 64),
   (.crdtype, fun c => (c.hi.extractLsb' 34 16).setWidth 64),
   (.crdflag, fun c => (BitVec.ofBool c.valid ++ BitVec.ofBool (c.hi.getLsbD 33) ++ BitVec.ofBool (c.hi.getLsbD 32) ++
     BitVec.ofBool c.tag).setWidth 64), (.crdhi, fun c => c.hi)]

/-- r gives no right that c does not give: it is tagged only when c is, its bounds lie within those of c, its permissions among those of
c, its object type and world are those of c, and it is local when c is. -/
structure Within (c r : Cap) : Prop where
  tag   : r.tag = true → c.tag = true
  base  : r.tag = true → c.base ≤ r.base
  top   : r.tag = true → r.top ≤ c.top
  perms : ∀ p, r.has p = true → c.has p = true
  otype : r.otype = c.otype
  world : r.world = c.world
  loc   : c.isLocal = true → r.isLocal = true

/-! ## Barriers, TLB invalidation, save areas and vector areas (R126-R137, R218, R219) -/

/-- TLB invalidations with an address: which space, and whether every core takes part (R219). -/
def tlbi : List ((Hdr → Nat → Instr) × Bool × Bool) :=
  [(.tlbiv, false, false), (.tlbivs, true, false), (.tlbivd, false, true), (.tlbivsd, true, true)]

/-- An entry of a TLB does not translate a page of a space. -/
def without (space : Bool) (vpn : Nat) (e : TlbEntry) : Bool :=
  !(e.space == space && decide (e.vpn ≤ vpn ∧ vpn < e.vpn + e.count))

/-- t is s after an instruction of E that writes no register and removes entries of TLBs: keep tells what a core keeps. -/
structure TlbGoes (s t : State) (E : Env) (keep : Nat → TlbEntry → Bool) : Prop where
  tlb   : ∀ m, (t.core m).tlb = (s.core m).tlb.filter (keep m)
  tlbI  : ∀ m, (t.core m).tlbI = (s.core m).tlbI.filter (keep m)
  tlbD  : ∀ m, (t.core m).tlbD = (s.core m).tlbD.filter (keep m)
  held  : ∀ m k l, (m ≠ E.n ∨ k ≠ E.k ∨ l.canon ≠ .c 15) → t.held m k l = s.held m k l
  pcAt  : t.pc E.n E.k = nextPc E
  cores : ∀ m, m ≠ E.n → t.core m = { s.core m with tlb := (t.core m).tlb, tlbI := (t.core m).tlbI, tlbD := (t.core m).tlbD }
  rest  : t.outside = s.outside

/-- Saves: instruction, routine, and the areas of the chain it writes (R126). -/
def saves : List ((Hdr → Instr) × InsDef × Nat × Nat × Nat) :=
  [(.savel, insSavel, rtSAVEL, 0, 2), (.saveh, insSaveh, rtSAVEH, 3, 12)]

/-- The writes of a save, area by area, with the words the areas take in state s0. -/
def saveAreas (s0 : State) (E : Env) : List Area → State → State
  | [], s => s
  | a :: as, s => saveAreas s0 E as (writeRaw s E a.cap.cur a.cs (areaWords s0 E a.no))

/-- Every area is one run of memory. -/
def Backed (as : List Area) : Prop := ∀ a, a ∈ as → ∃ t pa se, a.cs = [⟨a.cap.cur, 256, .mem t pa, se⟩]

/-- The zero that a routine which completes leaves in MPROG, unless EXL is set (R314, R315). -/
def progZero (s : State) (E : Env) : List (Loc × Val) := if stEXL (s.ctx E.n E.k).status then [] else [(.sr nMPROG, .w 0)]

/-- Word i of an area as read. -/
def wordAt (ws : List (Nat × Nat)) (i : Nat) : Word := BitVec.ofNat 64 ((ws[i]?).getD (0, 0)).1

/-- The capability in words i and i + 1 of an area as read. -/
def capAt (ws : List (Nat × Nat)) (i : Nat) : Cap := ⟨wordAt ws i, wordAt ws (i + 1), decide (((ws[i]?).getD (0, 0)).2 = tCAPLO)⟩

/-- The state registers of words 16 to 27 of area 0 (R127): starts, ends, counts. -/
def loopWords (a : List (Nat × Nat)) : List (Loc × Val) :=
  (List.range 12).map (fun i => (.sr (nLSTART + i), .w (wordAt a (16 + i) &&& (if i < 8 then 0xFFFFFFFFFFFFFFFC else 0xFFFFFFFF))))

/-- What areas 0, 1 and 2 give a context, but for STATUS, c15 and VSTATE (R127): a, b and c are their words. -/
def loadedLow (a b c : List (Nat × Nat)) : List (Loc × Val) :=
  (List.range 7).map (fun i => (.p (i + 1), .b ((wordAt a 0).getLsbD (9 + i)))) ++
  (List.range 8).map (fun i => (.g i, .w (wordAt a (8 + i)))) ++
  [(.sr nCTXID, .w (wordAt a 2 &&& 0xFFFF)), (.sr nRPT, .w (wordAt a 4 &&& 0xFFFFFFFF)), (.sr nPKMLO, .w (wordAt a 6)),
   (.sr nPKMHI, .w (wordAt a 7)), (.sr nMPROG, .w (wordAt a 3 &&& 0xFF01FFFFFFFFFFFF))] ++ loopWords a ++
  [(.csr nRSTK, .c (capAt a 28))] ++ (List.range 15).map (fun i => (.c i, .c (capAt b (2 * i)))) ++
  [(.csr nASCENTRY, .c (capAt c 2)), (.csr nASCSTACK, .c (capAt c 4)), (.csr nASCRET, .c (capAt c 6)),
   (.csr nASCRSTK, .c (capAt c 8)), (.csr nVAREA, .c (capAt c 10))]

/-- VSTATE after a load: the saved bits, RES set when VHOLD is tagged and equals VAREA (R136). -/
def loadedVstate (s : State) (E : Env) (a c : List (Nat × Nat)) : Word :=
  let vh := (s.ctx E.n E.k).csrv nVHOLD
  ((wordAt a 5 &&& 0x7F03) &&& ~~~1) |||
    (if vh.tag ∧ vh.cursor = (capAt c 10).cursor ∧ vh.hi = (capAt c 10).hi then 1 else 0)

/-- Bits 0, 3 and 4 of a status word replaced (R130, R131). -/
def statusFrom (old v : Word) : Word := (old &&& ~~~0x19) ||| (v &&& 0x19)

/-- What areas 3 to 12 give a context (R128): the window and the 288 words of the ring. -/
def loadedHigh (ws : Nat → List (Nat × Nat)) : List (Loc × Val) :=
  [(.sr nWBASE, .w (((wordAt (ws 3) 0).extractLsb' 0 5).setWidth 64)), (.sr nWDEPTH, .w (((wordAt (ws 3) 0).extractLsb' 8 5).setWidth 64))] ++
  (List.range 288).map (fun i => (.ring i, .w (if i < 29 then wordAt (ws 3) (i + 1) else wordAt (ws (4 + (i - 29) / 30)) ((i - 29) % 30))))

/-- The words of an area as read, their tags and format accepted. -/
def AreaReads (s : State) (E : Env) (a : Area) (ws : List (Nat × Nat)) : Prop :=
  rawWords s E 0xE a.cap.cur a.cs = .ok ws ∧ areaTags a.no a.cap.cur ws = none ∧ areaFormat s E a.no a.cap.cur ws = none ∧
    s.breakAt E.n 1 a.cap.cur (8 * wordsRead a.no) = none

/-- A routine runs from its beginning to its end: nothing recorded to resume, nothing acceptable to stop for (R311, R314). -/
def Whole (s : State) (E : Env) (routine : Nat) : Prop :=
  resumePoint s E routine = 0 ∧ s.acceptable E.n E.k = false ∧ (s.ctx E.n E.k).flights = []

/-! ## Vector instructions (R226-R239) -/

/-- Element i, of n bits, of a vector register (R226). -/
def el (n : Nat) (v : VReg) (i : Nat) : BitVec n := v.extractLsb' (n * i) n

/-- The first m elements of n bits of r are those that g gives, and the others are those of d. -/
def Elements (n m : Nat) (r d : VReg) (g : Nat → BitVec n) : Prop :=
  ∀ i, n * (i + 1) ≤ 512 → el n r i = if i < m then g i else el n d i

/-- The signed value x at n bits, saturated. -/
def satS (n : Nat) (x : Int) : BitVec n := BitVec.ofInt n (if x < -2 ^ (n - 1) then -2 ^ (n - 1) else if 2 ^ (n - 1) ≤ x then 2 ^ (n - 1) - 1 else x)

/-- Element-wise instructions of two sources: the destination's element, and the two operands' elements, of n bits, give the result's
(R229, R231, R233). -/
def vec2 : List ((Hdr → Nat → Nat → Nat → Nat → Instr) × ((n : Nat) → BitVec n → BitVec n → BitVec n → BitVec n)) :=
  [(.vadd, fun _ _ a b => a + b), (.vsub, fun _ _ a b => a - b), (.vand, fun _ _ a b => a &&& b), (.vor, fun _ _ a b => a ||| b),
   (.vxor, fun _ _ a b => a ^^^ b), (.vandn, fun _ _ a b => a &&& ~~~b), (.vsll, fun n _ a b => a <<< (b.toNat % n)),
   (.vsrl, fun n _ a b => a >>> (b.toNat % n)), (.vsra, fun n _ a b => a.sshiftRight (b.toNat % n)),
   (.vmin, fun _ _ a b => if b.slt a then b else a), (.vmax, fun _ _ a b => if a.slt b then b else a),
   (.vminu, fun _ _ a b => if b < a then b else a), (.vmaxu, fun _ _ a b => if a < b then b else a),
   (.vadds, fun n _ a b => satS n (a.toInt + b.toInt)), (.vsubs, fun n _ a b => satS n (a.toInt - b.toInt)),
   (.vaddsu, fun n _ a b => if 2 ^ n ≤ a.toNat + b.toNat then BitVec.allOnes n else a + b),
   (.vsubsu, fun _ _ a b => if a < b then 0 else a - b), (.vabsd, fun n _ a b => BitVec.ofNat n (a.toInt - b.toInt).natAbs),
   (.vmul, fun _ _ a b => a * b), (.vmulh, fun n _ a b => BitVec.ofInt n (a.toInt * b.toInt / 2 ^ n)),
   (.vmac, fun _ d a b => d + a * b), (.vceq, fun n _ a b => if a = b then BitVec.allOnes n else 0),
   (.vclt, fun n _ a b => if a.slt b then BitVec.allOnes n else 0), (.vcltu, fun n _ a b => if a < b then BitVec.allOnes n else 0),
   (.vsel, fun _ d a b => if d = 0 then b else a)]

/-- The width of a float format. -/
def fbits (single : Bool) : Nat := if single then 32 else 64

/-- Float element-wise instructions: patterns of the destination's and the operands' elements give the result's (R230, R233). -/
def vecF : List ((Hdr → Bool → Nat → Nat → Nat → Instr) × (Fmt → Nat → Nat → Nat → Nat)) :=
  [(.vfadd, fun k _ a b => k.add a b), (.vfsub, fun k _ a b => k.sub a b), (.vfmul, fun k _ a b => k.mul a b),
   (.vfmac, fun k d a b => k.fma d a b), (.vfmin, fun k _ a b => k.min a b), (.vfmax, fun k _ a b => k.max a b),
   (.vfceq, fun k _ a b => if k.eq a b then 2 ^ k.width - 1 else 0), (.vfclt, fun k _ a b => if k.lt a b then 2 ^ k.width - 1 else 0),
   (fun h f vd va _ => .vfneg h f vd va, fun k _ a _ => k.neg a), (fun h f vd va _ => .vfabs h f vd va, fun k _ a _ => k.abs a)]

/-- Conversions between floats and signed integers of the same width (R230). -/
def vecCvt : List ((Hdr → Bool → Nat → Nat → Instr) × ((f : Bool) → BitVec (fbits f) → BitVec (fbits f))) :=
  [(.vfcvtif, fun f a => BitVec.ofNat _ ((fmtOf f).ofInt a.toInt)),
   (.vfcvtfi, fun f a => BitVec.ofInt _ ((fmtOf f).toInt a.toNat false (-2 ^ (fbits f - 1)) (2 ^ (fbits f - 1) - 1))),
   (.vfcvtfir, fun f a => BitVec.ofInt _ ((fmtOf f).toInt a.toNat true (-2 ^ (fbits f - 1)) (2 ^ (fbits f - 1) - 1)))]

/-- The sum of the products of the parts of 32-bit lane i (R231). -/
def dotLane (d : VReg) (part : Nat → BitVec 32) (k i : Nat) : BitVec 32 :=
  (List.range k).foldl (fun acc j => acc + part (k * i + j)) (el 32 d i)

/-- Dot products: the number of parts of a lane and their products (R231). -/
def dots : List ((Hdr → Nat → Nat → Nat → Instr) × Nat × (VReg → VReg → Nat → BitVec 32)) :=
  [(.vdot8, 4, fun a b i => (el 8 a i).signExtend 32 * (el 8 b i).signExtend 32),
   (.vdot8us, 4, fun a b i => (el 8 a i).setWidth 32 * (el 8 b i).signExtend 32),
   (.vdot16, 2, fun a b i => (el 16 a i).signExtend 32 * (el 16 b i).signExtend 32)]

/-- The first of the values of l that none is before, or 0 of none (R232). -/
def bestOf (lt : Word → Word → Bool) : List Word → Word
  | [] => 0
  | x :: r => r.foldl (fun a y => if lt y a then y else a) x

/-- Reductions of the active elements, of n bits, to a general register (R232). -/
def reductions : List ((Hdr → Nat → Nat → Nat → Instr) × ((n : Nat) → List (BitVec n) → Word)) :=
  [(.vredadd, fun _ l => l.foldl (fun a x => a + x.signExtend 64) 0), (.vredmin, fun _ l => bestOf BitVec.slt (l.map (BitVec.signExtend 64))),
   (.vredmax, fun _ l => bestOf (fun x y => y.slt x) (l.map (BitVec.signExtend 64))),
   (.vredminu, fun _ l => bestOf BitVec.ult (l.map (BitVec.setWidth 64))),
   (.vredmaxu, fun _ l => bestOf (fun x y => y.ult x) (l.map (BitVec.setWidth 64)))]

/-- The first m elements of n bits of a register. -/
def els (n m : Nat) (v : VReg) : List (BitVec n) := (List.range m).map (el n v)

/-- The access of a vector load or store of VL bytes (R234, R235). -/
def vecAccess (m : MemOp) (o : Operand) (vl kind perm : Nat) : Acc := ⟨o.cap, m.cb, o.ea, vl, kind, pm perm, 0, 0, true, false, false⟩

/-- The address of element i of a gather or scatter through capability c: the cursor and the scaled index (R237). -/
def elemAddr (c : Cap) (n sc : Nat) (sgn : Bool) (idx : VReg) (i : Nat) : Word :=
  c.cursor + (if sgn then (el n idx i).signExtend 64 else (el n idx i).setWidth 64) <<< sc

/-- The access of an element of a gather or scatter. -/
def elemAccess (c : Cap) (cb n kind perm : Nat) (ea : Word) : Acc := ⟨c, cb, ea.toNat, n / 8, kind, pm perm, 0, 0, true, false, false⟩

/-! ## Distances (R169-R171) -/

/-- Instructions of a destination and two sources, with the location they write and the distance class of their results (R170). -/
def classed : List ((Hdr → Nat → Nat → Nat → Instr) × (State → Env → Nat → Loc) × Nat) :=
  [(.add, gprLoc, 0), (.mul, gprLoc, 2), (fun h d a b => .fadd h false d a b, gprLoc, 2), (.ceq, fun _ _ p => .p p, 1),
   (fun h d a b => .vadd h 2 d a b, fun _ _ v => .v v, 3), (fun h d a b => .vfmac h true d a b, fun _ _ v => .v v, 3),
   (fun h cd ca gs => .caim h cd ca gs, fun _ _ c => .c c, 0)]

/-! ## CROSS, KCMD, HANDLER_END and the commands of the key engine -/

/-- The commands of the key engine with their codes (R453). -/
def KeyCmd (f : Bool → Nat → Instr) (code : Nat) : Prop :=
  (f, code) ∈ [((.rng : Bool → Nat → Instr), kcRNG), (.hash, kcHASH), (.pkverify, kcPKVERIFY), (.enc, kcENC), (.dec, kcDEC), (.macgen, kcMACGEN), (.macver, kcMACVER),
   (.pinxlate, kcPINXLATE), (.arqc, kcARQC), (.cvv, kcCVV), (.sign, kcSIGN), (.verify, kcVERIFY), (.rsadec, kcRSADEC),
   (.kinfo, kcKINFO), (.kgen, kcKGEN), (.kimport, kcKIMPORT), (.kexport, kcKEXPORT), (.kdelete, kcKDELETE), (.kagree, kcKAGREE),
   (.reseed, kcRESEED)]

/-- The kinds of unit that command c takes, and its engine time where R462 gives one (R444, R453, R462). -/
def keyKinds (s : State) (c : KCmd) : List Nat := unitKinds c ((c.key.bind s.keyOf).map KeyRun.typ)

def keyTime (s : State) (c : KCmd) : Option Nat := engineTime c ((c.key.bind s.keyOf).map KeyRun.typ) ((c.aux.bind s.keyOf).map KeyRun.typ)

/-- The units that command c takes (R444, R463): none where no unit of a kind serves its world. -/
def keyUnits (s : State) (c : KCmd) : List (Option Nat) :=
  (keyKinds s c).map (s.unitFor c.world (s.unitsAt c.world (keyKinds s c)))

/-- A key that command c names is not in the store (R447, R448). -/
def keyGone (s : State) (c : KCmd) : Prop :=
  (c.key.isSome = true ∧ c.key.bind s.keyOf = none) ∨ (c.aux.isSome = true ∧ c.aux.bind s.keyOf = none)

/-- A queue q and the request that CROSS makes of it (R91): w16 to w23 and c1 to c4 of the caller. -/
def crossReq (s : State) (E : Env) (q : Nat) : CrossReq :=
  ⟨s.reqNo, E.n, E.k, (List.range 8).map (fun i => windowReg s E (16 + i)), (List.range 4).map (fun i => rdC s E (10 + i) (i + 1)),
   s.now + s.rf (.xqcfg q) xqcfg_TIMEOUT * 1000⟩

/-! ## Interrupts and the cores beside their instructions (R250-R287, R354, R361, R540) -/

/-- A register of the interrupt controller's sources or targets. -/
def isIntc (r : Reg) : Bool :=
  match r with
  | .intcSrc _ => true
  | .intcTgt _ => true
  | _ => false

/-- t is s but for the interrupt controller's sources and targets, the bank E of a core whose entry they take over, and the count of free
values. -/
structure IntcOnly (s t : State) : Prop where
  held : ∀ n k l, (∀ b r, l ≠ .bank b r) → t.held n k l = s.held n k l
  regs : ∀ r, isIntc r = false → t.reg r = s.reg r
  rest : { t with cores := [], regs := [], srcLast := [], srcLevel := [], free := 0 } =
         { s with cores := [], regs := [], srcLast := [], srcLevel := [], free := 0 }

/-- t is s after one report to source n (R266): it is counted; a source pending or active stays so; within its hold time it is deferred;
otherwise it is pending, or active where it has taken over an entry still open (R250). -/
structure Reported (s t : State) (n : Nat) : Prop extends IntcOnly s t where
  count : t.rf (.intcSrc n) intcSrc_CNT = min (s.rf (.intcSrc n) intcSrc_CNT + 1) 0xFFFF
  stays : s.srcPend n = true ∨ s.srcAct n = true → t.srcPend n = s.srcPend n ∧ t.srcAct n = s.srcAct n
  later : s.srcPend n = false → s.srcAct n = false → s.now < s.holdUntil n →
          t.rf (.intcSrc n) intcSrc_DEFER = 1 ∧ t.srcPend n = false ∧ t.srcAct n = false
  pends : s.srcPend n = false → s.srcAct n = false → s.holdUntil n ≤ s.now → t.srcPend n = true ∨ t.srcAct n = true

/-- An asynchronous entry of context k of core n in s has been taken in t with a cause (R244, R245): bank E holds the address of the next
instruction, STATUS, and the cause with its information; EXL and SUP are set and IE is clear. -/
structure Entered (s t : State) (n k code info addr : Nat) : Prop where
  epc    : (t.core n).bankE.r nEPC = BitVec.ofNat 64 (s.pc n k)
  status : (t.core n).bankE.r nESTATUS = (s.ctx n k).status
  cause  : (t.core n).bankE.r nECAUSE = BitVec.ofNat 64 code
  info   : (t.core n).bankE.r nEINFO = BitVec.ofNat 64 info
  addr   : (t.core n).bankE.r nEADDR = BitVec.ofNat 64 addr
  now    : (t.ctx n k).status = ((s.ctx n k).status ||| 5) &&& ~~~16
  bank   : (t.core n).inUse = 1
  pcc    : t.pcc n k = s.entryCap (stWORLD (s.ctx n k).status) (stSUP (s.ctx n k).status)

/-! ## Registers of the device (R5-R12, R21, R26, and the register sections of the chapters) -/

/-- Rows that write one register, with the register and what of the word names the row. i is an index the row gives. -/
def RegRow (row : Requester → Nat → Word → Instr) (reg : State → Requester → Nat → Reg) (named : Nat → Word → Bool) : Prop :=
  (row, reg, named) ∈ [((fun q i v => .eoi q i v : Requester → Nat → Word → Instr), (fun _ _ i => .intcTgt i : State → Requester → Nat → Reg),
     (fun i v => decide (i < 224) && v.getLsbD 16 : Nat → Word → Bool)),
   (fun q i v => .cntsub q i v, fun _ _ i => .intcSrc i, fun i v => decide (i < 640) && (v.extractLsb' 32 16 != 0)),
   (fun q i v => .pendWithdraw q i v, fun _ _ i => .intcSrc i, fun i v => decide (i < 640) && v.getLsbD 23),
   (fun q _ v => .doorbell q v, fun _ _ _ => .intcDoorbell, fun _ _ => true),
   (fun q _ v => .mcsLoadreq q v, fun _ _ _ => .mcsLoadreq, fun _ _ => true),
   (fun q _ v => .give q v, fun _ _ _ => .pleGive, fun _ _ => true),
   (fun q _ v => .calnow q v, fun s q _ => .memPcctl ((s.reg (.memPcsel q)).toNat % 128), fun _ v => v.getLsbD 3),
   (fun q _ v => .retire q v, fun s q _ => .memPcctl ((s.reg (.memPcsel q)).toNat % 128), fun _ v => v.getLsbD 16),
   (fun q _ v => .adv q v, fun _ _ _ => .rdgEpoch, fun _ v => v.getLsbD 0),
   (fun q i v => .halt q i v, fun _ _ i => .dbgCorectl i, fun i _ => decide (i < 112)),
   (fun q i v => .step q i v, fun _ _ i => .dbgCorectl i, fun i _ => decide (i < 112)),
   (fun q _ v => .fload q v, fun _ _ _ => .ingFload, fun _ _ => true),
   (fun q i v => .release q i v, fun _ _ i => .jcSlot i, fun i v => decide (i < 2) && v.getLsbD 8),
   (fun q _ v => .relseq q v, fun _ _ _ => .jcRel, fun _ _ => true),
   (fun q _ v => .go q v, fun _ _ _ => .jcRdctl, fun _ v => v.getLsbD 0),
   (fun q _ v => .claim q v, fun _ _ _ => .cdlClaim, fun _ v => v.extractLsb' 62 2 == 1),
   (fun q _ v => .plotRelease q v, fun _ _ _ => .cdlClaim, fun _ v => v.extractLsb' 62 2 == 2),
   (fun q _ v => .retireNow q v, fun _ _ _ => .depRetire, fun _ v => v.extractLsb' 0 2 == 1),
   (fun q _ v => .readmit q v, fun _ _ _ => .depRetire, fun _ v => v.extractLsb' 0 2 == 2),
   (fun q i v => .recordFree q i v, fun _ _ i => .depRec i, fun i v => decide (i < 1024) && v.getLsbD 0),
   (fun q i v => .recordAcknowledge q i v, fun _ _ i => .depRec i, fun i v => decide (i < 1024) && v.getLsbD 1),
   (fun q _ v => .snap q v, fun s q _ => .monCtl ((s.reg (.monSel q)).toNat % 32), fun _ v => v.getLsbD 33),
   (fun q _ v => .clear q v, fun s q _ => .monCtl ((s.reg (.monSel q)).toNat % 32), fun _ v => v.getLsbD 34),
   (fun q _ v => .rctlGo q v, fun _ _ _ => .imgRctl, fun _ v => v.getLsbD 0),
   (fun q _ v => .check q v [], fun _ _ _ => .imgCheck, fun _ v => v.getLsbD 0),
   (fun q _ v => .lock q v, fun _ _ _ => .sysLock, fun _ _ => true),
   (fun q _ v => .svncommit q v, fun _ _ _ => .sysSvncommit, fun _ v => v.getLsbD 0),
   (fun q i v => .domainSwitchOn q i v, fun _ _ i => .pwrDom i, fun i v => decide (i < 96) && v.getLsbD 0),
   (fun q i v => .domainSwitchOff q i v, fun _ _ i => .pwrDom i, fun i v => decide (i < 96) && !v.getLsbD 0),
   (fun q i v => .dvfsRequest q i v, fun _ _ i => .pwrDvfs i, fun i _ => decide (i < 32)),
   (fun q _ v => .warmDeviceReset q v, fun _ _ _ => .pwrReset, fun _ v => v.extractLsb' 0 3 == 1),
   (fun q _ v => .domainReset q v, fun _ _ _ => .pwrReset, fun _ v => v.extractLsb' 0 3 == 2),
   (fun q _ v => .pairReset q v, fun _ _ _ => .pwrReset, fun _ v => v.extractLsb' 0 3 == 3),
   (fun q _ v => .coreReset q v, fun _ _ _ => .pwrReset, fun _ v => v.extractLsb' 0 3 == 4),
   (fun q _ v => .linkBlockReset q v, fun _ _ _ => .pwrReset, fun _ v => v.extractLsb' 0 3 == 5 && v.extractLsb' 20 4 == 0),
   (fun q _ v => .slotBlockReset q v, fun _ _ _ => .pwrReset, fun _ v => v.extractLsb' 0 3 == 5 && v.extractLsb' 20 4 == 1),
   (fun q _ v => .keyUnitReset q v, fun _ _ _ => .pwrReset, fun _ v => v.extractLsb' 0 3 == 5 && v.extractLsb' 20 4 == 2),
   (fun q _ v => .monitorReset q v, fun _ _ _ => .pwrReset, fun _ v => v.extractLsb' 0 3 == 5 && v.extractLsb' 20 4 == 3),
   (fun q _ v => .laneReset q v, fun _ _ _ => .pwrReset, fun _ v => v.extractLsb' 0 3 == 5 && v.extractLsb' 20 4 == 4),
   (fun q _ v => .erase q v, fun _ _ _ => .mgtFlcmd, fun _ v => v.extractLsb' 0 3 == 1),
   (fun q _ v => .program q v, fun _ _ _ => .mgtFlcmd, fun _ v => v.extractLsb' 0 3 == 2),
   (fun q _ v => .flashRead q v, fun _ _ _ => .mgtFlcmd, fun _ v => v.extractLsb' 0 3 == 3),
   (fun q _ v => .txgo q v, fun _ _ _ => .mgtMctl, fun _ v => v.getLsbD 24),
   (fun q _ v => .rxfull q v, fun _ _ _ => .mgtMctl, fun _ v => v.getLsbD 0),
   (fun q _ v => .uartTransmit q v, fun _ _ _ => .mgtUdata, fun _ _ => true)]

/-- Rows that read one register, which the read changes, with the register. -/
def ReadRow (row : Requester → Nat → Instr) (reg : Nat → Reg) (named : Nat → Bool) : Prop :=
  (row, reg, named) ∈ [((fun q i => .take q i : Requester → Nat → Instr), (fun i => .pleTake i : Nat → Reg), (fun i => decide (i < 4) : Nat → Bool)),
   (fun q _ => .ovfRead q, fun _ => .pleOvf, fun _ => true), (fun q _ => .uartRead q, fun _ => .mgtUdata, fun _ => true)]

/-- A requester's access has reached register space in s, and s1 is the machine then: a context of a core that issues, whose store buffer has
drained (R205, R380), or a master that the Ridge table admits (R356, R358). -/
def Reaching (s s1 : State) (q : Requester) (write : Bool) (r : Reg) : Prop :=
  match q with
  | .core n k => q.wf = true ∧ s.canIssue n k = true ∧ s1 = s.drain n
  | .master m f => q.wf = true ∧ s.masterReaches m f write r.pa (!write && diagReg r) = (true, s1)

/-- A write of v to r by q is one that the register takes field by field (R5-R12, R534, R578, R587). -/
def Taken (s : State) (q : Requester) (r : Reg) (v : Word) : Prop :=
  s.sealedShut = false ∧ regDenied s q r v = false ∧ s.recHidden q r = false ∧ s.regOff r = false ∧ wholeRejected r v = false

/-- The state in which a write of v to r by q has its effect: its fields are judged, its events sent, and its register set. -/
def applied (s : State) (q : Requester) (r : Reg) (v : Word) : State :=
  let j := judge s q r v
  (j.events q r).setReg r j.w

/-! ## Packets (R493-R499) -/

/-- A packet of a type comes to this node over link l in s (R493, R496): its fields fit, and it is neither malformed nor of a type that the
link does not carry. u is the machine once it has been taken. -/
structure Arrives (s : State) (typ l : Nat) (p : Pkt) (u : State) : Prop where
  link  : l ≤ 12
  fits  : pktFits p = true
  typ   : p.typ = typ
  taken : ∃ v, s.takePkt l p = some v ∧ u = v.answerLost
  legal : u.barred l p = false
  here  : p.dst = u.node

/-- The plot cache can take an entry for a plot (R503): its set is not full of plots that this node owns. -/
def Cacheable (s : State) (plot : Nat) : Prop :=
  s.plotCache.countP (fun e => decide (plotSet e.plot = plotSet plot) && e.expiry.isNone) < 16

/-- A packet as an ATTACHED link carries it (R70): without tags, a word that is no data being zero, as a master reads it (R57). -/
def bare (q : Pkt) : Pkt :=
  { q with tags := [], payload := q.payload.zipIdx.map (fun e => if [tINT, tFLT].contains (q.tags.getD (e.2 / 8) tINT) then e.1 else 0) }

/-- t is s after this node has sent q (R498, R499, R70): to itself it waits locally; on a route it leaves, bare on an ATTACHED link;
unroutable it is lost. -/
structure Sent (s t : State) (q : Pkt) : Prop where
  here : q.dst = s.node → t = { s with loop := s.loop ++ [q] }
  away : ∀ l, q.dst ≠ s.node → s.routeLink q.dst s.node q.addr = some l →
         t.tx = s.tx ++ [(l, if s.linkState l = lsATTACHED then bare q else q)] ∧ t = { s with tx := t.tx, links := t.links }
  lost : q.dst ≠ s.node → s.routeLink q.dst s.node q.addr = none → t = s

/-- The answer to packet p: to its sender, with its number (R494, R495). -/
def answerTo (s : State) (p : Pkt) (typ arg : Nat) (payload : List Byte) (tags : List Nat) : Pkt :=
  { typ := typ, vc := 1, dst := p.src, src := s.node, ttl := 31, dl := 0, z := 0, reqid := p.reqid, arg := arg, addr := 0,
    payload := payload, tags := tags }

/-- A NACK of p with a reason, the owner's cause and translation reason, and a hint word (R495). -/
def nackTo (s : State) (p : Pkt) (reason cause oreason hint : Nat) : Pkt :=
  answerTo s p pkNACK (reason + cause * 2 ^ 4 + oreason * 2 ^ 12) ((toBytes hint 8).map (BitVec.ofNat 8)) [tINT]

end Sys2Proof.Claims

/-- R178: the immediate instructions, MOVI and MOVS, alone and under a WIDE prefix. R179, R109: compares and predicate logic write pd and
nothing else; a destination p0 is discarded. -/
def Obligations.ImmediateAndCompareResults : Prop :=
  ((∀ p, p ∈ Claims.regImm → ∀ (h : Hdr) (rd ra imm : Nat) (s s1 : State) (E : Env), imm < 2 ^ 10 →
      Issued s (p.1 h rd ra imm) E s1 → Straight s1 E →
      ∃ t, exec (p.1 h rd ra imm) s = .next t ∧
        Goes s1 t E [(gprLoc s1 E rd, .w (p.2 (rdG s1 E 0 ra) (Claims.immI h imm)))]) ∧
    (∀ (h : Hdr) (rd imm : Nat) (s s1 : State) (E : Env), imm < 2 ^ 16 → Issued s (.movi h rd imm) E s1 → Straight s1 E →
      ∃ t, exec (.movi h rd imm) s = .next t ∧ Goes s1 t E [(gprLoc s1 E rd, .w (Claims.immK h imm))]) ∧
    (∀ (h : Hdr) (rd imm : Nat) (s s1 : State) (E : Env), imm < 2 ^ 16 → Issued s (.movs h rd imm) E s1 → Straight s1 E →
      ∃ t, exec (.movs h rd imm) s = .next t ∧
        Goes s1 t E [(gprLoc s1 E rd, .w (match h.wide with
          | none => (rdG s1 E 0 rd).setWidth 48 ++ BitVec.ofNat 16 imm
          | some p => (rdG s1 E 0 rd).setWidth 28 ++ BitVec.ofNat 20 p ++ BitVec.ofNat 16 imm))])) ∧
  ((∀ p, p ∈ Claims.cmp2 → ∀ (h : Hdr) (pd ra rb : Nat) (s s1 : State) (E : Env), Issued s (p.1 h pd ra rb) E s1 → Straight s1 E →
      ∃ t, exec (p.1 h pd ra rb) s = .next t ∧ Goes s1 t E (Claims.predWrite pd (p.2 (rdG s1 E 0 ra) (rdG s1 E 1 rb)))) ∧
    (∀ p, p ∈ Claims.cmpImm → ∀ (h : Hdr) (pd ra imm : Nat) (s s1 : State) (E : Env), imm < 2 ^ 10 →
      Issued s (p.1 h pd ra imm) E s1 → Straight s1 E →
      ∃ t, exec (p.1 h pd ra imm) s = .next t ∧ Goes s1 t E (Claims.predWrite pd (p.2 (rdG s1 E 0 ra) (Claims.immI h imm)))) ∧
    (∀ p, p ∈ Claims.predLogic → ∀ (h : Hdr) (pd pa pb : Nat) (s s1 : State) (E : Env), Issued s (p.1 h pd pa pb) E s1 → Straight s1 E →
      ∃ t, exec (p.1 h pd pa pb) s = .next t ∧ Goes s1 t E (Claims.predWrite pd (p.2 (rdP s1 E 0 pa) (rdP s1 E 1 pb)))))

/-- R177, R180: an integer instruction of two registers, or a multiply, writes rd with its result and goes on. R177, R178: bit counts, byte
swap, extensions, and shifts by an immediate. R180, R181: while the divider is busy a divide waits and nothing changes;
otherwise it writes rd with its result and leaves the divider busy, and DIVIDER_RESULT frees the divider of a core and changes nothing else. -/
def Obligations.IntegerRegisterResults : Prop :=
  (∀ p, p ∈ Claims.reg2 → ∀ (h : Hdr) (rd ra rb : Nat) (s s1 : State) (E : Env),
      Issued s (p.1 h rd ra rb) E s1 → Straight s1 E →
      ∃ t, exec (p.1 h rd ra rb) s = .next t ∧ Goes s1 t E [(gprLoc s1 E rd, .w (p.2 (rdG s1 E 0 ra) (rdG s1 E 1 rb)))]) ∧
  ((∀ p, p ∈ Claims.reg1 → ∀ (h : Hdr) (rd ra : Nat) (s s1 : State) (E : Env), Issued s (p.1 h rd ra) E s1 → Straight s1 E →
      ∃ t, exec (p.1 h rd ra) s = .next t ∧ Goes s1 t E [(gprLoc s1 E rd, .w (p.2 (rdG s1 E 0 ra)))]) ∧
    (∀ p, p ∈ Claims.shiftImm → ∀ (h : Hdr) (rd ra n : Nat) (s s1 : State) (E : Env), n < 64 →
      Issued s (p.1 h rd ra n) E s1 → Straight s1 E →
      ∃ t, exec (p.1 h rd ra n) s = .next t ∧ Goes s1 t E [(gprLoc s1 E rd, .w (p.2 (rdG s1 E 0 ra) n))])) ∧
  ((∀ p, p ∈ Claims.divide → ∀ (h : Hdr) (rd ra rb : Nat) (s s1 : State) (E : Env), Issued s (p.1 h rd ra rb) E s1 → Straight s1 E →
      ((s1.core E.n).divBusy = true → exec (p.1 h rd ra rb) s = .next s) ∧
      ((s1.core E.n).divBusy = false → ∃ t, exec (p.1 h rd ra rb) s = .next t ∧
        Ends s1 t E [(gprLoc s1 E rd, .w (p.2 (rdG s1 E 0 ra) (rdG s1 E 1 rb)))] (nextPc E) true)) ∧
    (∀ (n : Nat) (s : State), n < 112 → (s.core (s.unit n)).divBusy = true →
      ∃ t, exec (.dividerResult n) s = .next t ∧ t.core (s.unit n) = { s.core (s.unit n) with divBusy := false } ∧
        (∀ m, m ≠ s.unit n → t.core m = s.core m) ∧ t.outside = s.outside))

/-- R182, R183: a float instruction writes rd with its result in the format its F bit names, binary32 results with bits 63:32 zero; FDIV and
FSQRT find the shared divider free and leave it busy (R181); a float compare writes pd. R182: every operation with a NaN operand gives the canonical
quiet NaN, but for the minimum and maximum of two numbers one of which is a NaN; and a pattern that is no NaN is rounded to itself. -/
def Obligations.FloatInstructionResults : Prop :=
  ((∀ p, p ∈ Claims.float2 → ∀ (h : Hdr) (f : Bool) (rd ra rb : Nat) (s s1 : State) (E : Env),
      Issued s (p.1 h f rd ra rb) E s1 → Straight s1 E →
      ∃ t, exec (p.1 h f rd ra rb) s = .next t ∧
        Goes s1 t E [(gprLoc s1 E rd,
          .w (word (p.2 (fmtOf f) (Claims.fin f (rdG s1 E 0 ra)) (Claims.fin f (rdG s1 E 1 rb)))))]) ∧
    (∀ p, p ∈ Claims.float1 → ∀ (h : Hdr) (f : Bool) (rd ra : Nat) (s s1 : State) (E : Env),
      Issued s (p.1 h f rd ra) E s1 → Straight s1 E →
      ∃ t, exec (p.1 h f rd ra) s = .next t ∧ Goes s1 t E [(gprLoc s1 E rd, .w (p.2 f (rdG s1 E 0 ra)))]) ∧
    (∀ p, p ∈ Claims.floatCmp → ∀ (h : Hdr) (f : Bool) (pd ra rb : Nat) (s s1 : State) (E : Env),
      Issued s (p.1 h f pd ra rb) E s1 → Straight s1 E →
      ∃ t, exec (p.1 h f pd ra rb) s = .next t ∧
        Goes s1 t E (Claims.predWrite pd (p.2 (fmtOf f) (Claims.fin f (rdG s1 E 0 ra)) (Claims.fin f (rdG s1 E 1 rb))))) ∧
    (∀ (h : Hdr) (f : Bool) (rd ra rb : Nat) (s s1 : State) (E : Env), Issued s (.fmac h f rd ra rb) E s1 → Straight s1 E →
      ∃ t, exec (.fmac h f rd ra rb) s = .next t ∧
        Goes s1 t E [(gprLoc s1 E rd, .w (word ((fmtOf f).fma (Claims.fin f (rdG s1 E 2 rd)) (Claims.fin f (rdG s1 E 0 ra))
          (Claims.fin f (rdG s1 E 1 rb)))))]) ∧
    (∀ (h : Hdr) (f : Bool) (rd ra rb : Nat) (s s1 : State) (E : Env), Issued s (.fdiv h f rd ra rb) E s1 → Straight s1 E →
      (s1.core E.n).divBusy = false → ∃ t, exec (.fdiv h f rd ra rb) s = .next t ∧
        Ends s1 t E [(gprLoc s1 E rd, .w (word ((fmtOf f).div (Claims.fin f (rdG s1 E 0 ra)) (Claims.fin f (rdG s1 E 1 rb)))))]
          (nextPc E) true) ∧
    (∀ (h : Hdr) (f : Bool) (rd ra : Nat) (s s1 : State) (E : Env), Issued s (.fsqrt h f rd ra) E s1 → Straight s1 E →
      (s1.core E.n).divBusy = false → ∃ t, exec (.fsqrt h f rd ra) s = .next t ∧
        Ends s1 t E [(gprLoc s1 E rd, .w (word ((fmtOf f).sqrt (Claims.fin f (rdG s1 E 0 ra)))))] (nextPc E) true)) ∧
  (∀ (f : Bool) (a b d : Nat), (fmtOf f).isNan a = true →
      (fmtOf f).add a b = (fmtOf f).nan ∧ (fmtOf f).add b a = (fmtOf f).nan ∧ (fmtOf f).sub a b = (fmtOf f).nan ∧
      (fmtOf f).sub b a = (fmtOf f).nan ∧ (fmtOf f).mul a b = (fmtOf f).nan ∧ (fmtOf f).mul b a = (fmtOf f).nan ∧
      (fmtOf f).div a b = (fmtOf f).nan ∧ (fmtOf f).div b a = (fmtOf f).nan ∧ (fmtOf f).sqrt a = (fmtOf f).nan ∧
      (fmtOf f).fma a b d = (fmtOf f).nan ∧ (fmtOf f).fma b a d = (fmtOf f).nan ∧ (fmtOf f).fma b d a = (fmtOf f).nan ∧
      ((fmtOf f).isNan b = true → (fmtOf f).min a b = (fmtOf f).nan ∧ (fmtOf f).max a b = (fmtOf f).nan) ∧
      ((fmtOf f).isNan b = false → b < 2 ^ (fmtOf f).width → (fmtOf f).pack ((fmtOf f).unpack b) = b))

/-! ## Loads and stores -/

/-- No store of another context can change what a load of E reads while it waits (R301): the core is a P-core, or its store buffer is
empty. -/
def Claims.Settled (s : State) (E : Env) : Prop := E.n < 48 ∨ (s.core E.n).sb = []

/-- t holds every register as s does, and context E.k of core E.n sees every memory as it did in s. -/
def Claims.SameView (s t : State) (E : Env) : Prop :=
  (∀ n k l, t.held n k l = s.held n k l) ∧ ∀ g, t.viewMem E.n E.k g = s.viewMem E.n E.k g

/-- R184, R57: a data load from memory whose words are tagged INT or FLT gives the bytes at its address as the context sees them, the
lowest address in the lowest byte, and changes no register and no byte that its context sees. -/
def Obligations.LoadedValueIsLittleEndian : Prop :=
  ∀ (s s1 : State) (E : Env) (a : Acc) (t : Tgt) (pa : Nat) (se : Bool), 0 < a.size → Claims.Settled s1 E →
    resolve s E a = (.ok [⟨a.ea, a.size, .mem t pa, se⟩], s1) →
    (∀ w, w ∈ wordsOf pa a.size → (s1.ctxMem E.n E.k t).tag w = tINT ∨ (s1.ctxMem E.n E.k t).tag w = tFLT) →
    s1.breakAt E.n 1 a.ea a.size = none →
    ∃ d s2, loadData s E a = .ok (Claims.littleEndian (s1.ctxMem E.n E.k t) pa a.size, d) s2 ∧ Claims.SameView s1 s2 E

/-- R185, R155: a data load whose access passes writes the value loaded to its register, updates cb as its mode says, and goes on. v is the
value read, d its distance class, s2 the machine after the access. R185, R155: a data store whose access passes updates cb as its mode says
and goes on; everything else it does is the access. -/
def Obligations.LoadAndStoreResults : Prop :=
  (∀ p, p ∈ Claims.loads → ∀ (h : Hdr) (t : Nat) (m : MemOp) (s s1 s2 : State) (E : Env) (v d : Nat),
      Issued s (p.1 h t m) E s1 →
      loadData s1 E (Claims.loadAcc m (memOperand s1 E h m p.2.1) p.2.1) = .ok (v, d) s2 →
      Straight s2 E → (s2.core E.n).resets = (s1.core E.n).resets →
      ∃ u, exec (p.1 h t m) s = .next u ∧
        Goes s2 u E ((gprLoc s2 E t, .w (p.2.2 v)) :: Claims.updated m (memOperand s1 E h m p.2.1))) ∧
  (∀ p, p ∈ Claims.stores → ∀ (h : Hdr) (t : Nat) (m : MemOp) (s s1 s2 : State) (E : Env),
      Issued s (p.1 h t m) E s1 →
      storeData s1 E (Claims.storeAcc m (memOperand s1 E h m p.2.1) p.2.1) ((rdG s1 E 0 t).toNat % 256 ^ p.2.1) p.2.2 = .ok () s2 →
      Straight s2 E → (s2.core E.n).resets = (s1.core E.n).resets →
      ∃ u, exec (p.1 h t m) s = .next u ∧ Goes s2 u E (Claims.updated m (memOperand s1 E h m p.2.1)))

/-- R59, R60, R184, R204: a data store of a P-core to memory, once its checks pass, is seen by its own context: every byte and every tag
of the memory it goes to is as the store leaves it, and no other memory and no register changes. -/
def Obligations.StoredBytesAreSeen : Prop :=
  ∀ (s s1 : State) (E : Env) (a : Acc) (t : Tgt) (pa v tag : Nat) (se : Bool),
    E.n < 48 → 0 < a.size → a.size ≤ 8 → tag = tINT ∨ tag = tFLT →
    resolve s E a = (.ok [⟨a.ea, a.size, .mem t pa, se⟩], s1) → Claims.Plain s1 E t → (s1.viewMem E.n E.k t).wf = true →
    storeTags s1 E a.capNo a.ea v tag [⟨a.ea, a.size, .mem t pa, se⟩] = none → s1.breakAt E.n 2 a.ea a.size = none →
    ∃ s2, storeData s E a v tag = .ok () s2 ∧
      (∀ b, (s2.viewMem E.n E.k t).byte b = Claims.storedByte (s1.viewMem E.n E.k t) pa a.size v b) ∧
      (∀ b, (s2.viewMem E.n E.k t).tag b =
        if b / 8 = pa / 8 ∨ b / 8 = (pa + a.size - 1) / 8 then tag
        else if (b / 16 = pa / 16 ∨ b / 16 = (pa + a.size - 1) / 16) ∧ (s1.viewMem E.n E.k t).tag (b / 16 * 16) = tCAPLO ∧
          (s1.viewMem E.n E.k t).tag (b / 16 * 16 + 8) = tCAPHI then tUNINIT
        else (s1.viewMem E.n E.k t).tag b) ∧
      (∀ t', t' ≠ t → s2.viewMem E.n E.k t' = s1.viewMem E.n E.k t') ∧ (∀ l, s2.held E.n E.k l = s.held E.n E.k l)

/-- R185, R155: LDC loads a capability into cd, STC stores one, each updates cb as its mode says and goes on. R58: a capability load from
memory gives a tagged register from words tagged CAPLO and CAPHI, an untagged one from two data words, and raises TAG_FAULT with the tag
found when the first word is tagged CAPHI or UNINIT. -/
def Obligations.CapabilityMemoryResults : Prop :=
  ((∀ (h : Hdr) (t : Nat) (m : MemOp) (s s1 s2 : State) (E : Env) (v : Cap) (d : Nat),
      Issued s (.ldc h t m) E s1 → loadCap s1 E (Claims.loadCapAcc m (memOperand s1 E h m 16)) = .ok (v, d) s2 → Straight s2 E →
      (s2.core E.n).resets = (s1.core E.n).resets →
      ∃ u, exec (.ldc h t m) s = .next u ∧ Goes s2 u E ((.c t, .c v) :: Claims.updated m (memOperand s1 E h m 16))) ∧
    (∀ (h : Hdr) (t : Nat) (m : MemOp) (s s1 s2 : State) (E : Env),
      Issued s (.stc h t m) E s1 →
      storeCap s1 E (Claims.storeCapAcc m (memOperand s1 E h m 16) (rdC s1 E 0 t)) (rdC s1 E 0 t) = .ok () s2 → Straight s2 E →
      (s2.core E.n).resets = (s1.core E.n).resets →
      ∃ u, exec (.stc h t m) s = .next u ∧ Goes s2 u E (Claims.updated m (memOperand s1 E h m 16)))) ∧
  (∀ (s s1 : State) (E : Env) (a : Acc) (t : Tgt) (pa : Nat) (se : Bool),
      resolve s E a = (.ok [⟨a.ea, 16, .mem t pa, se⟩], s1) → s1.breakAt E.n 1 a.ea 16 = none → Claims.Settled s1 E →
      let m := s1.ctxMem E.n E.k t
      (m.tag pa = tCAPLO → m.tag (pa + 8) = tCAPHI →
        ∃ d s2, loadCap s E a = .ok (⟨word (m.word pa), word (m.word (pa + 8)), true⟩, d) s2 ∧ Claims.SameView s1 s2 E) ∧
      ((m.tag pa = tINT ∨ m.tag pa = tFLT) → (m.tag (pa + 8) = tINT ∨ m.tag (pa + 8) = tFLT) →
        ∃ d s2, loadCap s E a = .ok (⟨word (m.word pa), word (m.word (pa + 8)), false⟩, d) s2 ∧ Claims.SameView s1 s2 E) ∧
      ((m.tag pa = tUNINIT ∨ m.tag pa = tCAPHI) → m.tag (pa + 8) ≤ tCAPHI →
        loadCap s E a = .trap ⟨ecTAG_FAULT, a.capNo * 2 ^ 24 + m.tag pa, a.ea, 0⟩ s1))

/-- R192, R193: LDRES and LDRESC load as LD and LDC do and leave the context's reservation at the range loaded; STCOND and STCONDC end
the reservation, write 0 to pd and store nothing when it does not cover the range, and otherwise store and write 1 to pd. -/
def Obligations.ReservationResults : Prop :=
  (∀ (h : Hdr) (t cb : Nat) (s s1 s2 : State) (E : Env) (v d : Nat) (tg : Tgt) (pa : Nat),
    Issued s (.ldres h t cb) E s1 →
    let c := rdC s1 E 8 cb
    let a : Acc := ⟨c, cb, c.cur, 8, kLOAD, pm pLOAD, 0, 8, true, false, false⟩
    loadData s1 E a = .ok (v, d) s2 → atomPlace s1 E a = some (tg, pa) → Straight s2 E →
    (s2.core E.n).resets = (s1.core E.n).resets →
    ∃ u, exec (.ldres h t cb) s = .next u ∧
      Goes (s2.setCtx E.n E.k { s2.ctx E.n E.k with resv := some ⟨c.cur, 8, false, tg, pa / 64 * 64⟩ }) u E
        [(gprLoc s2 E t, .w (BitVec.ofNat 64 v))]) ∧
  (∀ (h : Hdr) (t cb : Nat) (s s1 s2 : State) (E : Env) (v : Cap) (d : Nat) (tg : Tgt) (pa : Nat),
    Issued s (.ldresc h t cb) E s1 →
    let c := rdC s1 E 8 cb
    let a : Acc := ⟨c, cb, c.cur, 16, kLOAD, pm pLOAD + pm pLOADCAP, 0, 16, true, false, false⟩
    loadCap s1 E a = .ok (v, d) s2 → atomPlace s1 E a = some (tg, pa) → Straight s2 E →
    (s2.core E.n).resets = (s1.core E.n).resets →
    ∃ u, exec (.ldresc h t cb) s = .next u ∧
      Goes (s2.setCtx E.n E.k { s2.ctx E.n E.k with resv := some ⟨c.cur, 16, true, tg, pa / 64 * 64⟩ }) u E [(.c t, .c v)]) ∧
  (∀ (h : Hdr) (t cb pd : Nat) (s s1 s2 : State) (E : Env) (tg : Tgt) (pa : Nat) (se : Bool),
    Issued s (.stcond h t cb pd) E s1 →
    let c := rdC s1 E 8 cb
    let ch : Chunk := ⟨c.cur, 8, .mem tg pa, se⟩
    let s3 := (s2.drain E.n).maDue E.n E.k
    let put : Put := ⟨c.cur, tg, se, ch.dataOps c.cur (rdG s1 E 0 t).toNat tINT⟩
    resolve s1 E ⟨c, cb, c.cur, 8, kSTORE, pm pSTORE, 0, 8, true, false, false⟩ = (.ok [ch], s2) →
    storeTags s2 E cb c.cur (rdG s1 E 0 t).toNat tINT [ch] = none → s2.breakAt E.n 2 c.cur 8 = none →
    (s2.ctx E.n E.k).tx.state = .none →
    (((s2.ctx E.n E.k).covers c.cur 8 false = false → Straight s3 E →
      ∃ u, exec (.stcond h t cb pd) s = .next u ∧ Goes (s3.unreserve E.n E.k) u E (Claims.predWrite pd false)) ∧
    ((s2.ctx E.n E.k).covers c.cur 8 false = true →
      Straight ((s3.perform E [put]).drain E.n) E →
      ∃ u, exec (.stcond h t cb pd) s = .next u ∧
        Goes (((s3.perform E [put]).drain E.n).unreserve E.n E.k) u E (Claims.predWrite pd true)))) ∧
  (∀ (h : Hdr) (t cb pd : Nat) (s s1 s2 : State) (E : Env) (tg : Tgt) (pa : Nat) (se : Bool),
    Issued s (.stcondc h t cb pd) E s1 →
    let c := rdC s1 E 8 cb
    let v := rdC s1 E 0 t
    let s3 := (s2.drain E.n).maDue E.n E.k
    let put : Put := ⟨c.cur, tg, se, capOps pa v⟩
    resolve s1 E ⟨c, cb, c.cur, 16, kSTORE, storePerms v, storedRules c v, 16, true, false, false⟩ =
      (.ok [⟨c.cur, 16, .mem tg pa, se⟩], s2) →
    capStoreTrap ((s2.checkMem E.n E.k tg).tag pa) ((s2.checkMem E.n E.k tg).tag (pa + 8)) cb c.cur = none →
    s2.breakAt E.n 2 c.cur 16 = none → (s2.ctx E.n E.k).tx.state = .none →
    (((s2.ctx E.n E.k).covers c.cur 16 true = false → Straight s3 E →
      ∃ u, exec (.stcondc h t cb pd) s = .next u ∧ Goes (s3.unreserve E.n E.k) u E (Claims.predWrite pd false)) ∧
    ((s2.ctx E.n E.k).covers c.cur 16 true = true →
      Straight ((s3.perform E [put]).drain E.n) E →
      ∃ u, exec (.stcondc h t cb pd) s = .next u ∧
        Goes (((s3.perform E [put]).drain E.n).unreserve E.n E.k) u E (Claims.predWrite pd true))))

/-- R152, R153: the effective address and the updated cursor of each addressing mode, size being the access size. R52, R153: the checks of a
fetch or of an access, and the fetch itself, change no register, no byte and no tag of memory. -/
def Obligations.AddressesAndChecks : Prop :=
  (∀ (s : State) (E : Env) (h : Hdr) (m : MemOp) (size : Nat), m.payload < 256 → size ∈ [1, 2, 4, 8, 16] →
      let o := memOperand s E h m size
      let cur := (rdC s E 8 m.cb).cursor
      let step := BitVec.ofNat 64 ((m.payload + 1) * size)
      o.cap = rdC s E 8 m.cb ∧
      (m.am = 0 → h.wide = none → word o.ea = cur + (BitVec.ofNat 8 m.payload).signExtend 64 * BitVec.ofNat 64 size ∧ o.wb = none) ∧
      (∀ p, m.am = 0 → h.wide = some p →
        word o.ea = cur + (BitVec.ofNat 20 p ++ BitVec.ofNat 8 m.payload).signExtend 64 * BitVec.ofNat 64 size ∧ o.wb = none) ∧
      (m.am = 1 → word o.ea = cur + rdG s E 9 (m.payload / 8) <<< (m.payload % 8) ∧ o.wb = none) ∧
      (m.am = 2 → word o.ea = cur ∧ ∃ a, o.wb = some a ∧ word a = cur + step ∧ a < 2 ^ 64) ∧
      (m.am = 3 → word o.ea = cur - step ∧ o.wb = some o.ea) ∧ o.ea < 2 ^ 64) ∧
  (∀ (s : State) (E : Env) (a : Acc), Keeps s (fetch s E).2 ∧ Keeps s (resolve s E a).2 ∧ Keeps s (s.beginIssue E.n))

/-! ## Writes as their own context sees them, tag instructions, REP -/

/-- R282, R283: when the oldest entry of a P-core's store buffer is written to memory, the memory that the core's contexts see does not
change, whatever the buffer holds. R59, R60, R283: writes of a P-core that no transaction holds are seen by its contexts as the write rows
of R59 leave memory: a byte or a tag in no 16-byte granule that is written is as before, and so are every register and every other memory.
-/
def Obligations.WritesReachTheView : Prop :=
  (∀ (s : State) (n k : Nat) (t : Tgt), n < 48 →
      (s.drainOne n).viewMem n k t = s.viewMem n k t ∧ (s.drain n).viewMem n k t = s.viewMem n k t ∧
        (s.drain n).memOf t = s.viewMem n k t) ∧
  (∀ (s : State) (E : Env) (p : Put), E.n < 48 → s.fate E p.va p.tgt p.se p.pa = .direct →
      (s.perform E [p]).viewMem E.n E.k p.tgt = (s.viewMem E.n E.k p.tgt).applyOps p.ops ∧
      (∀ t, t ≠ p.tgt → (s.perform E [p]).viewMem E.n E.k t = s.viewMem E.n E.k t) ∧
      (∀ l, (s.perform E [p]).held E.n E.k l = s.held E.n E.k l) ∧
      ((∀ o, o ∈ p.ops → o.addr % 8 = 0) → ∀ b, (∀ o, o ∈ p.ops → o.addr / 16 ≠ b / 16) →
        ((s.perform E [p]).viewMem E.n E.k p.tgt).byte b = (s.viewMem E.n E.k p.tgt).byte b ∧
        ((s.perform E [p]).viewMem E.n E.k p.tgt).tag b = (s.viewMem E.n E.k p.tgt).tag b))

/-- R57, R197: GETTAG gives the tag of the word at its address, of a word whose tag is none of the reserved ones. R63, R197, R313, R314:
CLEARTAG and CLEARTAGP over a range within one line write zero with their tag to every word of it, with no check of the tags but RETREC and
the reserved ones, set MPROG to zero, and go on; with a count of zero they write nothing. -/
def Obligations.TagInstructionResults : Prop :=
  (∀ (h : Hdr) (t : Nat) (m : MemOp) (s s1 s2 : State) (E : Env) (tg : Tgt) (pa : Nat) (se : Bool),
      Issued s (.gettag h t m) E s1 →
      let o := memOperand s1 E h m 8
      resolve s1 E ⟨o.cap, m.cb, o.ea, 8, kLOAD, pm pLOAD, 0, 8, false, false, true⟩ = (.ok [⟨o.ea, 8, .mem tg pa, se⟩], s2) →
      (s2.ctxMem E.n E.k tg).tag pa < 7 → s2.breakAt E.n 1 o.ea 8 = none →
      let s3 := (s2.beforeLoad E [⟨o.ea, 8, .mem tg pa, se⟩]).noteFar E [⟨o.ea, 8, .mem tg pa, se⟩]
      Straight s3 E →
      ∃ u, exec (.gettag h t m) s = .next u ∧
        Goes s3 u E [(gprLoc s3 E t, .w (BitVec.ofNat 64 ((s2.ctxMem E.n E.k tg).tag pa)))]) ∧
  (∀ p, p ∈ Claims.clears → ∀ (h : Hdr) (t cb : Nat) (s s1 : State) (E : Env), Issued s (p.1 h t cb) E s1 →
      let s2 := routineState (p.2.1 t cb) E s1
      let after := afterRoutine (p.2.1 t cb) E s1
      let c := rdC s2 E 8 cb
      let count := (rdG s2 E 0 t).toNat
      let a := Claims.clearAcc c cb count p.2.2.2
      resumePoint s2 E p.2.2.1 = 0 → capCheck s2 E a = none → (p.2.2.2 = tPOISON → seeSup s2 E = true) → c.cur % 8 = 0 →
      count % 8 = 0 →
      (count = 0 → Straight (after (s2.progressEnd E)) E →
        ∃ u, exec (p.1 h t cb) s = .next u ∧ Goes (after (s2.progressEnd E)) u E []) ∧
      (∀ (s3 : State) (tg : Tgt) (pa : Nat) (se : Bool),
        0 < count → c.cur / 64 = (c.cur + count - 1) / 64 → boundsCheck c cb c.cur count = none → (s2.ctx E.n E.k).tx.state = .none →
        chunkAt (s2.patience E).2 E a c.cur count = (.ok [⟨c.cur, count, .mem tg pa, se⟩], s3) →
        (∀ w, w ∈ wordsOf pa count → (s3.checkMem E.n E.k tg).tag w < 7 ∧
          ((s3.checkMem E.n E.k tg).tag w = tRETREC → c.has pSYS = true ∧ seeSup s2 E = true)) →
        s3.breakAt E.n 2 c.cur count = none →
        let cs : List Chunk := [⟨c.cur, count, .mem tg pa, se⟩]
        let puts : List Put := [⟨c.cur, tg, se, (wordsOf pa count).map (fun w => ⟨w, 0xFF, 0, .raw p.2.2.2⟩)⟩]
        let s4 := after (((s3.perform E puts).sampleFar E (s3.farStores E cs)).progressEnd E)
        Straight s4 E → ∃ u, exec (p.1 h t cb) s = .next u ∧ Goes s4 u E []))

/-- R164, R168: an element of a REP instruction that its own execution completes decrements RPT.COUNT; the instruction goes on when the
count reaches zero and stays at its address otherwise; every register but RPT and everything outside the cores is as the element's own
execution left it. R164: a REP element with RPT.COUNT zero, or with a false guard, runs nothing: the instruction goes on with no register
and nothing outside the cores changed. -/
def Obligations.RepResults : Prop :=
  (∀ (h : Hdr) (i : Instr) (d : InsDef) (s s1 u : State) (E : Env),
      insOf i = some (h, d) → RepReaches s h d E s1 →
      d.run E (elementState d E s1) = .done u false →
      let v := afterElement d E s1 u
      (v.core E.n).resets = (s1.core E.n).resets → v.pc E.n E.k = E.pc → seeSr v E nRPT = seeSr s1 E nRPT → Straight v E →
      let left := fld (seeSr s1 E nRPT) 31 0 - 1
      ∃ t, exec (.repElement h i) s = .next t ∧
        t.held E.n E.k (.sr nRPT) = .w (BitVec.ofNat 64 left) ∧ t.pc E.n E.k = (if left = 0 then nextPc E else E.pc) ∧
        (∀ l : Loc, l.canon ≠ .c 15 → l ≠ .sr nRPT → t.held E.n E.k l = v.held E.n E.k l) ∧
        t.ctx E.n (other E.k) = v.ctx E.n (other E.k) ∧ (∀ m, m ≠ E.n → t.core m = v.core m) ∧ t.outside = v.outside) ∧
  (∀ (h : Hdr) (i : Instr) (d : InsDef) (s s1 : State) (E : Env),
      insOf i = some (h, d) → h.wf = true → h.wide = none → E = mkEnv s h d true → Fetches s E s1 →
      s1.breakAt E.n 0 E.pc E.len = none → d.reserved = false → d.repOk = true → (h.pred = 0 → h.inv = false) → Straight s1 E →
      ((rdP s1 E 63 h.pred = h.inv ∧ (s1.ctx E.n E.k).inRep = false) ∨ fld (seeSr s1 E nRPT) 31 0 = 0) →
      ∃ t, exec (.repElement h i) s = .next t ∧ Goes s1 t E [])

/-- R64, R197, R198: an element of CPYT that copies one data word writes it with its tag, moves both cursors on by 8, and counts one
element; MPROG records the progress, or is zero when the last element is done. -/
def Obligations.CpytCopiesAWord : Prop :=
  ∀ (h : Hdr) (cs cb : Nat) (s s1 s3 s4 : State) (E : Env) (t dt : Tgt) (pa dpa : Nat) (se de : Bool),
    RepReaches s h (insCpyt cs cb) E s1 → cs ≠ cb →
    let s2 := elementState (insCpyt cs cb) E s1
    let src := rdC s2 E 0 cs
    let dst := rdC s2 E 8 cb
    let count := fld (seeSr s2 E nRPT) 31 0
    let a : Acc := ⟨src, cs, src.cur, 8 * count, kLOAD, pm pLOAD, 0, 0, false, false, false⟩
    let b : Acc := ⟨dst, cb, dst.cur, 8 * count, kSTORE, pm pSTORE, 0, 0, false, false, false⟩
    fld (seeSr s1 E nRPT) 31 0 = count →
    capCheck s2 E a = none → capCheck s2 E b = none → src.cur % 8 = 0 → dst.cur % 8 = 0 → src.cur % 16 = dst.cur % 16 →
    boundsCheck src cs src.cur (8 * count) = none → boundsCheck dst cb dst.cur (8 * count) = none →
    chunkAt s2 E { a with size := 8 } src.cur 8 = (.ok [⟨src.cur, 8, .mem t pa, se⟩], s3) →
    chunkAt s3 E { b with size := 8 } dst.cur 8 = (.ok [⟨dst.cur, 8, .mem dt dpa, de⟩], s4) →
    (chunkAt s1 E { a with size := 8 } src.cur 8).1 = .ok [⟨src.cur, 8, .mem t pa, se⟩] →
    rdC s1 E 0 cs = src →
    ((s4.ctxMem E.n E.k t).tag pa = tINT ∨ (s4.ctxMem E.n E.k t).tag pa = tFLT) →
    (s1.ctxMem E.n E.k t).tag pa = (s4.ctxMem E.n E.k t).tag pa →
    (s4.checkMem E.n E.k dt).tag dpa < 7 → (s4.checkMem E.n E.k dt).tag dpa ≠ tRETREC →
    s4.breakAt E.n 1 src.cur 8 = none → s4.breakAt E.n 2 dst.cur 8 = none → (s4.ctx E.n E.k).tx.state = .none →
    let ops : List WOp := [⟨dpa, 0xFF, (s4.ctxMem E.n E.k t).word pa, .raw ((s4.ctxMem E.n E.k t).tag pa)⟩]
    let s5 := afterElement (insCpyt cs cb) E s1 (((s4.noteFar E [⟨src.cur, 8, .mem t pa, se⟩]).perform E
      [⟨dst.cur, dt, de, ops⟩]).sampleFar E (s4.farStores E [⟨dst.cur, 8, .mem dt dpa, de⟩]))
    Straight s5 E → s5.pc E.n E.k = E.pc → seeSr s5 E nRPT = seeSr s2 E nRPT →
    ∃ u, exec (.cpyt h true cs cb) s = .next u ∧
      u.held E.n E.k (.c cs) = .c (src.setCursor ((src.cur + 8) % 2 ^ 64)) ∧
      u.held E.n E.k (.c cb) = .c (dst.setCursor ((dst.cur + 8) % 2 ^ 64)) ∧
      u.held E.n E.k (.sr nRPT) = .w (BitVec.ofNat 64 (count - 1)) ∧
      u.pc E.n E.k = (if count = 1 then nextPc E else E.pc) ∧
      (∀ l : Loc, l.canon ≠ .c 15 → l ≠ .c cs → l ≠ .c cb → l ≠ .sr nRPT → l ≠ .sr nMPROG → u.held E.n E.k l = s5.held E.n E.k l) ∧
      u.outside = s5.outside

/-! ## Issue: guards, causes at decode, exception entry and return -/

/-- R142: an instruction whose guard is false goes on and writes nothing, whatever level or vector state it needs. R42, R150, R227, R262: a
reserved encoding raises RESERVED_OP with the instruction and prefix words; of an instruction whose guard holds, a vector instruction with
VSTATE.ON clear raises VLAZY, and then a privileged one raises PRIV at user level or without SYS. -/
def Obligations.GuardsAndCausesAtDecode : Prop :=
  (∀ (h : Hdr) (i : Instr) (d : InsDef) (s s1 : State) (E : Env), insOf i = some (h, d) → Decodes s h d E s1 →
      rdP s1 E 63 h.pred = h.inv → Straight s1 E → ∃ t, exec i s = .next t ∧ Goes s1 t E []) ∧
  ((∀ (h : Hdr) (i : Instr) (d : InsDef) (s s1 : State) (E : Env), insOf i = some (h, d) → h.wf = true →
      E = mkEnv s h d false → Fetches s E s1 → s1.breakAt E.n 0 E.pc E.len = none →
      (d.reserved = true ∨ (h.pred = 0 ∧ h.inv = true) ∨ (h.wide.isSome = true ∧ d.wideOk = false)) →
      exec i s = .next (s1.fail E ⟨0x01, E.ins + E.pfx * 2 ^ 32, 0, 0⟩)) ∧
    (∀ (h : Hdr) (i : Instr) (d : InsDef) (s s1 : State) (E : Env), insOf i = some (h, d) → Decodes s h d E s1 →
      rdP s1 E 63 h.pred = !h.inv →
      (d.vector = true → fld (seeSr s1 E nVSTATE) 0 0 = 0 → exec i s = .next (s1.fail E ⟨0x12, 0, 0, 0⟩)) ∧
      ((d.vector = true → fld (seeSr s1 E nVSTATE) 0 0 = 1) → d.priv = true → ¬ Claims.Privileged s1 E →
        exec i s = .next (s1.fail E ⟨0x09, 0, 0, 0⟩))))

/-- R244, R245, R243: a cause, MC_CSPARITY apart, raised at the instruction of E, nothing masking it, saves the address of the instruction in EPC, STATUS in
ESTATUS, the level and world in ECEIL, and the cause in ECAUSE, EINFO, EADDR and EELEM of bank E; it sets EXL and SUP, clears IE, and goes
on at the entry capability of the world and the level interrupted. The reservation ends; no other register, no other context or core, and
nothing outside the cores changes. -/
def Obligations.ExceptionEntry : Prop :=
  ∀ (s : State) (E : Env) (c : Trap), Enters s E → E.k < 2 → c.code ≠ ecMC_CSPARITY →
    let t := s.fail E c
    let st := (s.ctx E.n E.k).status
    let b := (t.core E.n).bankE
    b.r nEPC = BitVec.ofNat 64 E.pc ∧ b.r nESTATUS = st ∧
    b.r nECEIL = (BitVec.ofBool (st.getLsbD 1) ++ BitVec.ofBool (st.getLsbD 0)).setWidth 64 ∧
    b.r nECAUSE = BitVec.ofNat 64 c.code ∧ b.r nEINFO = BitVec.ofNat 64 c.info ∧ b.r nEADDR = BitVec.ofNat 64 c.addr ∧
    b.r nEELEM = BitVec.ofNat 64 c.elem ∧
    (t.ctx E.n E.k).status = (st ||| 5) &&& ~~~16 ∧ (t.core E.n).inUse = 1 ∧
    t.pcc E.n E.k = s.entryCap (st.getLsbD 1) (st.getLsbD 0) ∧ (t.ctx E.n E.k).resv = none ∧
    (∀ l : Loc, (∀ r, l ≠ .bank 1 r ∧ (∀ k, k ≠ 2 → l ≠ .bank k r)) → l ≠ .sr nSTATUS → l ≠ .core 99 →
      t.held E.n E.k l = s.held E.n E.k l) ∧
    t.ctx E.n (other E.k) = s.ctx E.n (other E.k) ∧ (∀ m, m ≠ E.n → t.core m = s.core m) ∧ t.outside = s.outside

/-- R119, R244: an instruction that completes while STATUS.SS is set on a core of the open world is followed by the entry of DEBUG_STEP,
whose EPC is the address of the next instruction. -/
def Obligations.SingleStepFollowsCompletion : Prop :=
  ∀ p, p ∈ Claims.reg2 → ∀ (h : Hdr) (rd ra rb : Nat) (s s1 : State) (E : Env),
    Issued s (p.1 h rd ra rb) E s1 → NoLoopEnd s1 E → stSS (s1.ctx E.n E.k).status = true → s1.coreWorld E.n = false →
    s1.csTrap E.n (some rtENTRY) = none → (s1.ctx E.n E.k).flights = [] →
    stEXL (s1.ctx E.n E.k).status = false → stEXL (s1.ctx E.n (other E.k)).status = false →
    ∃ t, exec (p.1 h rd ra rb) s = .next t ∧ ((t.core E.n).bankE.r nECAUSE) = 0x16 ∧
      ((t.core E.n).bankE.r nEPC) = BitVec.ofNat 64 (nextPc E) ∧ (t.core E.n).inUse = 1 ∧
      t.pcc E.n E.k = s1.entryCap (stWORLD (s1.ctx E.n E.k).status) (stSUP (s1.ctx E.n E.k).status)

/-! ## Branches, calls, loops and levels -/

/-- R157, R199, R200: BR, JMP and JMPX go on at their target and write nothing; JMP takes the target as program-counter capability. R78,
R112, R199: CALL and CALLC push a record of the context number, the depth and the return address, increase WDEPTH and go on at their target.
s2 is the machine after the checks of the push, p what they give. -/
def Obligations.JumpAndCallResults : Prop :=
  ((∀ (h : Hdr) (off : Nat) (s s1 : State) (E : Env), Issued s (.br h off) E s1 → NoStep s1 E →
      ∃ t, exec (.br h off) s = .next t ∧
        Ends s1 t E [] (BitVec.ofNat 64 E.pc + Claims.branchBytes off).toNat (s1.core E.n).divBusy) ∧
    (∀ (h : Hdr) (ca : Nat) (s s1 : State) (E : Env), Issued s (.jmp h ca) E s1 → NoStep s1 E → Claims.Target s1 E (rdC s1 E 0 ca) →
      ∃ t, exec (.jmp h ca) s = .next t ∧ Ends s1 t E [] (rdC s1 E 0 ca).cur (s1.core E.n).divBusy ∧
        t.pcc E.n E.k = rdC s1 E 0 ca) ∧
    (∀ (h : Hdr) (src : Nat) (s s1 : State) (E : Env), Issued s (.jmpx h src) E s1 → NoStep s1 E → E.pc % 4 = 0 →
      ∃ t, exec (.jmpx h src) s = .next t ∧
        Ends s1 t E [] (BitVec.ofNat 64 E.pc + rdG s1 E 0 src <<< 2).toNat (s1.core E.n).divBusy)) ∧
  ((∀ (h : Hdr) (off : Nat) (s s1 s2 : State) (E : Env) (p : PushAt), Issued s (.call h off) E s1 → seeDepth s1 E < 16 →
      pushCheck s1 E 16 = .ok p s2 → NoStep s2 E →
      let ctl := (seeSr s2 E nCTXID).toNat % 2 ^ 16 * 2 ^ 32 + seeDepth s1 E * 2 ^ 16 + 1
      ∃ t, exec (.call h off) s = .next t ∧
        Ends (s2.push E p [ctl, nextPc E]) t E [(.sr nWDEPTH, .w (BitVec.ofNat 64 (seeDepth s1 E + 1)))]
          (BitVec.ofNat 64 E.pc + Claims.branchBytes off).toNat (s2.core E.n).divBusy) ∧
    (∀ (h : Hdr) (ca : Nat) (s s1 s2 : State) (E : Env) (p : PushAt), Issued s (.callc h ca) E s1 → seeDepth s1 E < 16 →
      Claims.Target s1 E (rdC s1 E 0 ca) → pushCheck s1 E 16 = .ok p s2 → NoStep s2 E →
      let ctl := (seeSr s2 E nCTXID).toNat % 2 ^ 16 * 2 ^ 32 + seeDepth s1 E * 2 ^ 16 + 1
      ∃ t, exec (.callc h ca) s = .next t ∧
        Ends (s2.push E p [ctl, nextPc E]) t E [(.sr nWDEPTH, .w (BitVec.ofNat 64 (seeDepth s1 E + 1)))]
          (rdC s1 E 0 ca).cur (s2.core E.n).divBusy ∧ t.pcc E.n E.k = rdC s1 E 0 ca))

/-- R78, R83: a push of a P-core leaves each word of the record in memory with tag RETREC, as the core's contexts see it, and the cursor of
RSTK at the record; every byte and tag in no 16-byte granule of the record is as before. R79, R80, R81, R199: RET through a record of a
call, its checks passed, clears the record, moves RSTK past it, decreases WDEPTH and goes on at the return address of the record. R79-R82,
R199: RET through a record of a gate of this node, its checks passed, moves RSTK past it, decreases WDEPTH, clears the registers a gate
clears, takes c7 and c14 from the record, keeps c1 to c6, and goes on at the program-counter capability of the record. -/
def Obligations.ReturnRecordResults : Prop :=
  (∀ (s : State) (E : Env) (p : PushAt) (ws : List Nat) (t : Tgt) (pa : Nat) (se : Bool), E.n < 48 → pa % 16 = 0 →
      p.cs = [⟨p.addr, 8 * ws.length, .mem t pa, se⟩] → (∀ w, w ∈ ws → w < 2 ^ 64) → (s.viewMem E.n E.k t).wf = true →
      (s.push E p ws).held E.n E.k (.csr nRSTK) = .c (p.rstk.setCursor p.addr) ∧
      (∀ i, i < ws.length → ((s.push E p ws).viewMem E.n E.k t).word (pa + 8 * i) = ws.getD i 0 ∧
        ((s.push E p ws).viewMem E.n E.k t).tag (pa + 8 * i) = tRETREC) ∧
      (∀ b, b / 16 < pa / 16 ∨ (pa + 8 * ws.length - 1) / 16 < b / 16 →
        ((s.push E p ws).viewMem E.n E.k t).byte b = (s.viewMem E.n E.k t).byte b ∧
        ((s.push E p ws).viewMem E.n E.k t).tag b = (s.viewMem E.n E.k t).tag b)) ∧
  (∀ (h : Hdr) (s s1 s3 s4 s5 : State) (E : Env) (t : Tgt) (pa ctl ret : Nat) (se : Bool), Issued s (.ret h) E s1 →
      let s2 := routineState insRet E s1
      let d := seeDepth s2 E
      let r := seeCsr s2 E nRSTK
      let cs : List Chunk := [⟨r.cur, 16, .mem t pa, se⟩]
      let acc := fun (kind perm : Nat) => routineAcc r 0 r.cur 16 kind (pm perm)
      0 < d → rstkBad r = false → r.base ≤ r.cur → r.cur + 16 ≤ r.top →
      resolve s2 E (acc kLOAD pLOAD) = (.ok cs, s3) → resolve s3 E (acc kLOAD pLOAD) = (.ok cs, s4) →
      resolve s4 E (acc kSTORE pSTORE) = (.ok cs, s5) →
      rawWords s3 E 0 r.cur cs = .ok [(ctl, tRETREC), (ret, tRETREC)] →
      rawWords s4 E 0 r.cur cs = .ok [(ctl, tRETREC), (ret, tRETREC)] →
      bits ctl 1 0 = 1 → bits ctl 47 32 = fld (seeSr s4 E nCTXID) 15 0 → bits ctl 20 16 = d - 1 → ret < 2 ^ 64 → NoStep s5 E →
      ∃ u, exec (.ret h) s = .next u ∧
        Ends (afterRoutine insRet E s1
            ((writeRaw (s5.noteFar E cs) E r.cur cs [(0, tUNINIT), (0, tUNINIT)]).hwCsr E nRSTK (r.setCursor (r.cur + 16)))) u E
          [(.sr nWDEPTH, .w (BitVec.ofNat 64 (d - 1)))] ret (s5.core E.n).divBusy) ∧
  (∀ (h : Hdr) (s s1 s3 s4 s5 : State) (E : Env) (c1 c2 c3 : List Chunk) (head : Nat) (ws : List Nat), Issued s (.ret h) E s1 →
      let s2 := routineState insRet E s1
      let d := seeDepth s2 E
      let r := seeCsr s2 E nRSTK
      let acc := fun (size kind perm : Nat) => routineAcc r 0 r.cur size kind (pm perm)
      let w := fun (i : Nat) => ws.getD i 0
      0 < d → rstkBad r = false → r.base ≤ r.cur → r.cur + 64 ≤ r.top →
      resolve s2 E (acc 16 kLOAD pLOAD) = (.ok c1, s3) → resolve s3 E (acc 64 kLOAD pLOAD) = (.ok c2, s4) →
      resolve s4 E (acc 64 kSTORE pSTORE) = (.ok c3, s5) →
      rawWords s3 E 0 r.cur c1 = .ok [(w 0, tRETREC), (head, tRETREC)] → rawWords s4 E 0 r.cur c2 = .ok (ws.map (fun x => (x, tRETREC))) →
      ws.length = 8 → bits (w 0) 1 0 = 2 → bits (w 0) 47 32 = fld (seeSr s4 E nCTXID) 15 0 → bits (w 0) 20 16 = d - 1 → w 7 = r.cur →
      NoStep s5 E →
      ∃ u, exec (.ret h) s = .next u ∧ u.pcc E.n E.k = ⟨BitVec.ofNat 64 (w 1), BitVec.ofNat 64 (w 2), true⟩ ∧
        u.held E.n E.k (.c 7) = .c ⟨BitVec.ofNat 64 (w 3), BitVec.ofNat 64 (w 4), (BitVec.ofNat 64 (w 0)).getLsbD 4⟩ ∧
        u.held E.n E.k (.c 14) = .c ⟨BitVec.ofNat 64 (w 5), BitVec.ofNat 64 (w 6), (BitVec.ofNat 64 (w 0)).getLsbD 5⟩ ∧
        u.held E.n E.k (.sr nWDEPTH) = .w (BitVec.ofNat 64 (d - 1)) ∧ u.held E.n E.k (.csr nRSTK) = .c (r.setCursor (r.cur + 64)) ∧
        (∀ g, u.held E.n E.k (.g g) = .w 0) ∧ (∀ q, 0 < q → u.held E.n E.k (.p q) = .b false) ∧
        (∀ c, c = 0 ∨ (8 ≤ c ∧ c ≤ 13) → u.held E.n E.k (.c c) = .c Cap.null) ∧
        (∀ c, 1 ≤ c → c ≤ 6 → u.held E.n E.k (.c c) = s5.held E.n E.k (.c c)) ∧
        (∀ v, u.held E.n E.k (.v v) = if (BitVec.ofNat 64 (w 0)).getLsbD 8 then .v 0 else s5.held E.n E.k (.v v)))

/-- R75-R77, R82, R213: PASS and PASSR through a gate of this node, their checks passed, push a record of the gate kind, clear the
registers a gate clears, give the callee the gate's data capability in c7 and an untagged c14, increase WDEPTH and go on at the gate's
code. -/
def Obligations.PassResults : Prop :=
  ∀ q, q ∈ ([(.pass, false), (.passr, true)] : List ((Hdr → Nat → Instr) × Bool)) →
    ∀ (h : Hdr) (ca : Nat) (s s1 s3 s4 : State) (E : Env) (t : Tgt) (pa : Nat) (se : Bool) (ws : List (Nat × Nat)) (d : Gate)
    (p : PushAt),
    Issued s (q.1 h ca) E s1 →
    let s2 := routineState (insPass ca) E s1
    let g := rdC s2 E 0 ca
    let cs : List Chunk := [⟨g.cur, 64, .mem t pa, se⟩]
    g.valid = true → g.otype = otGATE → g.has pPASS = true → g.has pDEVICE = false →
    (g.world = true → (s2.ctx E.n E.k).world = true) → g.cur % 64 = 0 → boundsCheck g ca g.cur 64 = none →
    chunkAt s2 E ⟨g, ca, g.cur, 16, kLOAD, 0, 0, 0, false, false, true⟩ g.cur 64 = (.ok cs, s3) →
    ctxWords s3 E ca g.cur cs = .ok ws → gateTags ws ca g.cur = none → gateOf ws ca g.cur ((s3.ctx E.n E.k).world) = .ok d →
    (q.2 = true → d.ro = true) → seeDepth s3 E < 16 → pushCheck (s3.noteFar E cs) E 64 = .ok p s4 → d.code.cur % 4 = 0 → NoStep s4 E →
    ∃ u, exec (q.1 h ca) s = .next u ∧ u.pcc E.n E.k = d.code ∧ u.held E.n E.k (.c 7) = .c d.data ∧ u.held E.n E.k (.c 14) = .c Cap.null ∧
      u.held E.n E.k (.sr nWDEPTH) = .w (BitVec.ofNat 64 (seeDepth s3 E + 1)) ∧
      u.held E.n E.k (.csr nRSTK) = .c (p.rstk.setCursor p.addr) ∧ (∀ r, u.held E.n E.k (.g r) = .w 0) ∧
      (∀ q, 0 < q → u.held E.n E.k (.p q) = .b false) ∧ (∀ c, c = 0 ∨ (8 ≤ c ∧ c ≤ 13) → u.held E.n E.k (.c c) = .c Cap.null) ∧
      (∀ c, 1 ≤ c → c ≤ 6 → u.held E.n E.k (.c c) = s4.held E.n E.k (.c c)) ∧
      (∀ v, u.held E.n E.k (.v v) = if d.vclr then .v 0 else s4.held E.n E.k (.v v))

/-- R159: LOOP sets the start, end and count of its level, and goes on at the body, or past it when the count is zero. R160: an instruction
that completes without a taken transfer goes on where the loop-end check says, with the counts as the check leaves them; no loop register is
in flight. -/
def Obligations.HardwareLoopResults : Prop :=
  (∀ (h : Hdr) (lvl : Nat) (imm : Bool) (len count : Nat) (s s1 : State) (E : Env), lvl < 4 → len < 1024 → E.pc % 4 = 0 →
      E.pc + 4 * 1025 < 2 ^ 64 → Issued s (.loop h lvl imm len count) E s1 → Straight s1 E → (s1.ctx E.n E.k).flights = [] →
      let n := if imm then count else (rdG s1 E 0 (count / 16)).toNat % 2 ^ 32
      let last := E.pc + 4 * (len + 1)
      ∃ t, exec (.loop h lvl imm len count) s = .next t ∧
        Ends s1 t E [(.sr (nLSTART + lvl), .w (BitVec.ofNat 64 (E.pc + 4))), (.sr (nLEND + lvl), .w (BitVec.ofNat 64 last)),
          (.sr (nLCOUNT + lvl), .w (BitVec.ofNat 64 n))] (if n = 0 then last + 4 else E.pc + 4) (s1.core E.n).divBusy) ∧
  (∀ p, p ∈ Claims.reg2 → ∀ (h : Hdr) (rd ra rb : Nat) (s s1 : State) (E : Env),
      Issued s (p.1 h rd ra rb) E s1 → NoStep s1 E → (s1.ctx E.n E.k).flights = [] →
      let r := fun (b : Nat) (i : Nat) => (s1.ctx E.n E.k).srv (b + i)
      let out := Claims.loopNext E.endAddr (fun i => (r nLSTART i).toNat / 4 * 4) (fun i => (r nLEND i).toNat / 4 * 4)
        (fun i => (r nLCOUNT i).toNat % 2 ^ 32) 4
      ∃ t, exec (p.1 h rd ra rb) s = .next t ∧ t.pc E.n E.k = out.1 % 2 ^ 64 ∧
        ∀ i, i < 4 → (t.ctx E.n E.k).srv (nLCOUNT + i) =
          if out.2 i = (r nLCOUNT i).toNat % 2 ^ 32 then (s1.ctx E.n E.k).srv (nLCOUNT + i) else BitVec.ofNat 64 (out.2 i))

/-- R217, R240, R255: ERET at supervisor level in a handler on bank E takes SUP, GM and IE from ESTATUS, clears EXL, releases the bank with
its registers kept, and goes on at EPC; the reservation ends. R84-R86: ASCEND at user level goes on at ASC.ENTRY with SUP set and keeps the
return in ASC.RET; DESCEND at supervisor level goes on at ASC.RET with SUP clear; each exchanges c14 with ASC.STACK and RSTK with ASC.RSTK.
-/
def Obligations.LevelChangesAndEret : Prop :=
  (∀ (h : Hdr) (s s1 : State) (E : Env), Issued s (.eret h) E s1 →
      stSUP (s1.seenStatus E.n E.k) = true → stEXL (s1.seenStatus E.n E.k) = true → s1.seenInUse E.n E.k ≠ 2 →
      let es := s1.seenBank E.n E.k 1 nESTATUS
      let ceil := (s1.core E.n).bankE.r nECEIL
      let st := (s1.ctx E.n E.k).status
      (stSUP es = true → ceil.getLsbD 0 = true) → stWORLD es = ceil.getLsbD 1 → NoStep s1 E →
      ∃ t, exec (.eret h) s = .next t ∧
        (t.ctx E.n E.k).status = (st &&& ~~~0x1D) ||| (es &&& 0x19) ∧ (t.core E.n).inUse = 0 ∧
        t.pc E.n E.k = (s1.seenBank E.n E.k 1 nEPC).toNat ∧ (t.ctx E.n E.k).resv = none ∧
        (∀ r, (t.core E.n).bankE.r r = (s1.core E.n).bankE.r r) ∧ (∀ l : Loc, l.canon ≠ .c 15 → l ≠ .sr nSTATUS → l ≠ .core 99 →
          t.held E.n E.k l = s1.held E.n E.k l) ∧ (∀ tg, (s1.drain E.n).memOf tg = t.memOf tg)) ∧
  ((∀ (h : Hdr) (s s1 : State) (E : Env), Issued s (.ascend h) E s1 → seeSup s1 E = false →
      let e := seeCsr s1 E nASCENTRY
      e.valid = true → e.has pEXEC = true → e.world = (s1.ctx E.n E.k).world → e.cur % 4 = 0 → NoStep s1 E →
      ∃ t, exec (.ascend h) s = .next t ∧ t.pcc E.n E.k = e ∧
        (t.ctx E.n E.k).status = (s1.ctx E.n E.k).status ||| 1 ∧
        t.held E.n E.k (.csr nASCRET) = .c ((s1.pcc E.n E.k).setCursor (nextPc E)) ∧
        t.held E.n E.k (.c 14) = .c (seeCsr s1 E nASCSTACK) ∧ t.held E.n E.k (.csr nASCSTACK) = .c (rdC s1 E 1 14) ∧
        t.held E.n E.k (.csr nRSTK) = .c (seeCsr s1 E nASCRSTK) ∧ t.held E.n E.k (.csr nASCRSTK) = .c (seeCsr s1 E nRSTK) ∧
        (∀ l : Loc, l.canon ≠ .c 15 → l ∉ [.sr nSTATUS, .csr nASCRET, .c 14, .csr nASCSTACK, .csr nRSTK, .csr nASCRSTK] →
          t.held E.n E.k l = s1.held E.n E.k l) ∧ t.outside = s1.outside) ∧
    (∀ (h : Hdr) (s s1 : State) (E : Env), Issued s (.descend h) E s1 → seeSup s1 E = true →
      let e := seeCsr s1 E nASCRET
      e.valid = true → e.has pEXEC = true → e.world = (s1.ctx E.n E.k).world → e.cur % 4 = 0 → NoStep s1 E →
      ∃ t, exec (.descend h) s = .next t ∧ t.pcc E.n E.k = e ∧
        (t.ctx E.n E.k).status = (s1.ctx E.n E.k).status &&& ~~~1 ∧
        t.held E.n E.k (.c 14) = .c (seeCsr s1 E nASCSTACK) ∧ t.held E.n E.k (.csr nASCSTACK) = .c (rdC s1 E 1 14) ∧
        t.held E.n E.k (.csr nRSTK) = .c (seeCsr s1 E nASCRSTK) ∧ t.held E.n E.k (.csr nASCRSTK) = .c (seeCsr s1 E nRSTK) ∧
        (∀ l : Loc, l.canon ≠ .c 15 → l ∉ [.sr nSTATUS, .c 14, .csr nASCSTACK, .csr nRSTK, .csr nASCRSTK] →
          t.held E.n E.k l = s1.held E.n E.k l) ∧ t.outside = s1.outside))

/-! ## State registers -/

/-- R116, R202: MFS, by number or by a register that holds the number, gives the register it names: of the context at any level, of the core
and of the bank in use with supervisor level and SYS, of the bank only while EXL is set; MFSC gives a capability state register. R115-R120,
R202: MTS replaces the RW bits of the register it names, with supervisor level and SYS, or at any level for RPT, the loop registers and
ECEIL, whose bits none is RW; MTSC replaces a capability state register whole. No hardware loop may end at the instruction before or after
the write. R119, R242: MTS of STATUS takes IE and GM from its source, clears SUP under DSUP and EXL under DEXL, and changes no other bit;
when EXL was set and is cleared, the bank in use is released and its handler capability, at the next instruction, becomes c15. -/
def Obligations.StateRegisterResults : Prop :=
  ((∀ (h : Hdr) (num rd rn n : Nat) (s s1 : State) (E : Env), Issued s (.mfs h num rd rn) E s1 → Straight s1 E →
      stateNum s1 E num rn = some n →
      ((n = nSTATUS ∨ n ∈ Claims.contextSr.map Prod.fst) →
        ∃ t, exec (.mfs h num rd rn) s = .next t ∧ Goes s1 t E [(gprLoc s1 E rd, .w (seeSr s1 E n))]) ∧
      (n ∈ Claims.coreSr.map Prod.fst → Claims.Privileged s1 E →
        ∃ t, exec (.mfs h num rd rn) s = .next t ∧ Goes s1 t E [(gprLoc s1 E rd, .w (seeCoreSr s1 E n))]) ∧
      (n ∈ Claims.bankSr.map Prod.fst → Claims.Privileged s1 E → stEXL (seeStatus s1 E) = true →
        ∃ t, exec (.mfs h num rd rn) s = .next t ∧
          Goes s1 t E [(gprLoc s1 E rd, .w (s1.seenBank E.n E.k (s1.seenInUse E.n E.k) n))])) ∧
    (∀ (h : Hdr) (num cd : Nat) (s s1 : State) (E : Env), Issued s (.mfsc h num cd) E s1 → Straight s1 E →
      (num = nRSTK ∨ Claims.Privileged s1 E) →
      ∃ t, exec (.mfsc h num cd) s = .next t ∧ Goes s1 t E [(.c cd, .c (seeCsr s1 E num))])) ∧
  ((∀ (h : Hdr) (num src rn n : Nat) (m : Word) (s s1 : State) (E : Env), Issued s (.mts h num src rn) E s1 → Straight s1 E →
      stateNum s1 E num rn = some n → srReserved n (rdG s1 E 0 src) = false →
      (n ∈ Claims.userWrite ∨ Claims.Privileged s1 E) → (∀ u, writeSr s1 E n (rdG s1 E 0 src) = .ok u → Straight u E) →
      let v := rdG s1 E 0 src
      let s2 := s1.form E.n (.state n (.w v))
      ((n, m) ∈ Claims.contextSr → ∃ t, exec (.mts h num src rn) s = .next t ∧
        Goes s2 t E [(.sr n, .w (Claims.merged m ((s1.ctx E.n E.k).srv n) v))]) ∧
      ((n, m) ∈ Claims.coreSr → ∃ t, exec (.mts h num src rn) s = .next t ∧
        Goes s2 t E [(.core n, .w (Claims.merged m ((s1.core E.n).srv n) v))]) ∧
      ((n, m) ∈ Claims.bankSr → stEXL (seeStatus s1 E) = true → ∃ t, exec (.mts h num src rn) s = .next t ∧
        Goes s2 t E [(.bank (s1.seenInUse E.n E.k) n,
          .w (Claims.merged m (((s1.core E.n).bank (s1.seenInUse E.n E.k)).r n) v))])) ∧
    (∀ (h : Hdr) (num ca : Nat) (s s1 : State) (E : Env), Issued s (.mtsc h num ca) E s1 → Straight s1 E → Claims.Privileged s1 E →
      ∃ t, exec (.mtsc h num ca) s = .next t ∧ Goes (s1.form E.n (.state num (.c (rdC s1 E 0 ca)))) t E [(.csr num, .c (rdC s1 E 0 ca))])) ∧
  (∀ (h : Hdr) (src : Nat) (s s1 : State) (E : Env), Issued s (.mts h 0 src 0) E s1 → Straight s1 E → Claims.Privileged s1 E →
      (∀ u, writeSr s1 E 0 (rdG s1 E 0 src) = .ok u → Straight u E) →
      let v := rdG s1 E 0 src
      let old := (s1.ctx E.n E.k).status
      ∃ t, exec (.mts h 0 src 0) s = .next t ∧
        (t.ctx E.n E.k).status = ((old &&& ~~~0x18) ||| (v &&& 0x18)) &&& ~~~((if v.getLsbD 8 then 1 else 0) ||| (if v.getLsbD 9 then 4 else 0)) ∧
        (t.core E.n).inUse = (if v.getLsbD 9 ∧ stEXL old then 0 else (s1.core E.n).inUse) ∧
        t.pc E.n E.k = nextPc E ∧
        (∀ l : Loc, l.canon ≠ .c 15 → l ≠ .sr nSTATUS → l ≠ .core 99 → t.held E.n E.k l = s1.held E.n E.k l) ∧
        t.ctx E.n (other E.k) = s1.ctx E.n (other E.k) ∧ (∀ m, m ≠ E.n → t.core m = s1.core m) ∧ t.outside = s1.outside)

/-! ## Capabilities -/

/-- R37, R51, R209, R211: a derivation of a valid and unsealed source writes cd with its result; CTRIM and CTRIMX write the narrowed
capability when the request can be met; CCOPY and CVOID write their source without a check; a field read writes gd. -/
def Obligations.CapabilityDerivationResults : Prop :=
  (∀ p, p ∈ Claims.derive → ∀ (h : Hdr) (cd ca gs : Nat) (s s1 : State) (E : Env), Issued s (p.1 h cd ca gs) E s1 → Straight s1 E →
    (rdC s1 E 0 ca).valid = true → (rdC s1 E 0 ca).isSealed = false →
    ∃ t, exec (p.1 h cd ca gs) s = .next t ∧ Goes s1 t E [(.c cd, .c (p.2 (rdC s1 E 0 ca) (rdG s1 E 1 gs)))]) ∧
  (∀ q, q ∈ ([(.ctrim, false), (.ctrimx, true)] : List ((Hdr → Nat → Nat → Nat → Instr) × Bool)) →
    ∀ (h : Hdr) (cd ca gs : Nat) (s s1 : State) (E : Env) (r : Cap),
    Issued s (q.1 h cd ca gs) E s1 → Straight s1 E → (rdC s1 E 0 ca).valid = true → (rdC s1 E 0 ca).isSealed = false →
    (rdC s1 E 0 ca).trim (rdG s1 E 1 gs).toNat q.2 = some r → ∃ t, exec (q.1 h cd ca gs) s = .next t ∧ Goes s1 t E [(.c cd, .c r)]) ∧
  (∀ (h : Hdr) (cd ca : Nat) (s s1 : State) (E : Env), Issued s (.ccopy h cd ca) E s1 → Straight s1 E →
    ∃ t, exec (.ccopy h cd ca) s = .next t ∧ Goes s1 t E [(.c cd, .c (rdC s1 E 0 ca))]) ∧
  (∀ (h : Hdr) (cd ca : Nat) (s s1 : State) (E : Env), Issued s (.cvoid h cd ca) E s1 → Straight s1 E →
    ∃ t, exec (.cvoid h cd ca) s = .next t ∧ Goes s1 t E [(.c cd, .c { rdC s1 E 0 ca with tag := false })]) ∧
  (∀ p, p ∈ Claims.field → ∀ (h : Hdr) (ca gd : Nat) (s s1 : State) (E : Env), Issued s (p.1 h ca gd) E s1 → Straight s1 E →
    ∃ t, exec (p.1 h ca gd) s = .next t ∧ Goes s1 t E [(gprLoc s1 E gd, .w (p.2 (rdC s1 E 0 ca)))])

/-- R37-R40, R51, R209: no derivation from a valid capability that is no key object gives a right its source lacks. -/
def Obligations.DerivationIsMonotone : Prop :=
  ∀ (c : Cap), c.valid = true → c.otype ≠ otKEY →
    (∀ p, p ∈ Claims.derive → ∀ x, Claims.Within c (p.2 c x)) ∧ (∀ len exact r, c.trim len exact = some r → Claims.Within c r) ∧
    Claims.Within c { c with tag := false }

/-- R36, R37: while the cursor of a valid capability stays in its representable window, its bounds and its tag do not change; outside the
window the tag clears. R39, R40: a capability that CTRIM gives covers the requested range, its cursor is its base, and CTRIMX gives exactly
that range. -/
def Obligations.BoundsOfDerivedCapabilities : Prop :=
  (∀ (c : Cap) (x : Nat), c.valid = true → c.otype ≠ otKEY → x < 2 ^ 64 →
      let r := c.setCursor x
      r.cur = x ∧ r.hi = c.hi ∧ (r.tag = true ↔ c.inWindow x = true) ∧ (r.tag = true → r.base = c.base ∧ r.top = c.top)) ∧
  (∀ (c r : Cap) (len : Nat) (exact : Bool), c.valid = true → c.otype ≠ otKEY → c.trim len exact = some r →
      r.base ≤ c.cur ∧ c.cur + len ≤ r.top ∧ r.cur = r.base ∧ (exact = true → r.base = c.cur ∧ r.top = c.cur + len))

/-- R49-R51, R210: CCLOSE seals an unsealed target with the cursor of an authority that has SEAL and covers it; COPEN unseals a target of
the object type its authority, with UNSEAL, points at; CKDROP drops permissions and use rights of a key object. -/
def Obligations.SealingResults : Prop :=
  (∀ (h : Hdr) (cd ca cs : Nat) (s s1 : State) (E : Env), Issued s (.cclose h cd ca cs) E s1 → Straight s1 E →
    let t := rdC s1 E 0 ca
    let a := rdC s1 E 1 cs
    t.valid = true → t.isSealed = false → a.valid = true → a.isSealed = false → a.has pSEAL = true → a.base ≤ a.cur → a.cur < a.top →
    0 < a.cur → a.cur ≤ 0xFFF4 → a.cur ∉ [0xFFF1, 0xFFF2, 0xFFF3] →
    (a.cur = 0xFFF0 ∨ a.cur = 0xFFF4 → a.has pSYS = true ∧ seeSup s1 E = true) →
    ∃ u r, exec (.cclose h cd ca cs) s = .next u ∧ Goes s1 u E [(.c cd, .c r)] ∧ r.cursor = t.cursor ∧ r.tag = t.tag ∧
      r.otype = a.cur ∧ r.isLocal = (t.isLocal || a.isLocal) ∧ r.perms = t.perms ∧ r.world = t.world ∧ r.rights = t.rights) ∧
  (∀ (h : Hdr) (cd ca cs : Nat) (s s1 : State) (E : Env), Issued s (.copen h cd ca cs) E s1 → Straight s1 E →
    let t := rdC s1 E 0 ca
    let a := rdC s1 E 1 cs
    t.valid = true → 0 < t.otype → t.otype < 0xFFF0 → a.valid = true → a.isSealed = false → a.has pUNSEAL = true → a.cur = t.otype →
    a.base ≤ a.cur → a.cur < a.top →
    ∃ u r, exec (.copen h cd ca cs) s = .next u ∧ Goes s1 u E [(.c cd, .c r)] ∧ r.cursor = t.cursor ∧ r.tag = t.tag ∧ r.otype = 0 ∧
      r.isLocal = (t.isLocal || a.isLocal) ∧ r.perms = t.perms ∧ r.world = t.world ∧ r.rights = t.rights) ∧
  (∀ (h : Hdr) (cd ca gs : Nat) (s s1 : State) (E : Env), Issued s (.ckdrop h cd ca gs) E s1 → Straight s1 E →
    let k := rdC s1 E 0 ca
    let x := rdG s1 E 1 gs
    k.valid = true → k.otype = otKEY →
    ∃ u r, exec (.ckdrop h cd ca gs) s = .next u ∧ Goes s1 u E [(.c cd, .c r)] ∧ r.cursor = k.cursor ∧ r.tag = k.tag ∧ r.otype = otKEY ∧
      r.perms = Nat.land k.perms (x.toNat % 2 ^ 14) ∧ r.rights = Nat.land k.rights (x.toNat / 2 ^ 14 % 2 ^ 31) ∧
      r.isLocal = (k.isLocal || x.getLsbD 63))

/-! ## Barriers, TLB invalidation, save areas and vector areas -/

/-- R218, R207: FENCE and FENCESL go on with every earlier store of the core visible and its buffer empty; ISYNC also discards what was
fetched. They write no register. R219: a TLB invalidation removes, from the TLBs of its core or in the wide forms of every core (of every
core of the sealed world for the sealed space), the entries that translate the page of its address, or every entry, and changes nothing
else. -/
def Obligations.BarrierAndTlbResults : Prop :=
  ((∀ q, q ∈ ([Instr.fence, Instr.fencesl] : List (Hdr → Instr)) → ∀ (h : Hdr) (s s1 : State) (E : Env),
      let s2 := (s1.drain E.n).maDue E.n E.k
      Issued s (q h) E s1 → Straight s2 E → ∃ t, exec (q h) s = .next t ∧ Goes s2 t E [] ∧ (t.core E.n).sb = []) ∧
    (∀ (h : Hdr) (s s1 : State) (E : Env),
      let s2 := s1.drain E.n
      let s3 := s2.setCore E.n { s2.core E.n with oldCode := [] }
      Issued s (.isync h) E s1 → Straight s3 E →
      ∃ t, exec (.isync h) s = .next t ∧ Goes s3 t E [] ∧ (t.core E.n).sb = [] ∧ (t.core E.n).prefetch = [])) ∧
  ((∀ p, p ∈ Claims.tlbi → ∀ (h : Hdr) (gs : Nat) (s s1 : State) (E : Env), Issued s (p.1 h gs) E s1 → Straight s1 E →
      (p.2.1 = true → (s1.ctx E.n E.k).world = true) →
      let vpn := (rdG s1 E 0 gs).toNat % (if p.2.1 then 2 ^ 40 else 2 ^ 48) / 2 ^ 14
      let takes := fun m => if p.2.2 then !p.2.1 || s1.coreWorld m else decide (m = E.n)
      ∃ t, exec (p.1 h gs) s = .next t ∧
        Claims.TlbGoes s1 t E (fun m e => !(takes m) || Claims.without p.2.1 vpn e)) ∧
    (∀ (h : Hdr) (s s1 : State) (E : Env), Issued s (.tlbiall h) E s1 → Straight s1 E →
      ∃ t, exec (.tlbiall h) s = .next t ∧ Claims.TlbGoes s1 t E (fun m _ => decide (m ≠ E.n))) ∧
    (∀ (h : Hdr) (s s1 : State) (E : Env), Issued s (.tlbialld h) E s1 → Straight s1 E →
      ∃ t, exec (.tlbialld h) s = .next t ∧ Claims.TlbGoes s1 t E (fun _ _ => false)))

/-- R126-R133: SAVEL and SAVEH, run whole on a P-core through a chain whose checks pass, write each of their areas, seal SAREA with the
object type of a save area, set MPROG to zero and go on; the words of an area are then in memory, with their tags, as the context sees it,
and every byte and tag outside the first 240 bytes of the area is as before. R126-R132, R136: LOADL, run whole through a chain whose areas
are accepted, writes the predicates, the global registers, the state and capability registers of areas 0 to 2, RES of VSTATE, and last
STATUS, c15 and MPROG, and goes on at the c15 it has read; while EXL is set it writes ESTATUS and EPC of the bank in use instead, and goes
on at the next instruction. R128, R132: LOADH, run whole through a chain whose areas are accepted, writes WBASE, WDEPTH and the 288
registers of the window ring, sets MPROG to zero and goes on. -/
def Obligations.ContextSaveAndLoadResults : Prop :=
  ((∀ p, p ∈ Claims.saves → ∀ (h : Hdr) (s s1 s3 : State) (E : Env) (as : List Area), E.n < 48 → Issued s (p.1 h) E s1 →
      let s2 := routineState p.2.1 E s1
      chain s2 E true p.2.2.2.1 (p.2.2.2.2 + 1) 0 (seeCsr s2 E nSAREA) none = .ok as s3 → linkBreak s3 E as = none →
      Claims.Backed as → Claims.Whole s3 E p.2.2.1 →
      let ws := as.filter (fun a => decide (p.2.2.2.1 ≤ a.no))
      (∀ a, a ∈ ws → saveTagTrap s3 E a = none ∧ s3.breakAt E.n 2 a.cap.cur 240 = none) →
      let s4 := afterRoutine p.2.1 E s1 (Claims.saveAreas s3 E ws s3)
      Straight s4 E →
      ∃ t, exec (p.1 h) s = .next t ∧
        Goes s4 t E ((.csr nSAREA, .c ((seeCsr s3 E nSAREA).withFld 49 34 otSAVE)) :: Claims.progZero s3 E)) ∧
    (∀ (s s0 : State) (E : Env) (no ea pa : Nat) (t : Tgt) (se : Bool), E.n < 48 → pa % 256 = 0 → no < 13 → (s.viewMem E.n E.k t).wf = true →
      let ws := areaWords s0 E no
      let u := writeRaw s E ea [⟨ea, 256, .mem t pa, se⟩] ws
      ws.length = 30 ∧
      (∀ i, i < 30 → BitVec.ofNat 64 ((u.viewMem E.n E.k t).word (pa + 8 * i)) = Claims.wordAt ws i ∧
        (u.viewMem E.n E.k t).tag (pa + 8 * i) = ((ws[i]?).getD (0, 0)).2) ∧
      (∀ b, b < pa ∨ pa + 240 ≤ b → (u.viewMem E.n E.k t).byte b = (s.viewMem E.n E.k t).byte b ∧
        (u.viewMem E.n E.k t).tag b = (s.viewMem E.n E.k t).tag b) ∧
      (∀ t', t' ≠ t → u.viewMem E.n E.k t' = s.viewMem E.n E.k t') ∧ (∀ l, u.held E.n E.k l = s.held E.n E.k l))) ∧
  (∀ (h : Hdr) (s s1 s3 : State) (E : Env) (x y z : Area) (a b c : List (Nat × Nat)), Issued s (.loadl h) E s1 →
      let s2 := routineState insLoadl E s1
      chain s2 E false 0 3 0 (seeCsr s2 E nSAREA) none = .ok [x, y, z] s3 → linkBreak s3 E [x, y, z] = none →
      Claims.Whole s3 E rtLOADL →
      Claims.AreaReads s3 E x a → Claims.AreaReads s3 E y b → Claims.AreaReads s3 E z c →
      let s4 := afterRoutine insLoadl E s1 (((s3.noteFar E x.cs).noteFar E y.cs).noteFar E z.cs)
      let old := (s3.ctx E.n E.k).status
      let regs := Claims.loadedLow a b c ++ [(.sr nVSTATE, .w (Claims.loadedVstate s3 E a c))]
      (stEXL old = false → NoStep s4 E →
        ∃ t, exec (.loadl h) s = .next t ∧ t.pcc E.n E.k = Claims.capAt c 0 ∧
          Ends s4 t E ((.sr nSTATUS, .w (Claims.statusFrom old (Claims.wordAt a 1))) :: regs) (Claims.capAt c 0).cur (s4.core E.n).divBusy) ∧
      (stEXL old = true → (s3.core E.n).inUse = 1 ∨ (s3.core E.n).inUse = 2 → NoStep s4 E → Claims.wordAt a 24 = 0 → Claims.wordAt a 25 = 0 →
        Claims.wordAt a 26 = 0 → Claims.wordAt a 27 = 0 →
        let k := (s3.core E.n).inUse
        ∃ t, exec (.loadl h) s = .next t ∧ (t.ctx E.n E.k).cap 15 = Claims.capAt c 0 ∧
          Ends s4 t E ([(.bank k nESTATUS, .w (Claims.statusFrom (((s3.core E.n).bank k).r nESTATUS) (Claims.wordAt a 1))),
            (.bank k nEPC, .w (BitVec.ofNat 64 ((Claims.capAt c 0).cur / 4 * 4)))] ++ regs) (nextPc E) (s4.core E.n).divBusy)) ∧
  (∀ (h : Hdr) (s s1 s3 : State) (E : Env) (as : List Area) (ws : Nat → List (Nat × Nat)), Issued s (.loadh h) E s1 →
      let s2 := routineState insLoadh E s1
      chain s2 E false 3 13 0 (seeCsr s2 E nSAREA) none = .ok as s3 → linkBreak s3 E as = none → Claims.Whole s3 E rtLOADH →
      (∀ a, a ∈ as → 3 ≤ a.no → Claims.AreaReads s3 E a (ws a.no)) →
      let s4 := afterRoutine insLoadh E s1 ((as.filter (fun a => decide (3 ≤ a.no))).foldl (fun s a => s.noteFar E a.cs) s3)
      Straight s4 E →
      ∃ t, exec (.loadh h) s = .next t ∧ Goes s4 t E (Claims.loadedHigh ws ++ Claims.progZero s3 E))

/-- R135, R136: VSPILL writes the 32 vector registers to the vector area of VHOLD, 64 bytes each in order of their numbers, and clears the
tag of VHOLD; with VHOLD untagged it writes nothing. VFILL reads them from the area of VAREA, or sets them to zero while FILLED is
clear; it then copies VAREA to VHOLD and sets RES and FILLED. -/
def Obligations.VectorAreaResults : Prop :=
  (∀ (h : Hdr) (s s1 : State) (E : Env), Issued s (.vspill h) E s1 →
    let s2 := routineState insVspill E s1
    let c := seeCsr s2 E nVHOLD
    let s0 := afterRoutine insVspill E s1 s2
    (c.tag = false → Straight s0 E → ∃ t, exec (.vspill h) s = .next t ∧ Goes s0 t E (Claims.progZero s2 E)) ∧
    (∀ (s3 : State) (tg : Tgt) (pa : Nat) (se : Bool), E.n < 48 → c.tag = true →
      vecArea s2 E c 0 true = .ok [⟨c.cur, 2048, .mem tg pa, se⟩] s3 → (∀ i, i < 32 → s3.breakAt E.n 2 (c.cur + 64 * i) 64 = none) → pa % 64 = 0 → (s3.viewMem E.n E.k tg).wf = true →
      Claims.Whole s3 E rtVSPILL → (∀ i, i < 256 → (s3.viewMem E.n E.k tg).tag (pa + 8 * i) < 7 ∧
        (s3.viewMem E.n E.k tg).tag (pa + 8 * i) ≠ tRETREC) → Straight s3 E →
      ∃ t, exec (.vspill h) s = .next t ∧
        (∀ i j, i < 32 → j < 8 → BitVec.ofNat 64 ((t.viewMem E.n E.k tg).word (pa + 64 * i + 8 * j)) =
          ((s3.ctx E.n E.k).vreg i).extractLsb' (64 * j) 64 ∧ (t.viewMem E.n E.k tg).tag (pa + 64 * i + 8 * j) = tINT) ∧
        (∀ b, b < pa ∨ pa + 2048 ≤ b → (t.viewMem E.n E.k tg).byte b = (s3.viewMem E.n E.k tg).byte b) ∧
        t.held E.n E.k (.csr nVHOLD) = .c { c with tag := false } ∧ t.pc E.n E.k = nextPc E ∧
        (∀ l : Loc, l.canon ≠ .c 15 → l ≠ .csr nVHOLD → l ≠ .sr nMPROG → t.held E.n E.k l = s3.held E.n E.k l))) ∧
  (∀ (h : Hdr) (s s1 : State) (E : Env), Issued s (.vfill h) E s1 →
    let s2 := routineState insVfill E s1
    let va := seeCsr s2 E nVAREA
    let done := fun (s : State) => [(Loc.csr nVHOLD, Val.c va), (.sr nVSTATE, .w ((s.ctx E.n E.k).srv nVSTATE ||| 3))] ++ Claims.progZero s E
    let s0 := afterRoutine insVfill E s1 s2
    (flag (seeSr s2 E nVSTATE) 1 = false → Claims.Whole s2 E rtVFILL → Straight s0 E →
      ∃ t, exec (.vfill h) s = .next t ∧ Goes s0 t E ((List.range 32).map (fun i => (.v i, .v 0)) ++ done s2)) ∧
    (∀ (s3 : State) (tg : Tgt) (pa : Nat) (se : Bool), flag (seeSr s2 E nVSTATE) 1 = true →
      vecArea s2 E va 0 false = .ok [⟨va.cur, 2048, .mem tg pa, se⟩] s3 → pa % 64 = 0 → Claims.Whole s3 E rtVFILL →
      (∀ i, i < 32 → s3.breakAt E.n 1 (va.cur + 64 * i) 64 = none) →
      let m := s3.viewMem E.n E.k tg
      (∀ i, i < 256 → m.tag (pa + 8 * i) = tINT ∨ m.tag (pa + 8 * i) = tFLT) →
      let s4 := afterRoutine insVfill E s1 (s3.noteFar E [⟨va.cur, 2048, .mem tg pa, se⟩])
      Straight s4 E →
      ∃ t, exec (.vfill h) s = .next t ∧
        Goes s4 t E ((List.range 32).map (fun i => (.v i, .v (BitVec.ofNat 512
          ((List.range 8).foldl (fun acc j => acc + m.word (pa + 64 * i + 8 * j) * 2 ^ (64 * j)) 0)))) ++ done s4)))

/-! ## Vectors -/

/-- R226, R229, R231, R233: an element-wise integer instruction gives each active element of vd the result of the elements of its sources,
leaves the other elements of vd as they were, and goes on. R226, R230-R232: float, conversion, dot-product, broadcast, permute and insert
instructions, element by element. R228, R232, R233: a reduction or an extraction of vector elements writes a general register, VANY and VALL
a predicate, and VSETVL the active length, which its next instruction sees, with the number of elements in a general register. -/
def Obligations.VectorRegisterResults : Prop :=
  (∀ p, p ∈ Claims.vec2 → ∀ (h : Hdr) (es vd va vb : Nat) (s s1 : State) (E : Env), es < 4 →
      Issued s (p.1 h es vd va vb) E s1 → Straight s1 E →
      let n := 8 * 2 ^ es
      let d := rdV s1 E 0 vd
      ∃ t r, exec (p.1 h es vd va vb) s = .next t ∧ Goes s1 t E [(.v vd, .v r)] ∧
        Claims.Elements n (seeVL s1 E / 2 ^ es) r d
          (fun i => p.2 n (Claims.el n d i) (Claims.el n (rdV s1 E 1 va) i) (Claims.el n (rdV s1 E 2 vb) i))) ∧
  ((∀ p, p ∈ Claims.vecF → ∀ (h : Hdr) (f : Bool) (vd va vb : Nat) (s s1 : State) (E : Env),
      Issued s (p.1 h f vd va vb) E s1 → Straight s1 E →
      let n := Claims.fbits f
      let d := rdV s1 E 0 vd
      ∃ t r, exec (p.1 h f vd va vb) s = .next t ∧ Goes s1 t E [(.v vd, .v r)] ∧
        Claims.Elements n (seeVL s1 E / (n / 8)) r d (fun i => BitVec.ofNat n (p.2 (fmtOf f) (Claims.el n d i).toNat
          (Claims.el n (rdV s1 E 1 va) i).toNat (Claims.el n (rdV s1 E 2 vb) i).toNat))) ∧
    (∀ p, p ∈ Claims.vecCvt → ∀ (h : Hdr) (f : Bool) (vd va : Nat) (s s1 : State) (E : Env),
      Issued s (p.1 h f vd va) E s1 → Straight s1 E →
      ∃ t r, exec (p.1 h f vd va) s = .next t ∧ Goes s1 t E [(.v vd, .v r)] ∧
        Claims.Elements (Claims.fbits f) (seeVL s1 E / (Claims.fbits f / 8)) r (rdV s1 E 0 vd)
          (fun i => p.2 f (Claims.el (Claims.fbits f) (rdV s1 E 1 va) i))) ∧
    (∀ p, p ∈ Claims.dots → ∀ (h : Hdr) (vd va vb : Nat) (s s1 : State) (E : Env), Issued s (p.1 h vd va vb) E s1 → Straight s1 E →
      ∃ t r, exec (p.1 h vd va vb) s = .next t ∧ Goes s1 t E [(.v vd, .v r)] ∧
        Claims.Elements 32 (seeVL s1 E / 4) r (rdV s1 E 0 vd)
          (Claims.dotLane (rdV s1 E 0 vd) (p.2.2 (rdV s1 E 1 va) (rdV s1 E 2 vb)) p.2.1)) ∧
    (∀ (h : Hdr) (es vd ra : Nat) (s s1 : State) (E : Env), es < 4 → Issued s (.vbcast h es vd ra) E s1 → Straight s1 E →
      ∃ t r, exec (.vbcast h es vd ra) s = .next t ∧ Goes s1 t E [(.v vd, .v r)] ∧
        Claims.Elements (8 * 2 ^ es) (seeVL s1 E / 2 ^ es) r (rdV s1 E 1 vd) (fun _ => (rdG s1 E 0 ra).setWidth _)) ∧
    (∀ (h : Hdr) (vd va vb : Nat) (s s1 : State) (E : Env), Issued s (.vperm h vd va vb) E s1 → Straight s1 E →
      ∃ t r, exec (.vperm h vd va vb) s = .next t ∧ Goes s1 t E [(.v vd, .v r)] ∧
        Claims.Elements 8 (seeVL s1 E) r (rdV s1 E 0 vd) (fun i =>
          let x := Claims.el 8 (rdV s1 E 2 vb) i
          if x.getLsbD 7 then 0 else Claims.el 8 (rdV s1 E 1 va) (x.toNat % 64))) ∧
    (∀ (h : Hdr) (es vd ra rb : Nat) (s s1 : State) (E : Env), es < 4 → Issued s (.vins h es vd ra rb) E s1 → Straight s1 E →
      let j := (rdG s1 E 2 rb).toNat
      ∃ t r, exec (.vins h es vd ra rb) s = .next t ∧ Goes s1 t E [(.v vd, .v r)] ∧
        ∀ i, 8 * 2 ^ es * (i + 1) ≤ 512 → Claims.el (8 * 2 ^ es) r i =
          if i = j ∧ j < seeVL s1 E / 2 ^ es then (rdG s1 E 1 ra).setWidth _ else Claims.el (8 * 2 ^ es) (rdV s1 E 0 vd) i)) ∧
  ((∀ p, p ∈ Claims.reductions → ∀ (h : Hdr) (es rd va : Nat) (s s1 : State) (E : Env), es < 4 →
      Issued s (p.1 h es rd va) E s1 → Straight s1 E →
      ∃ t, exec (p.1 h es rd va) s = .next t ∧ Goes s1 t E [(gprLoc s1 E rd,
        .w (p.2 (8 * 2 ^ es) (Claims.els (8 * 2 ^ es) (seeVL s1 E / 2 ^ es) (rdV s1 E 0 va))))]) ∧
    (∀ (h : Hdr) (f : Bool) (rd va : Nat) (s s1 : State) (E : Env), Issued s (.vfredadd h f rd va) E s1 → Straight s1 E →
      let l := (Claims.els (Claims.fbits f) (seeVL s1 E / (Claims.fbits f / 8)) (rdV s1 E 0 va)).map BitVec.toNat
      ∃ t, exec (.vfredadd h f rd va) s = .next t ∧ Goes s1 t E [(gprLoc s1 E rd,
        .w (if l = [] then 0 else BitVec.ofNat 64 (l.tail.foldl (fmtOf f).add ((fmtOf f).pack ((fmtOf f).unpack (l.headD 0))))))]) ∧
    (∀ (h : Hdr) (es rd va rb : Nat) (s s1 : State) (E : Env), es < 4 → Issued s (.vext h es rd va rb) E s1 → Straight s1 E →
      let i := (rdG s1 E 1 rb).toNat
      ∃ t, exec (.vext h es rd va rb) s = .next t ∧ Goes s1 t E [(gprLoc s1 E rd,
        .w (if i < seeVL s1 E / 2 ^ es then (Claims.el (8 * 2 ^ es) (rdV s1 E 0 va) i).setWidth 64 else 0))]) ∧
    (∀ q, q ∈ ([(.vall, List.all), (.vany, List.any)] : List ((Hdr → Nat → Nat → Instr) × (List (BitVec 8) → (BitVec 8 → Bool) → Bool))) →
      ∀ (h : Hdr) (pd va : Nat) (s s1 : State) (E : Env), Issued s (q.1 h pd va) E s1 → Straight s1 E →
      ∃ t, exec (q.1 h pd va) s = .next t ∧
        Goes s1 t E (Claims.predWrite pd (q.2 (Claims.els 8 (seeVL s1 E) (rdV s1 E 0 va)) (fun x => x != 0)))) ∧
    (∀ (h : Hdr) (es rd ra : Nat) (s s1 : State) (E : Env), es < 4 → Issued s (.vsetvl h es rd ra) E s1 → Straight s1 E →
      let n := min (rdG s1 E 0 ra).toNat (64 / 2 ^ es)
      ∃ t, exec (.vsetvl h es rd ra) s = .next t ∧ (n ≠ 0 → (s1.ctx E.n E.k).flights = [] → seeVL t E = n * 2 ^ es) ∧
        Goes s1 t E ((gprLoc s1 E rd, .w (BitVec.ofNat 64 n)) :: (if n = 0 then [] else
          [(.sr nVSTATE, .w (((s1.ctx E.n E.k).srv nVSTATE &&& ~~~0x7F00) ||| BitVec.ofNat 64 (n * 2 ^ es * 256)))]))))

/-- R234-R239: VLD reads VL bytes into the low bytes of its register and keeps the others; VST and VSTF store the VL low bytes of theirs;
GATHER reads each active element from its own address; SCATTER stores each in order. v is the value read, s2 the machine after the
accesses, or after the address phase of a gather or scatter whose elements all lie in memory. -/
def Obligations.VectorMemoryResults : Prop :=
  (∀ (h : Hdr) (t : Nat) (m : MemOp) (s s1 s2 : State) (E : Env) (v d : Nat), Issued s (.vld h t m) E s1 →
    let vl := seeVL s1 E
    let o := memOperand s1 E h m vl
    loadData s1 E (Claims.vecAccess m o vl kLOAD pLOAD) = .ok (v, d) s2 → Straight s2 E → (s2.core E.n).resets = (s1.core E.n).resets →
    ∃ u r, exec (.vld h t m) s = .next u ∧ Goes s2 u E ((.v t, .v r) :: Claims.updated m o) ∧
      Claims.Elements 8 vl r (rdV s2 E 0 t) (fun i => BitVec.ofNat 8 (v / 256 ^ i))) ∧
  (∀ q, q ∈ ([(.vst, tINT), (.vstf, tFLT)] : List ((Hdr → Nat → MemOp → Instr) × Nat)) →
    ∀ (h : Hdr) (t : Nat) (m : MemOp) (s s1 s2 : State) (E : Env), Issued s (q.1 h t m) E s1 →
    let vl := seeVL s1 E
    let o := memOperand s1 E h m vl
    storeData s1 E (Claims.vecAccess m o vl kSTORE pSTORE) ((rdV s1 E 0 t).toNat % 256 ^ vl) q.2 = .ok () s2 →
    Straight s2 E → (s2.core E.n).resets = (s1.core E.n).resets →
    ∃ u, exec (q.1 h t m) s = .next u ∧ Goes s2 u E (Claims.updated m o)) ∧
  (∀ (h : Hdr) (es8 : Bool) (sc : Nat) (sgn : Bool) (vd va cb : Nat) (s s1 s2 : State) (E : Env)
      (tg : Nat → Tgt) (pa : Nat → Nat) (se : Nat → Bool), Issued s (.gather h es8 sc sgn false vd va cb) E s1 →
    let n := if es8 then 64 else 32
    let m := seeVL s1 E / (n / 8)
    let c := rdC s1 E 8 cb
    let at' := Claims.elemAddr c n sc sgn (rdV s1 E 0 va)
    let ch := fun (i : Nat) => [(⟨(at' i).toNat, n / 8, .mem (tg i) (pa i), se i⟩ : Chunk)]
    gatherAddrs s1 E (fun i => Claims.elemAccess c cb n kLOAD pLOAD (at' i)) (List.range m) = .ok ((List.range m).map (fun i => (i, ch i))) s2 →
    (∀ i, i < m → (∀ w, w ∈ wordsOf (pa i) (n / 8) → (s2.ctxMem E.n E.k (tg i)).tag w = tINT ∨ (s2.ctxMem E.n E.k (tg i)).tag w = tFLT) ∧
      s2.breakAt E.n 1 (at' i).toNat (n / 8) = none) →
    let s3 := s2.beforeLoad E ((List.range m).flatMap ch)
    let s4 := (List.range m).foldl (fun s i => s.farLoad E (ch i)) s3
    Straight s4 E →
    ∃ u r, exec (.gather h es8 sc sgn false vd va cb) s = .next u ∧ Goes s4 u E [(.v vd, .v r)] ∧
      Claims.Elements n m r (rdV s2 E 1 vd) (fun i => BitVec.ofNat n (Claims.littleEndian (s3.ctxMem E.n E.k (tg i)) (pa i) (n / 8)))) ∧
  (∀ (h : Hdr) (es8 : Bool) (sc : Nat) (sgn ft : Bool) (vd va cb : Nat) (s s1 s2 : State) (E : Env)
      (tg : Nat → Tgt) (pa : Nat → Nat) (se : Nat → Bool), Issued s (.scatter h es8 sc sgn ft vd va cb) E s1 →
    let n := if es8 then 64 else 32
    let m := seeVL s1 E / (n / 8)
    let c := rdC s1 E 8 cb
    let at' := Claims.elemAddr c n sc sgn (rdV s1 E 0 va)
    let ch := fun (i : Nat) => [(⟨(at' i).toNat, n / 8, .mem (tg i) (pa i), se i⟩ : Chunk)]
    let v := fun (i : Nat) => (Claims.el n (rdV s1 E 1 vd) i).toNat
    let tag := if ft then tFLT else tINT
    gatherAddrs s1 E (fun i => Claims.elemAccess c cb n kSTORE pSTORE (at' i)) (List.range m) = .ok ((List.range m).map (fun i => (i, ch i))) s2 →
    (s2.ctx E.n E.k).tx.state = .none →
    (∀ i, i < m → storeTags s2 E cb (at' i).toNat (v i) tag (ch i) = none ∧ s2.breakAt E.n 2 (at' i).toNat (n / 8) = none) →
    let s3 := (List.range m).foldl (fun s i => (s.perform E (dataPuts (ch i) (at' i).toNat (v i) tag)).sampleFar E (s.farStores E (ch i))) s2
    Straight s3 E →
    ∃ u, exec (.scatter h es8 sc sgn ft vd va cb) s = .next u ∧ Goes s3 u E [])

/-- R169-R171: a consumer at or beyond the distance class of the only producer of a location sees the value produced; one below it sees
that value or the one before, and on a W-core either can be seen. R274: on a P-core it sees the value produced in or after the cycle after
the producer's issue cycle for a predicate, two cycles after it for the later classes, and the value before in an earlier one. The classes
are those of R170, and each instruction is one slot. -/
def Obligations.ResultVisibilityByDistance : Prop :=
  (∀ (fl : List Flight) (loc : Loc) (old new : Val) (d c j : Nat), (∀ f, f ∈ fl → f.loc ≠ loc) →
    let seen := seeVal (Nat.iterate ageFlights (j + 1) (pushFlight fl loc old new d c)) loc new
    (d ≤ j → ∀ p, seen (.free p) = new) ∧
    (j < d → (∀ p, seen (.free p) = old ∨ seen (.free p) = new) ∧ (∃ p, seen (.free p) = old) ∧ ∃ p, seen (.free p) = new) ∧
    (∀ c', (c + min d 2 ≤ c' → seen (.cycle c') = new) ∧ (j < d → c' < c + min d 2 → seen (.cycle c') = old))) ∧
  (∀ c, c ∈ Claims.classed → ∀ (h : Hdr) (d a b : Nat) (s s1 : State) (E : Env), Issued s (c.1 h d a b) E s1 → Straight s1 E →
    (c.2.2 = 1 → d ≠ 0) → (c.1 h d a b = .caim h d a b → (rdC s1 E 0 a).valid = true ∧ (rdC s1 E 0 a).isSealed = false) →
    ∃ t, exec (c.1 h d a b) s = .next t ∧ (t.ctx E.n E.k).flights =
      ageFlights (pushFlight (s1.ctx E.n E.k).flights (c.2.1 s1 E d) (s1.held E.n E.k (c.2.1 s1 E d)) (t.held E.n E.k (c.2.1 s1 E d)) c.2.2
        (t.core E.n).pace.last))

/-! ## Services: CROSS, handlers, the key engine -/

/-- R91, R94, R96: a CROSS whose checks pass queues a request of the caller's registers with the next number, and the caller waits; one
resumed with its reply held takes the reply and goes on. XREPLY delivers its registers to the waiting caller, which goes on, and ends the
serving context. R92, R95: the request at the head of a queue whose descriptors are sound starts a service on an idle context, which holds
its capabilities; a waiting CROSS that times out ends with its wait and its entry gone, at or after its due time. -/
def Obligations.CrossAndServiceResults : Prop :=
  ((∀ (h : Hdr) (ca : Nat) (s s1 : State) (E : Env), Issued s (.cross h ca) E s1 →
      let s2 := routineState (insCross ca) E s1
      let c := rdC s2 E 0 ca
      let q := c.cur
      c.valid = true → c.otype = otCROSS → q < 64 → c.world = decide (q < 32) → (s2.ctx E.n E.k).world = !c.world →
      (s2.ctx E.n E.k).tx.service ≠ 3 → s2.csTrap E.n (some rtCROSS) = none →
      (fld (seeSr s2 E nMPROG) 63 56 ≠ rtCROSS → (s2.ctx E.n E.k).reply = none → s2.rf (.xqcfg q) xqcfg_EN = 1 →
        let s3 := s2.boundary (.xqcfg q)
        let r := Claims.crossReq s3 E q
        ∃ t, exec (.cross h ca) s = .next t ∧ (t.ctx E.n E.k).st = .wait ∧ (t.ctx E.n E.k).wait = .cross q r.req r.due ∧
          tget t.xq q [] = tget s3.xq q [] ++ [r] ∧ t.reqNo = (r.req + 1) % 2 ^ 32 ∧ (∀ l, t.held E.n E.k l = s3.held E.n E.k l) ∧
          (∀ p, p ≠ q → tget t.xq p [] = tget s3.xq p []) ∧ (∀ tg, t.memOf tg = s3.memOf tg)) ∧
      (∀ (req : Nat) (regs : List Word) (caps : List Cap), (s2.ctx E.n E.k).flights = [] → stEXL (s2.ctx E.n E.k).status = false →
        seeSr s2 E nMPROG = BitVec.ofNat 64 (rtCROSS * 2 ^ 56 + 2 ^ 48 + E.pc / 4 % 2 ^ 16 * 2 ^ 32 + req) → req < 2 ^ 32 → caps.length = 4 →
        (s2.ctx E.n E.k).reply = some (req, regs, caps) → Straight s2 E →
        ∃ t, exec (.cross h ca) s = .next t ∧ (t.ctx E.n E.k).reply = none ∧ (t.ctx E.n E.k).wait = .none ∧ t.pc E.n E.k = nextPc E ∧
          (∀ i, i < 4 → t.held E.n E.k (.c (i + 1)) = .c (caps.getD i Cap.null)) ∧ t.held E.n E.k (.sr nMPROG) = .w 0)) ∧
    (∀ (h : Hdr) (s s1 : State) (E : Env) (o : XOut), Issued s (.xreply h) E s1 →
      let s2 := routineState insXreply E s1
      let tx := (s2.ctx E.n E.k).tx
      let x := s2.ctx o.core o.ctx
      tx.service = 1 → tfind s2.xout tx.req = some o → o.core ≠ E.n → x.wait = .cross o.q tx.req o.due → o.q = tx.queue → o.ctx < 2 → stSS x.status = false →
      ∃ t, exec (.xreply h) s = .next t ∧ (t.ctx E.n E.k).st = .idle ∧ tfind t.xout tx.req = none ∧ (t.ctx o.core o.ctx).wait = .none ∧
        (∀ i, i < 4 → t.held o.core o.ctx (.c (i + 1)) = .c (crossFilter x.world (rdC s2 E (10 + i) (i + 1)))) ∧
        (∀ i, i < 8 → t.held o.core o.ctx (.ring (ringIndex (fld (x.srv nWBASE) 4 0) (fld (x.srv nWDEPTH) 4 0) (16 + i))) =
          .w (windowReg s2 E i)))) ∧
  ((∀ (q p : Nat) (r : CrossReq) (rest : List CrossReq) (s u v : State), q < 64 → s.serving = true → tget s.xq q [] = r :: rest →
      s.choosePair (64 + q) (s.rf (.xqcfg q) xqcfg_SERVERS) (crossWorld q) none none = some p →
      s.startWaits (64 + q) (startEnv (2 * p) ((s.idleCtx (2 * p)).getD 0))
        [(crossWorld q, fld (s.reg (.xqentry q)) 63 6 * 64, 64), (crossWorld q, fld (s.reg (.xqctx q)) 63 7 * 128, 128)] = none →
      crossStart ({ s.startGoes (64 + q) with xq := tset s.xq q rest, lastPick := tset s.lastPick (64 + q) p }.xqOcc q) q r (2 * p)
        ((s.idleCtx (2 * p)).getD 0) = (some u, v) → u.csTrap (2 * p) (some rtXSTART) = none → r.caps.length = 4 →
      ∃ t, exec (.crossServiceStart q) s = .next t ∧ t = u ∧
        let x := t.ctx (2 * p) ((s.idleCtx (2 * p)).getD 0)
        x.tx = { Tx.none with service := 1, queue := q, req := r.req } ∧
        (∀ i, i < 4 → x.cap (i + 1) = crossFilter (crossWorld q) (r.caps.getD i Cap.null))) ∧
    (∀ (n k q req due : Nat) (s : State), n < 112 → k < 2 → (s.ctx n k).wait = .cross q req due →
      stEXL (s.ctx n (other k)).status = false →
      ∃ t, exec (.crossTimeout n k) s = .next t ∧ (t.ctx n k).wait = .none ∧ tfind t.xout req = none ∧ s.now ≤ t.now ∧
        (s.xlost.contains req = false → due ≤ t.now)))

/-- R220, R221, R434: HANDLER_END of an active transaction whose commit succeeds gives egress its response, takes a journal ticket when it
has a record, and leaves its context idle; a commit applies every write held, in order, to memory, and empties the buffer of its context.
R425, R428, R435-R438: a frame starts with its dispatch record in the global registers and its transaction active; a frame whose deadline
passes ends with outcome DEADLINE; an abort discards the transaction, and redispatches the frame, ends it ABORTED, or releases the context;
an expired watchdog discards the transaction and holds its cause, or takes it. -/
def Obligations.HandlerResults : Prop :=
  ((∀ (h : Hdr) (ca gs : Nat) (s s1 u : State) (E : Env) (f : Frame), Issued s (.handlerEnd h ca gs) E s1 →
      let s2 := routineState (insHandlerEnd ca gs) E s1
      let c := rdC s2 E 0 ca
      let len := (rdG s2 E 1 gs).toNat
      let tx := (s2.ctx E.n E.k).tx
      tx.state = .active → tx.service = 0 → tx.frame = some f → len ≤ 4096 →
      (c.tag = false → ({ s2 with free := s2.free + 1 } : State).commitTx E.n E.k = some u →
        ∃ t, exec (.handlerEnd h ca gs) s = .next t ∧ (t.ctx E.n E.k).st = .idle ∧ t.sealing = u.sealing ∧ t.reg .jcSeq = u.reg .jcSeq ∧
          t.egr = u.egr ++ [(⟨f.lane, some f.slot, len, 0, f.tag, 0, (u.reg .jcSeq).toNat - 1, f.src⟩ : Resp)]) ∧
      (∀ (s3 : State) (cs : List Chunk), c.tag = true → recordCheck s2 E c ca len = (.ok cs, s3) →
        ({ s3 with free := s3.free + 1 } : State).commitTx E.n E.k = some u →
        let ticket := (u.reg .jcSeq).toNat
        ∃ t, exec (.handlerEnd h ca gs) s = .next t ∧ (t.ctx E.n E.k).st = .idle ∧ t.reg .jcSeq = BitVec.ofNat 64 (ticket + 1) ∧
          t.sealing = u.sealing ++ [(⟨ticket, f.fmt, f.attempt, (cs.flatMap (chunkBytes s3 E)).map (BitVec.ofNat 8)⟩ : JRec)] ∧
          t.egr = u.egr ++ [(⟨f.lane, some f.slot, len, 0, f.tag, ticket, ticket, f.src⟩ : Resp)])) ∧
    (∀ (n k : Nat) (s u : State), s.commitTx n k = some u →
      (∀ tg, u.memOf tg = (s.memOf tg).applyOps (((s.commitOps n k).filter (fun e => decide (e.1 = tg))).map Prod.snd)) ∧
      u.buffer n = (s.buffer n).filter (fun e => decide (e.owner ≠ k)))) ∧
  ((∀ (q p : Nat) (f : Frame) (rest : List Frame) (s : State), s.ingOn = true → s.stagingRoom = true → s.nextClass = some q →
      tget s.queues q [] = f :: rest → s.framePair f = some p →
      s.startWaits q (startEnv (2 * p) ((s.idleCtx (2 * p)).getD 0)) [(s.classWorld q, f.desc, 128)] = none →
      ∃ t, exec .handlerStart s = .next t ∧
        t = frameStart { s.startGoes q with queues := tset s.queues q rest, lastPick := tset s.lastPick q p } f (2 * p) ((s.idleCtx (2 * p)).getD 0)) ∧
    (∀ (f : Frame) (n k : Nat) (s u : State) (ws : List (Nat × Nat)) (code data ing cc : Cap) (sup : Bool),
      readDesc s (startEnv n k) (s.classWorld f.cls) f.desc 128 = (some ws, u) →
      handlerDesc u (s.classWorld f.cls) ws = some (code, data, ing, cc, sup) → u.csTrap n (some rtHSTART) = none →
      let x := (frameStart s f n k).ctx n k
      x.cap 15 = code ∧ x.cap 7 = data ∧ x.tx.state = .active ∧ x.tx.frame = some f ∧ x.tx.service = 0 ∧
        (∀ i, i < 8 → tget x.g i 0 = tget (dispatchRecord f) i 0)) ∧
    (∀ (q slot : Nat) (f : Frame) (s : State),
      s.queues.findSome? (fun e => (e.2.find? (fun f => decide (f.slot = slot))).map (fun f => (e.1, f))) = some (q, f) →
      f.deadline < 2 ^ 64 - 1 →
      ∃ t, exec (.deadline slot) s = .next t ∧ f.deadline < t.now ∧
        t.egr = s.egr ++ [(⟨f.lane, none, 0, 3, f.tag, 0, 0, f.src⟩ : Resp)] ∧ ∀ x, x ∈ tget t.queues q [] → x.slot ≠ slot) ∧
    (∀ (n k : Nat) (s : State), n < 112 → k < 2 → s.canAbort n k = true →
      (∃ t, exec (.abortRedispatch n k) s = .next t ∧ (t.ctx n k).tx.state ≠ .active ∧
        (∀ f, (s.ctx n k).tx.state = .active → (s.ctx n k).tx.frame = some f → s.now ≤ f.deadline →
          f.attempt < s.rf .ingCfg ingCfg_RETRY →
          tget t.queues f.cls [] = { f with attempt := f.attempt + 1, lastPair := some (n / 2) } :: tget s.queues f.cls [])) ∧
      (∃ t, exec (.abortEnd n k) s = .next t ∧ (t.ctx n k).tx.state ≠ .active ∧
        (∀ f, (s.ctx n k).tx.state = .active → (s.ctx n k).tx.frame = some f →
          t.egr = s.egr ++ [(⟨f.lane, none, 0, 1, f.tag, 0, 0, f.src⟩ : Resp)])) ∧
      (∃ t, exec (.abortRelease n k) s = .next t ∧ (t.ctx n k).st = .idle)) ∧
    (∀ (n k w : Nat) (s : State), n < 112 → k < 2 → (s.ctx n k).tx.wdog = some w →
      ∃ t, exec (.handlerWatchdog n k) s = .next t ∧
        (takeWatchdog s n k = none → takeWatchdog ((s.advanceTo w).watchdogFires n k) n k = none →
          (t.ctx n k).tx.wdog = none ∧ (t.ctx n k).tx.state ≠ .active ∧
          (⟨k, ecHANDLER_WATCHDOG, 0, 0, true⟩ : MaCause) ∈ (t.core n).ma)))

/-- R223, R224, R443: a KCMD whose checks pass puts its command at the end of its world's queue and its context waits; the status ends the
wait, in gd, at its time, and the instruction goes on. R443, R444, R448, R451, R464: the command at the head of a world's queue is performed:
it leaves the queue, joins the commands that run on their units until its engine time has passed, and no register of a core changes but
those of a bank whose entry an interrupt takes over. Without a unit its status is UNAVAILABLE, with a fault of the unit ENGINE_FAULT, with a
key that is gone STALE. KDELETE removes its key and advances the generation of its slot. -/
def Obligations.KeyEngineResults : Prop :=
  ((∀ (h : Hdr) (cd ca gd cls : Nat) (s s1 s3 s4 : State) (E : Env) (cs ics ocs : List Chunk) (ws : List (Nat × Nat)),
      Issued s (.kcmd h cd ca gd) E s1 →
      let s2 := routineState (insKcmd cd ca gd) E s1
      let b := rdC s2 E 0 cd
      fld (seeSr s2 E nMPROG) 63 56 ≠ rtKCMD →
      resolve s2 E ⟨b, cd, b.cur, 64, kLOAD, pm pLOAD + pm pSTORE + pm pLOADCAP, 0, 64, true, false, false⟩ = (.ok cs, s3) →
      ctxWords s3 E cd b.cur cs = .ok ws → kBlockTags ws cd b.cur = none →
      let kb := kBlock ws
      let key := rdC s3 E 1 ca
      kcClass kb.code = some cls → (cls = 2 → (s2.ctx E.n E.k).tx.service ≠ 3 ∧ (s2.ctx E.n E.k).world = true) →
      (kcUntagged kb.code = true → key.tag = false) → kcKeyed kb.code = false →
      (cls = 2 → kcUntagged kb.code = false → key.valid = true ∧ key.has pKEYADMIN = true) → s2.csTrap E.n (some rtKCMD) = none →
      bufferCheck s3 E kb cls = .ok (ics, ocs) s4 →
      let w := (s2.ctx E.n E.k).world
      ∃ t c, exec (.kcmd h cd ca gd) s = .next t ∧ t.kqueue w = s4.kqueue w ++ [c] ∧ c.num = s4.kNo ∧ c.code = kb.code ∧ c.core = E.n ∧
        c.ctx = E.k ∧ c.world = w ∧ c.inCs = ics ∧ c.outCs = ocs ∧ c.inLen = kb.inLen ∧ c.outLen = kb.outLen ∧ c.key = none ∧
        (t.ctx E.n E.k).wait = .kcmd c.num gd ∧ t.kNo = (s4.kNo + 1) % 2 ^ 32) ∧
    (∀ (d : KDone) (rest : List KDone) (gd : Nat) (s : State), s.kdone = d :: rest → d.cmd.fate = .live →
      let n := d.cmd.core
      let k := d.cmd.ctx
      let u := kOutput { s.advanceTo ((d.ready + 9) / 10) with kdone := rest } d.cmd d.ans
      (s.ctx n k).wait = .kcmd d.cmd.num gd → k < 2 → stSS (s.ctx n k).status = false →
      ∃ t, exec .kcmdStatus s = .next t ∧ t.kdone = rest ∧ (t.ctx n k).wait = .none ∧ d.ready ≤ 10 * t.now ∧
        t.held n k (gprLoc u (u.waitEnv n k) gd) = .w (kStatus d.cmd d.ans))) ∧
  ((∀ (f : Bool → Nat → Instr) (code : Nat), Claims.KeyCmd f code → ∀ (w : Bool) (flaw : Nat) (c : KCmd) (rest : List KCmd) (s : State), flaw < 3 → s.keyOn = true →
      s.kqueue w = c :: rest → c.code = code → c.world = w →
      let u : State := { s with kq := tset s.kq (b2n w) rest }
      let units := Claims.keyUnits u c
      ∃ t a ready us, exec (f w flaw) s = .next t ∧ t.kdone = insDone ⟨c, a, ready, us⟩ s.kdone ∧ t.kqueue w = rest ∧ 10 * s.now ≤ ready ∧
        t.kqueue (!w) = s.kqueue (!w) ∧ (∀ n k l, (∀ b r, l ≠ .bank b r) → t.held n k l = s.held n k l) ∧
        (none ∈ units → a.code = 0x0A) ∧ (none ∉ units → units ≠ [] → flaw = 1 ∨ flaw = 2 ∧ c.key.isSome = true → a.code = 0x0B) ∧
        (∀ len, none ∉ units → Claims.keyTime u c = some len → ready = u.unitsAt c.world (Claims.keyKinds u c) + len) ∧
        (none ∉ units → flaw = 0 → Claims.keyGone u c → a.code = 0x03) ∧
        (none ∉ units → flaw = 0 → c.code = kcKDELETE → c.bad = false → c.inCs = [] → ∀ k r, c.key = some k → u.keyOf k = some r →
          c.aux = none → a.code = 0 ∧ tfind t.keys k.keySlot = none ∧ tget t.kgen k.keySlot 0 = (tget s.kgen k.keySlot 0 + 1) % 2 ^ 20)) ∧
    (∀ (w : Bool) (s : State), s.mode ≠ 0 → s.mode ≠ 5 →
      ∃ t, exec (.drbgReseed w) s = .next t ∧ s.now ≤ t.now ∧ t.keys = s.keys ∧ ∀ n k l, (∀ b r, l ≠ .bank b r) → t.held n k l = s.held n k l) ∧
    (∀ (i : Nat) (s : State), i < 2 → s.rf .keyDrbg (if i = 0 then keyDrbg_SRC0 else keyDrbg_SRC1) ≠ 0 →
      ∃ t, exec (.entropyHealthFail i) s = .next t ∧ t.rf .keyDrbg (if i = 0 then keyDrbg_SRC0 else keyDrbg_SRC1) = 0 ∧
        t.events = s.events ++ [(⟨9, i, 0x29, 0, 0⟩ : DevEvent)]))

/-! ## Interrupts and the cores beside their instructions -/

/-- R266, R270: INTERRUPT_REPORT counts a report and pends or defers its source; HOLD_END makes a deferred report of a source that is not
active pending, at or after the end of its hold; INTERRUPT_ACCEPT makes the source offered active and enters its exception; TIMER_COMPARE
sends one report and disarms the timer. -/
def Obligations.InterruptController : Prop :=
  (∀ (n : Nat) (s : State), n < 640 →
    ∃ t, exec (.interruptReport n) s = .next t ∧ t = s.report n ∧ Claims.Reported s t n) ∧
  (∀ (n : Nat) (s : State), n < 640 → s.rf (.intcSrc n) intcSrc_DEFER = 1 →
    ∃ t, exec (.holdEnd n) s = .next t ∧ s.holdUntil n ≤ t.now ∧ t.rf (.intcSrc n) intcSrc_CNT = s.rf (.intcSrc n) intcSrc_CNT ∧
      (s.srcAct n = false → t.rf (.intcSrc n) intcSrc_DEFER = 0 ∧ (t.srcPend n = true ∨ t.srcAct n = true)) ∧
      (s.srcAct n = true → t.rf (.intcSrc n) intcSrc_DEFER = 1 ∧ t.srcAct n = true)) ∧
  (∀ (n k i : Nat) (s : State), n < 112 → k < 2 → s.acceptableSource n k = some i → s.csTrap n (some rtENTRY) = none →
    ∃ t, exec (.interruptAccept n k) s = .next t ∧
      Claims.Entered s t n k (0x20 + s.srcLevelOf i) (i + s.rf (.intcSrc i) intcSrc_CNT * 2 ^ 16) 0 ∧
      t.srcPend i = false ∧ t.srcAct i = true ∧ tfind t.srcLast i = some s.now ∧ (t.ctx n k).st = .run ∧
      (∀ r, Claims.isIntc r = false → t.reg r = s.reg r) ∧ (∀ tg, t.memOf tg = s.memOf tg) ∧ ∀ m, m ≠ n → t.core m = s.core m) ∧
  (∀ (k : Nat) (s : State), k < 16 → s.reg (.intcTmr k) ≠ BitVec.allOnes 64 →
    ∃ t, exec (.timerCompare k) s = .next t ∧ t.reg (.intcTmr k) = BitVec.allOnes 64 ∧ (s.reg (.intcTmr k)).toNat ≤ t.now ∧
      Claims.Reported ((s.advanceTo (s.reg (.intcTmr k)).toNat).setReg (.intcTmr k) (BitVec.allOnes 64)) t (600 + k))

/-- R256-R258, R276, R281-R287, R296: far data ends the wait of its core, whose earlier far stores have then been
sent; a prefetch of a word of the TCM that the port grants appends it to the queue, to issue from the second cycle after its read on; the oldest store
leaves the store buffer and is in memory; a master's write to a TCM follows its row of R59; a late bus error that can be taken is entered; a
core whose count under MASKLIMIT expires is reset at or after that time. R321, R322, R326, R327, R354, R361, R405, R540: a control-store
word with one bad copy is counted and reported, with both it stands bad; a load completes with its result; a wait on MV ends when MV has
cleared, and raises WALK_ERROR with reason 4 when it is still set after 20 µs; the self-test and the reload of a pair that failed over end at their times, and
the pair serves again; a request that finds no pair for 1 ms is reported. -/
def Obligations.CoreAndRecoveryEvents : Prop :=
  ((∀ (n : Nat) (s : State), n < 48 → (s.core n).farWait = true →
      ∃ t, exec (.farDataArrival n) s = .next t ∧ t.core n = { (s.sendFar n).core n with farWait := false } ∧
        (∀ m, m ≠ n → t.core m = (s.sendFar n).core m) ∧ t.outside = (s.sendFar n).outside ∧ (∀ e, e ∈ (t.core n).sb → e.tgt ≠ .dram)) ∧
    (∀ (n k m pa : Nat) (se : Bool) (s u : State), n < 48 → s.unit n = n → s.coreRuns n = true → s.runningCtx n = some k →
      (s.core n).prefetch.length < 4 → (s.core n).kept = none → (s.core n).farWait = false →
      let va := s.fetchNext n k
      chunkAt s (s.waitEnv n k) ⟨s.pcc n k, 0xF, va, 8, kFETCH, 0, 0, 0, true, false, false⟩ va 8 = (.ok [⟨va, 8, .mem (.tcm m) pa, se⟩], u) →
      s.fetchGranted n ((s.core n).pace.port + 1) = true →
      ∃ t, exec (.prefetchRead n) s = .next t ∧ t.outside = u.outside ∧ (t.core n).prefetch = (u.core n).prefetch ++
        [(⟨va, (u.memOf (.tcm m)).word pa, (u.memOf (.tcm m)).tag pa, (u.core n).pace.port + 3⟩ : PfWord)]) ∧
    (∀ (n : Nat) (s : State) (e : SbEntry) (es : List SbEntry), n < 112 → (s.core n).sb = e :: es → (s.core n).off = false →
      ∃ t, exec (.storeBufferWrite n) s = .next t ∧ (t.core n).sb = es ∧ t.memOf e.tgt = (s.memOf e.tgt).applyOps e.ops ∧
        (∀ tg, tg ≠ e.tgt → t.memOf tg = s.memOf tg) ∧ (∀ m k l, t.held m k l = s.held m k l) ∧ ∀ r, t.reg r = s.reg r) ∧
    (∀ (n pa data mask : Nat) (s : State), n < 48 → pa % 8 = 0 → data < 2 ^ 64 → 0 < mask → mask < 256 → s.unit n = n →
      s.tgtOf n pa = .tcm n → (s.core n).off = false → s.outsideGranted n = true →
      let m := (s.memOf (.tcm n)).masterWrite pa data mask
      ∃ t, exec (.tcmWriteFromOutside n pa data mask) s = .next t ∧ t.memOf (.tcm n) = (if m.2 then m.1 else s.memOf (.tcm n)) ∧
        (∀ tg, tg ≠ .tcm n → t.memOf tg = s.memOf tg) ∧ (∀ m k l, t.held m k l = s.held m k l) ∧ ∀ r, t.reg r = s.reg r) ∧
    (∀ (n k : Nat) (s : State) (m : MaCause), n < 112 → k < 2 → s.maReady n k ecBUSERR_ASYNC = some m → s.csTrap n (some rtENTRY) = none →
      ∃ t, exec (.buserrAsync n k) s = .next t ∧ Claims.Entered s t n k ecBUSERR_ASYNC m.info m.addr ∧ (t.core n).ma = (s.core n).ma.erase m ∧
        (∀ j, j ≠ n → t.core j = s.core j) ∧ t.outside = s.outside) ∧
    (∀ (n since : Nat) (s : State), n < 112 → (s.core n).maskSince = some since → s.coreRuns n = true →
      ∃ t, exec (.masklimitExpiry n) s = .next t ∧ s.maskEnd n since ≤ t.now ∧ t = (s.advanceTo (s.maskEnd n since)).coreReset n)) ∧
  ((∀ (core micro nano routine : Nat) (isNano both : Bool) (s : State), core < 112 → micro < 8192 → nano < 1024 →
      (s.core (s.unit core)).off = false → (∀ k, k < 2 → ((s.ctx (s.unit core) k).wait).routine = none) →
      (∃ t, exec (.csParityCorrection core micro nano isNano true routine) s = .next t ∧
        (t.core (s.unit core)).csBad = (s.core (s.unit core)).csBad ++ [(⟨core, routine, micro, nano, isNano, resumableRoutine routine⟩ : CsBad)] ∧
        t.outside = s.outside) ∧
      (∃ t, exec (.csParityCorrection core micro nano isNano false routine) s = .next t ∧
        t.events = s.events ++ [(⟨0, core, 0x08, 0, 0⟩ : DevEvent)] ∧
        t.rf (.mcsCore core) mcsCore_FIXCNT = satAdd (s.rf (.mcsCore core) mcsCore_FIXCNT) 1 (2 ^ (mcsCore_FIXCNT.hi - mcsCore_FIXCNT.lo + 1) - 1) ∧
        ∀ r, r ≠ .mcsCore core → t.reg r = s.reg r)) ∧
    (∀ (readback : Bool) (s : State), s.rf .mcsStat mcsStat_BUSY ≠ 0 →
      ∃ t, exec (.mcsLoadComplete readback) s = .next t ∧ t.rf .mcsStat mcsStat_BUSY = 0 ∧ t.rf .mcsStat mcsStat_ERR =
        (s.csLoad (s.rf .mcsStat mcsStat_LASTCORE) (s.rf .mcsSrc mcsSrc_ADDR * 4096) readback).1 % 2 ^ (mcsStat_ERR.hi - mcsStat_ERR.lo + 1)) ∧
    (∀ (n k va entry info since : Nat) (s u : State) (e : IptEntry), n < 112 → k < 2 → (s.ctx n k).wait = .mv va entry info since →
      s.now + 40 < since + 20000 →
      let s1 := s.advanceTo (s.now + 40)
      probe s1 (s1.waitEnv n k) entry 1 = (.ok e, u) →
      ∃ t, exec (.mvReread n k) s = .next t ∧ (t.ctx n k).wait = (if e.mv then (u.ctx n k).wait else .none) ∧ s.now + 40 ≤ t.now) ∧
    (∀ (n k va entry info since : Nat) (s u : State) (e : IptEntry), n < 112 → k < 2 → (s.ctx n k).wait = .mv va entry info since →
      let s1 := s.advanceTo (since + 20000)
      probe s1 (s1.waitEnv n k) entry 1 = (.ok e, u) →
      ∃ t, exec (.mvWaitTimeout n k) s = .next t ∧ since + 20000 ≤ t.now ∧ (t.ctx n k).wait = .none ∧ (e.mv = false → t = u.endWait n k) ∧
        (e.mv = true → t = (u.endWait n k).fail (s1.waitEnv n k) ⟨ecWALK_ERROR, info + 4, va, (u.ctx n k).waitElem⟩)) ∧
    (∀ (p at' : Nat) (s : State), p < 24 → tfind s.selfTest p = some at' → s.rf (.depPair p) depPair_STATE = 1 →
      (∃ t, exec (.pairSelfTest p true) s = .next t ∧ tfind t.selfTest p = none ∧ tfind t.selfTest (24 + p) = some at' ∧
        at' + 5010000 ≤ t.now) ∧
      (∃ t, exec (.pairSelfTest p false) s = .next t ∧ tfind t.selfTest p = none ∧ at' + 5010000 ≤ t.now ∧
        t.events = s.events ++ [(⟨1, p, 0x12, 0, 0⟩ : DevEvent)])) ∧
    (∀ (p at' : Nat) (s : State), p < 24 → tfind s.selfTest (24 + p) = some at' → s.rf (.depPair p) depPair_STATE = 1 →
      ∃ t, exec (.pairTcmReload p) s = .next t ∧ tfind t.selfTest (24 + p) = none ∧ at' + 5210000 ≤ t.now ∧ (t.core (2 * p)).held = false ∧
        t.rf (.depPair p) depPair_STATE = 0) ∧
    (∀ (s : State), s.serving = true → s.unplaced = true →
      ∃ t, exec .noEligiblePair s = .next t ∧ s.now + 1000000 ≤ t.now ∧ Claims.Reported (s.advanceTo (s.now + 1000000)) t 535))

/-! ## Registers of the device -/

/-- R9, R21, R26, R355-R358, R372, R620: a row that writes a register does what the write of that register does, for a context that issues
and for a master that the Ridge table admits; a write that a world rule denies to a core raises CAP_PERM with EINFO[16] and leaves the
register; a row that reads answers the register's word; a write of any register by its address; an offset without a register ignores a
write; the debug port and READ_REG answer what the register holds. -/
def Obligations.RegisterAccessResults : Prop :=
  (∀ row reg named, Claims.RegRow row reg named → ∀ (q : Requester) (i : Nat) (v : Word) (s s1 : State), named i v = true →
    let r := reg s q i
    Claims.Reaching s s1 q true r → Claims.Taken s1 q r v →
    exec (row q i v) s = .next (regEffect (Claims.applied s1 q r v) q r v (s1.reg r) (judge s1 q r v).ignored)) ∧
  (∀ row reg named, Claims.RegRow row reg named → ∀ (n k i : Nat) (v : Word) (s : State), named i v = true → n < 112 → k < 2 →
    let r := reg s (.core n k) i
    s.canIssue n k = true → s.sealedShut = false → regDenied s (.core n k) r v = true → s.csTrap n (some rtENTRY) = none →
    (s.ctx n k).flights = [] → stEXL (s.ctx n k).status = false → stEXL (s.ctx n (other k)).status = false →
    ∃ t, exec (row (.core n k) i v) s = .next t ∧ t.reg r = s.reg r ∧ (t.core n).bankE.r nECAUSE = BitVec.ofNat 64 ecCAP_PERM ∧
      ((t.core n).bankE.r nEINFO).getLsbD 16 = true ∧ (t.core n).bankE.r nEPC = BitVec.ofNat 64 (s.pc n k) ∧
      ∀ tg, t.memOf tg = (s.drain n).memOf tg) ∧
  (∀ row reg named, Claims.ReadRow row reg named → ∀ (q : Requester) (i : Nat) (s s1 : State), named i = true →
    Claims.Reaching s s1 q false (reg i) →
    ∃ t, exec (row q i) s = .next t ∧ t.regOut = some (regRead s1 q (reg i)).1 ∧ t.regErr = false ∧
      t = { (regRead s1 q (reg i)).2 with regOut := t.regOut, regErr := t.regErr }) ∧
  (∀ (q : Requester) (pa : Nat) (v : Word) (s s1 : State) (r : Reg), isRegSpace pa = true → pa % 8 = 0 →
    (pa < 0x0F0012800000 ∨ 0x0F0013000000 ≤ pa) → s.regAtPa q pa = some r → Claims.Reaching s s1 q true r → Claims.Taken s1 q r v →
    (∀ i, r ≠ .rdgBase i ∧ r ≠ .rdgLimit i ∧ r ≠ .rdgAttr i) →
    exec (.registerWrite q pa v) s = .next (regEffect (Claims.applied s1 q r v) q r v (s1.reg r) (judge s1 q r v).ignored)) ∧
  (∀ (n k pa : Nat) (v : Word) (s : State), isRegSpace pa = true → pa % 8 = 0 → (pa < 0x0F0012800000 ∨ 0x0F0013000000 ≤ pa) →
    s.regAtPa (.core n k) pa = none → s.spareDenied (.core n k) pa = false → n < 112 → k < 2 → s.canIssue n k = true →
    exec (.registerWrite (.core n k) pa v) s = .next (s.drain n)) ∧
  (∀ (pa : Nat) (s : State), s.smbOn = true →
    ∃ t, exec (.readReg pa) s = .next t ∧ t = { s with mctpAns := t.mctpAns } ∧
      (∀ r, isRegSpace pa = true → pa % 8 = 0 → s.regAtPa (.master 11 0) pa = some r → diagReg r = true →
        t.mctpAns = toBytes (regRead s (.master 11 0) r).1.toNat 8)) ∧
  (∀ (a mask : Nat) (v : Word) (s s1 : State) (diag : Bool), a % 8 = 0 → a < 2 ^ 44 → 0 < mask → mask < 256 →
    diag = (isRegSpace a && (match s.regAtPa (.master mDBG 0) a with
      | some r => diagReg r
      | none => false)) →
    (s.masterReaches mDBG 0 false a diag = (true, s1) → isRegSpace a = false → backedDram a = true →
      exec (.dbgAccess false a v mask) s = 
        .next { s1 with regOut := some (BitVec.ofNat 64 (s1.mem.masterRead a).1), regErr := !(s1.mem.masterRead a).2 }) ∧
    (s.masterReaches mDBG 0 true a diag = (true, s1) → isRegSpace a = false → backedDram a = true → (s1.mem.tag a) < 7 → mask = 0xFF →
      ∃ t, exec (.dbgAccess true a v mask) s = .next t ∧ t.mem = s1.mem.writeWord a v.toNat tINT ∧ ∀ r, t.reg r = s1.reg r))

/-- R9-R12: what a write leaves of each field of its register: a read-only or write-only field stays; a field of type W1C loses the bits
written as 1; a field of type RW with a value it may not take stays, and the write is rejected; one of class L takes the value at once; one
of class Q takes it while its block is idle, and otherwise stays and the write is ignored; a bit in no field stays. No write of a field
changes another register. R21, R26: the register that block code and offset name, for any requester and selection, lies in that block at
that offset. -/
def Obligations.RegisterRules : Prop :=
  (∀ (s : State) (q : Requester) (r : Reg) (v : Word),
      let j := judge s q r v
      (∀ f, f ∈ r.fields →
        let new := fld v f.hi f.lo
        let old := fld (s.reg r) f.hi f.lo
        let got := fld j.w f.hi f.lo
        (f.ty = .ro ∨ f.ty = .wo → got = old) ∧
        (f.ty = .w1c → got = old - Nat.land old new) ∧
        (f.ty = .rw → f.allow.ok new = false → got = old ∧ j.rejected = true) ∧
        (f.ty = .rw → f.allow.ok new = true → regBars s q r f new = false → (∀ m, r ≠ .monCtl m) → s.inSlice r = false →
          (f.apply = .l ∨ f.apply = .none → got = new) ∧
          (f.apply = .q → regIdle s r v = true → got = new) ∧
          (f.apply = .q → regIdle s r v = false → new ≠ old → got = old ∧ j.ignored = true) ∧
          (f.apply = .s → got = old))) ∧
      (∀ b, b < 64 → (∀ f, f ∈ r.fields → b < f.lo ∨ f.hi < b) → j.w.getLsbD b = (s.reg r).getLsbD b) ∧
      (∀ r', j.s.reg r' = s.reg r') ∧ (∀ tg, j.s.memOf tg = s.memOf tg)) ∧
  ((∀ (code off sel : Nat) (who : Requester) (r : Reg), regAt code off who sel = some r → r.block = code ∧ r.offset = off) ∧
    (∀ (s : State) (q : Requester) (pa : Nat) (r : Reg), isRegSpace pa = true → s.regAtPa q pa = some r → r.pa = pa))

/-- R267, R270, R326, R370, R374, R391, R402, R474, R477, R485, R539, R548, R553, R572, R578, R582, R588, R598-R602, R624: what the write
of each register that acts does, once its fields are applied: v is the word written, old the register before it. -/
def Obligations.RegisterEffects : Prop :=
  ∀ (s : State) (q : Requester) (v old : Word) (ig : Bool),
    let eff := fun (r : Reg) => regEffect s q r v old ig
    ((v.toNat % 32 < 24 → eff .intcDoorbell = s.report (616 + v.toNat % 32)) ∧ (24 ≤ v.toNat % 32 → eff .intcDoorbell = s)) ∧
    (∀ t n, v.getLsbD 16 = true → s.eoiSource t = some n →
      eff (.intcTgt t) = (s.eoi t).retarget t ∧ (s.eoi t).srcAct n = false ∧ tfind (s.eoi t).srcLevel n = none ∧
      ∃ e, e ∈ s.srcLevel ∧ e.1 = n ∧ e.2.1 = t ∧ ∀ e', e' ∈ s.srcLevel → e'.2.1 = t → e'.2.2 ≤ e.2.2) ∧
    (∀ n, n < 640 → (eff (.intcSrc n)).rf (.intcSrc n) intcSrc_CNT = s.rf (.intcSrc n) intcSrc_CNT - v.toNat / 2 ^ 32 % 2 ^ 16) ∧
    (ig = false → v.toNat % 128 < 112 → s.rf .mcsStat mcsStat_BUSY = 0 → s.coreQui (v.toNat % 128) = true →
      (eff .mcsLoadreq).rf .mcsStat mcsStat_BUSY = 1 ∧ (eff .mcsLoadreq).rf .mcsStat mcsStat_LASTCORE = v.toNat % 128) ∧
    (let f := v.toNat % 2 ^ 23
     (s.giveBad f = false → (eff .pleGive).pool (pcOfFrame f / 32) = s.pool (pcOfFrame f / 32) ++ [f]) ∧
     (s.giveBad f = true → (eff .pleGive).rf .pleStat pleStat_REJECT =
         satAdd (s.rf .pleStat pleStat_REJECT) 1 (2 ^ (pleStat_REJECT.hi - pleStat_REJECT.lo + 1) - 1) ∧
       (eff .pleGive).pools = s.pools ∧ (eff .pleGive).events = s.events ++ [(⟨11, Reg.pleGive.block, 0x3B, cfgAux q, Reg.pleGive.pa⟩ : DevEvent)])) ∧
    (∀ p, v.getLsbD 3 = true → v.getLsbD 16 = false → ((eff (.memPcctl p)).calOf p).asked = true ∧ (eff (.memPcctl p)).regs = s.regs) ∧
    (∀ p, v.getLsbD 3 = false → v.getLsbD 16 = true → eff (.memPcctl p) = s.retireOne 2 p false) ∧
    (v.getLsbD 0 = true →
      (s.rf .rdgEpoch rdgEpoch_BUSY = 0 → (eff .rdgEpoch).rf .rdgEpoch rdgEpoch_BUSY = 1 ∧ (eff .rdgEpoch).rdgStale = [] ∧
        (eff .rdgEpoch).rf .rdgEpochnum rdgEpochnum_CUR = s.rf .rdgEpochnum rdgEpochnum_CUR) ∧
      (s.rf .rdgEpoch rdgEpoch_BUSY = 1 → (eff .rdgEpoch).rf .rdgEpoch rdgEpoch_QUEUED = 1)) ∧
    (∀ n, n < 112 → s.coreWorld n = false → s.rf (.dbgCorectl n) dbgCorectl_HALTED = 0 →
      (eff (.dbgCorectl n)).rf (.dbgCorectl n) dbgCorectl_PEND = (if v.getLsbD 0 then 1 else 0) ∧
      (eff (.dbgCorectl n)).rf (.dbgCorectl n) dbgCorectl_STEP = (if v.getLsbD 1 then 1 else 0) ∧
      ∀ k, k < 2 → stSS ((eff (.dbgCorectl n)).ctx (s.unit n) k).status = v.getLsbD 1) ∧
    (eff .ingFload = s.fetchFormat (s.rf .ingBank ingBank_FACT) (v.toNat % 256)) ∧
    (∀ j, j < 2 → v.getLsbD 8 = true → s.jcState j = jsMIRROR ∨ s.jcState j = jsRESILVER →
      (eff (.jcSlot j)).jcState j = jsFAILED ∧ (eff (.jcSlot j)).rf (.jcSlot j) jcSlot_REASON = 9) ∧
    ((eff .jcRel).reg .jcRel = (let x := if (s.reg .jcDur).toNat < v.toNat then s.reg .jcDur else v
      if x.toNat < old.toNat then old else x)) ∧
    (v.getLsbD 0 = true → (eff .jcRdctl).rf .jcRdctl jcRdctl_BUSY = 1) ∧
    (eff .cdlClaim = s.claimWritten v) ∧
    (v.toNat % 4 = 1 → eff .depRetire = s.retire (v.toNat / 16 % 16) (v.toNat / 4096 % 2 ^ 28) false) ∧
    (v.toNat % 4 = 2 → eff .depRetire = { s with retLog := s.retLog.filter (fun e => decide (e ≠ (v.toNat / 16 % 16, v.toNat / 4096 % 2 ^ 28))) }) ∧
    (∀ r, r < 1024 → v.getLsbD 0 = true → (s.reg (.depRec r)).getLsbD 0 = true →
      (eff (.depRec r)).reg (.depRec r) = 0 ∧ (eff (.depRec r)).reg (.depFirst r) = 0 ∧ (eff (.depRec r)).reg (.depLast r) = 0 ∧
      (eff (.depRec r)).reg (.depDetail r) = 0 ∧ (eff (.depRec r)).rf .depStat depStat_USED = s.rf .depStat depStat_USED - 1) ∧
    (∀ m, m < 32 →
      (v.getLsbD 33 = true → (eff (.monCtl m)).reg (.monMin m) = word (s.monLive m).min ∧ (eff (.monCtl m)).reg (.monMax m) = word (s.monLive m).max ∧
        (eff (.monCtl m)).reg (.monCount m) = word (s.monLive m).count ∧
        ∀ b, b < 32 → (eff (.monCtl m)).reg (.monBin m b) = word (tget (s.monLive m).bins b 0)) ∧
      (v.getLsbD 34 = true → (eff (.monCtl m)).monLive m = MonRun.start) ∧ (v.getLsbD 34 = false → (eff (.monCtl m)).mons = s.mons)) ∧
    (v.setWidth 32 = 0x4C4B444E#32 → s.mode ≠ mdLOCKDOWN → (eff .sysLock).mode = mdLOCKDOWN ∧ (eff .sysLock).rf .sysLdrec sysLdrec_CAUSE = 7 ∧
      (eff .sysLock).keys = [] ∧ (eff .sysLock).pinLockdown = true) ∧
    (v.setWidth 32 ≠ 0x4C4B444E#32 → eff .sysLock = s) ∧
    (v.getLsbD 0 = true → (eff .sysSvncommit).rf .sysFuse sysFuse_SVNMIN =
      max (min 63 (s.rf .imgActsvn imgActsvn_SVN)) (s.rf .sysFuse sysFuse_SVNMIN) % 2 ^ (sysFuse_SVNMIN.hi - sysFuse_SVNMIN.lo + 1)) ∧
    (v.getLsbD 0 = true → ig = false → s.serving = true →
      (eff .imgCheck).rf .imgStat imgStat_BUSY = 1 ∧ (eff .imgCheck).rf .imgStat imgStat_CHECKED = 0) ∧
    (v.getLsbD 0 = true → ig = false → eff .imgRctl = s.rctlGo q (v.getLsbD 1)) ∧
    (s.mode ≠ mdLOCKDOWN → resetReserved v = false →
      let ix := v.toNat / 256 % 128
      (v.toNat % 8 = 1 → eff .pwrReset = s.warmReset 2) ∧
      (v.toNat % 8 ≠ 1 → (∀ d, resetDomain v = some d → s.rf (.pwrDom d) pwrDom_STATE = 1) →
        (v.toNat % 8 = 2 → eff .pwrReset = s.domainReset ix) ∧
        (v.toNat % 8 = 3 → s.paired (2 * ix) = true → eff .pwrReset = s.pairReset ix) ∧ (v.toNat % 8 = 4 → eff .pwrReset = s.oneReset ix) ∧
        (v.toNat % 8 = 5 → v.toNat / 2 ^ 20 % 16 = 0 → eff .pwrReset = s.linkReset ix) ∧
        (v.toNat % 8 = 5 → v.toNat / 2 ^ 20 % 16 = 1 → eff .pwrReset = s.slotReset ix) ∧
        (v.toNat % 8 = 5 → v.toNat / 2 ^ 20 % 16 = 2 → eff .pwrReset = s.unitReset ix) ∧
        (v.toNat % 8 = 5 → v.toNat / 2 ^ 20 % 16 = 3 → eff .pwrReset = s.monReset ix) ∧
        (v.toNat % 8 = 5 → v.toNat / 2 ^ 20 % 16 = 4 → eff .pwrReset = s.laneReset ix)) ∧
      (∀ d on w, v.toNat % 8 ≠ 1 → resetDomain v = some d → s.rf (.pwrDom d) pwrDom_STATE = 2 → (s.switchAt.map Prod.fst).Nodup →
        (d, on, w) ∈ s.switchAt → (d, on, w ++ [v]) ∈ (eff .pwrReset).switchAt ∧ eff .pwrReset = { s with switchAt := (eff .pwrReset).switchAt })) ∧
    (∀ d, d < 96 → s.rf (.pwrDom d) pwrDom_REQ = 1 → old.getLsbD 0 = false →
      (eff (.pwrDom d)).rf (.pwrDom d) pwrDom_STATE = 2 ∧ tfind (eff (.pwrDom d)).switchAt d = some (s.now, [])) ∧
    (∀ d, d < 96 → s.rf (.pwrDom d) pwrDom_REQ = 0 → old.getLsbD 0 = true → eff (.pwrDom d) = s.domOff d) ∧
    (∀ j, eff (.pwrDvfs j) = s.groupMove j) ∧
    (ig = false → v.toNat % 8 = 3 →
      (eff .mgtFlcmd).rf .mgtFlcmd mgtFlcmd_BUSY = 1 ∧ (eff .mgtFlcmd).flOp = some (3, s.rf .mgtFlcmd mgtFlcmd_ADDR, s.now)) ∧
    (ig = false → v.toNat % 8 = 1 ∨ v.toNat % 8 = 2 → flashWritable (s.rf .mgtFlcmd mgtFlcmd_ADDR) = true →
      (eff .mgtFlcmd).rf .mgtFlcmd mgtFlcmd_BUSY = 1 ∧ (eff .mgtFlcmd).flOp = some (v.toNat % 8, s.rf .mgtFlcmd mgtFlcmd_ADDR, s.now)) ∧
    (v.getLsbD 24 = true → (eff .mgtMctl).rf .mgtMctl mgtMctl_TXBUSY = 1) ∧
    (s.rf .mgtUart mgtUart_EN = 0 → s.uartTx.length < 16 → (eff .mgtUdata).uartTx = s.uartTx ++ [v.toNat % 256])

/-! ## Memory, placement and the dependability hardware -/

/-- R399, R401, R517: HEAT_DECAY halves every heat field and every count of the plots' samples, and only calls for evaluations beside it.
R353, R401, R403: PLACEMENT_MOVE starts the move an evaluation called for, or one out of a fenced pseudo-channel, within RATE moves a
second; a pinned, sealed, invalid or moving page, and one without a destination, is passed over. R353, R69: a move copies data and tags
unchanged; R402: a frame that a move leaves is cleared to UNINIT. R387-R392, R394, R395: what each command of a pseudo-channel's controller
does. A corrected line counts, is reported with its address and waits for its write-back unless a requester's write came first; a scrub read
goes on to the next line it holds, an uncorrectable line becoming POISON; a sparing uses a spare row; a retraining leaves a margin and ends
with CALFAIL when it finds no setting; a copy advances COPY and the last one retires the pseudo-channel. -/
def Obligations.StackedMemoryResults : Prop :=
  ((∀ (s : State), s.serving = true → (s.heat.map (fun e => e.1)).Nodup →
      ∃ t, exec .heatDecay s = .next t ∧ s.heatAt + s.cfg.decay * 1000000 ≤ t.now ∧ t.heatAt = t.now ∧
        (∀ f, t.heatOf f = ((s.heatOf f).1 / 2, (s.heatOf f).2 / 2)) ∧
        (∀ p, (t.plotStatOf p).l = (s.plotStatOf p).l / 2 ∧ ∀ d, tget (t.plotStatOf p).cnt d 0 = tget (s.plotStatOf p).cnt d 0 / 2) ∧
        (∀ f k, (f, k) ∈ t.pleCand → (f, k) ∈ s.pleCand ∨ t.evalFrame f = some k) ∧
        t = { s with now := t.now, heatAt := t.heatAt, heat := t.heat, plotStat := t.plotStat, pleCand := t.pleCand, offers := t.offers }) ∧
    (∀ (f : Nat) (s : State), f < 0x600000 → s.serving = true → s.rf .pleCtl pleCtl_EN = 1 →
      let kind := s.pleCand.find? (fun e => decide (e.1 = f))
      let recent := s.moveAt.filter (fun t => decide (s.now < t + 1000000000))
      (kind.isSome = true ∨ s.pcState (pcOfFrame f) = pcFENCED) → recent.length < s.rf .pleCtl pleCtl_RATE →
      s.ovfBars (s.groupOf f) = false →
      ∃ t, exec (.placementMove f) s = .next t ∧ t.moveAt = recent ++ [s.now] ∧ t.pleCand = s.pleCand.filter (fun e => decide (e.1 ≠ f)) ∧
        t.now = s.now ∧
        (∀ x, x ∈ s.groupOf f → s.tableN ≤ x ∨ (s.entryOf x).pin = true ∨ s.inSealed (x * 2 ^ 14) = true ∨ (s.entryOf x).v = false ∨
            (s.entryOf x).mv = true →
          t = { s with moveAt := t.moveAt, pleCand := t.pleCand })) ∧
    (∀ (f g i : Nat) (s : State), s.mem.wf = true → f ≠ g → i < 2048 →
      (s.copyFrame f g).mem.word (g * 2 ^ 14 + 8 * i) = s.mem.word (f * 2 ^ 14 + 8 * i) ∧
      (s.copyFrame f g).mem.tag (g * 2 ^ 14 + 8 * i) = s.mem.tag (f * 2 ^ 14 + 8 * i)) ∧
    (∀ (f i : Nat) (s : State), s.mem.wf = true → i < 2048 → (s.clearFrame f).mem.tag (f * 2 ^ 14 + 8 * i) = tUNINIT)) ∧
  ((∀ (a : Nat) (dropped : Bool) (s : State), a < 0x18CCC00000 → s.mode ≠ mdLOCKDOWN → s.porLow = false →
      let pc := s.holderOf a
      ∃ t, exec (.ceWriteback a dropped) s = .next t ∧ t.events = s.events ++ [(⟨2, pc, 0x01, 0, lineOf a⟩ : DevEvent)] ∧
        t.rf (.memPcstat pc) memPcstat_CE = 1 ∧
        t.rf (.memErrcnt pc) memErrcnt_CE = (s.rf (.memErrcnt pc) memErrcnt_CE + 1) % 2 ^ (memErrcnt_CE.hi - memErrcnt_CE.lo + 1) ∧
        (lineOf a ∈ t.fixed ↔ (dropped = false ∨ lineOf a ∈ s.fixed)) ∧ ∀ tg, t.memOf tg = s.memOf tg) ∧
    (∀ (pc wrong : Nat) (s : State), pc < 128 → wrong ≤ 6 → s.mode ≠ mdLOCKDOWN → s.porLow = false → s.pcState pc ≠ pcRETIRED →
      s.mem.wf = true →
      let i := tget s.scrubAt pc 0
      let l := lineOf ((s.heldLine pc i).getD 0)
      ∃ t, exec (.scrubRead pc wrong) s = .next t ∧
        tget t.scrubAt pc 0 = (if (s.heldLine pc (i + 1)).isSome then i + 1 else 0) ∧
        ((s.heldLine pc (i + 1)) = none → ∀ r n, tfind t.rowFix (pc, r) ≠ some n) ∧
        (wrong ≤ 4 → ∀ tg, t.memOf tg = s.memOf tg) ∧ (wrong = 0 → t.events = s.events) ∧
        (4 < wrong → ∀ j, j < 8 → t.mem.tag (l + 8 * j) = tPOISON ∧ t.mem.word (l + 8 * j) = 0)) ∧
    (∀ (pc row : Nat) (s : State), pc < 128 → s.mode ≠ mdLOCKDOWN → s.rowBad.contains (pc, row) = true →
      s.rf (.memErrcnt pc) memErrcnt_SPARES ≠ 0 →
      let left := s.rf (.memErrcnt pc) memErrcnt_SPARES
      ∃ t, exec (.rowSparing pc row) s = .next t ∧ t.rf (.memErrcnt pc) memErrcnt_SPARES = left - 1 ∧
        t.rf .memCap memCap_SPARES = s.rf .memCap memCap_SPARES - 1 ∧ t.rowBad.contains (pc, row) = false ∧
        t.rf (.memPcstat pc) memPcstat_SPARED = 1 ∧ (left = 1 → t.rf (.memPcstat pc) memPcstat_SPAREOUT = 1) ∧
        t.events = s.events ++ [(⟨2, pc, 0x03, 0, 0⟩ : DevEvent)] ++ (if left = 1 then [(⟨2, pc, 0x04, 0, 0⟩ : DevEvent)] else []) ∧
        ∀ tg, t.memOf tg = s.memOf tg) ∧
    (∀ (pc fin : Nat) (s : State), pc < 128 → fin ≤ 2 → s.pcState pc ≠ pcRETIRED → s.mode ≠ mdLOCKDOWN → s.porLow = false →
      let c := s.calOf pc
      let asked := c.active = true ∨ c.asked = true ∨ 5 ≤ (s.stackTemp pc - signExtend c.temp 8).natAbs
      (asked ∨ (s.calPeriod pc).isSome = true) →
      ∃ t, exec (.retraining pc fin) s = .next t ∧ t.rf (.memPcstat pc) memPcstat_CALPM ≤ 20 ∧ (asked → t.now = s.now) ∧
        (∀ p, ¬ asked → s.calPeriod pc = some p → c.last + p ≤ t.now) ∧
        (t.calOf pc).active = decide (fin = 0) ∧ (t.calOf pc).asked = false ∧
        (fin = 2 → t.rf (.memPcstat pc) memPcstat_CALFAIL = 1 ∧ t.events = s.events ++ [(⟨2, pc, 0x05, 0, 0⟩ : DevEvent)]) ∧
        (fin ≠ 2 → t.events = s.events) ∧ ∀ tg, t.memOf tg = s.memOf tg) ∧
    (∀ (pc : Nat) (s : State), pc < 128 → s.pcState pc = pcDRAINING → s.mode ≠ mdLOCKDOWN → s.rf (.memPcstat pc) memPcstat_COPY < pcSlots →
      ∃ t, exec (.drainingCopy pc) s = .next t ∧ t.rf (.memPcstat pc) memPcstat_COPY = s.rf (.memPcstat pc) memPcstat_COPY + 1 ∧
        t.pcState pc = pcDRAINING ∧ (∀ r, r ≠ .memPcstat pc → t.reg r = s.reg r) ∧ t = { s with regs := t.regs }) ∧
    (∀ (pc : Nat) (s : State), pc < 128 → s.pcState pc = pcDRAINING → s.mode ≠ mdLOCKDOWN → pcSlots ≤ s.rf (.memPcstat pc) memPcstat_COPY →
      ∃ t, exec (.retdone pc) s = .next t ∧ t.pcState pc = pcRETIRED ∧ t.rf (.memPcstat pc) memPcstat_RETDONE = 1 ∧
        t.rf .memCap memCap_RETIRED = Nat.min (s.rf .memCap memCap_RETIRED + 1) (2 ^ (memCap_RETIRED.hi - memCap_RETIRED.lo + 1) - 1) ∧
        bit t.degr 2 = (decide (s.cfg.memFloor < t.rf .memCap memCap_RETIRED) || decide (s.rf .memCap memCap_FENCED ≠ 0)) ∧
        ∀ tg, t.memOf tg = s.memOf tg))

/-- R370, R374, R530, R532, R542-R544, R551-R553: an epoch ends and a queued one starts; a halt that a debugger asked for is honoured; an
event reaches its record, which it makes or counts in; the end of a record's hold sets a deferred NEW; a measurement moves OFFSET toward
what the slack requires by at most 5 mV; a monitor unit counts its sample. -/
def Obligations.DependabilityResults : Prop :=
  (∀ (s : State), s.rf .rdgEpoch rdgEpoch_BUSY = 1 →
    ∃ t, exec .epochAdvanceComplete s = .next t ∧
      t.rf .rdgEpochnum rdgEpochnum_CUR = (s.rf .rdgEpochnum rdgEpochnum_CUR + 1) % 2 ^ 32 ∧
      t.rf .rdgEpoch rdgEpoch_BUSY = s.rf .rdgEpoch rdgEpoch_QUEUED ∧ t.rf .rdgEpoch rdgEpoch_QUEUED = 0 ∧
      (s.rf .rdgEpoch rdgEpoch_QUEUED = 1 → t.rdgStale = []) ∧
      t.rf (.intcSrc 594) intcSrc_CNT = min (s.rf (.intcSrc 594) intcSrc_CNT + 1) 0xFFFF ∧
      (∀ r, Claims.isIntc r = false → r ≠ .rdgEpoch → r ≠ .rdgEpochnum → t.reg r = s.reg r) ∧ ∀ tg, t.memOf tg = s.memOf tg) ∧
  (∀ (n : Nat) (s : State), n < 112 → s.rf (.dbgCorectl n) dbgCorectl_PEND = 1 → s.coreWorld n = false → s.serving = true →
    (∀ k, k < 2 → (s.ctx (s.unit n) k).atBoundary = true) →
    ∃ t, exec (.coreHalted n) s = .next t ∧
      (∀ c, c ∈ s.ctlCores n → t.rf (.dbgCorectl c) dbgCorectl_HALTED = 1 ∧ t.rf (.dbgCorectl c) dbgCorectl_PEND = 0) ∧
      tfind t.haltAt (s.unit n) = some s.now ∧ t.rf (.intcSrc 595) intcSrc_CNT = min (s.rf (.intcSrc 595) intcSrc_CNT + 1) 0xFFFF ∧
      (∀ r, Claims.isIntc r = false → (∀ c, c ∈ s.ctlCores n → r ≠ .dbgCorectl c) → t.reg r = s.reg r) ∧ ∀ tg, t.memOf tg = s.memOf tg) ∧
  (∀ (e : DevEvent) (s : State), subjectOk e.sc e.ix = true → e.ev < 256 → s.events.contains e = true →
    (∀ r, s.findRecord e.sc e.ix e.ev = none → s.freeRecord = some r →
      ∃ t, exec (.eventReport e) s = .next t ∧ t.recHas r e.sc e.ix e.ev = true ∧ t.rf (.depRec r) depRec_COUNT = 1 ∧
        t.rf (.depRec r) depRec_NEW = 1 ∧ t.reg (.depFirst r) = BitVec.ofNat 64 s.now ∧ t.reg (.depLast r) = BitVec.ofNat 64 s.now ∧
        t.reg (.depDetail r) = BitVec.ofNat 64 e.detail) ∧
    (s.findRecord e.sc e.ix e.ev = none → s.freeRecord = none →
      ∃ t, exec (.eventReport e) s = .next t ∧
        t.rf .depStat depStat_LOST = (s.rf .depStat depStat_LOST + 1) % 2 ^ (depStat_LOST.hi - depStat_LOST.lo + 1) ∧
        t.reg (.depLast 1023) = BitVec.ofNat 64 s.now) ∧
    (∀ r, s.findRecord e.sc e.ix e.ev = some r →
      ∃ t, exec (.eventReport e) s = .next t ∧ t.recHas r e.sc e.ix e.ev = true ∧
        t.rf (.depRec r) depRec_COUNT = min (s.rf (.depRec r) depRec_COUNT + 1) 0xFFFF ∧ t.reg (.depLast r) = BitVec.ofNat 64 s.now ∧
        (t.rf (.depRec r) depRec_NEW = 1 ∨ t.rf (.depRec r) depRec_DEFER = 1))) ∧
  (∀ (e : DevEvent) (s u : State), subjectOk e.sc e.ix = true → s.events.contains e = false → s.mode ≠ mdLOCKDOWN → s.mode ≠ mdSELFTEST →
    s.freshError e = some u → exec (.eventReport e) s = .next ({ u with events := u.events.erase e }.depReport e)) ∧
  (∀ (r : Nat) (s : State), r < 1024 → s.rf (.depRec r) depRec_V = 1 → s.rf (.depRec r) depRec_DEFER = 1 → s.rf (.depRec r) depRec_NEW = 0 →
    ∃ t, exec (.depHoldEnd r) s = .next t ∧ tget s.lastIrq r 0 + s.depHold ≤ t.now ∧ t.rf (.depRec r) depRec_DEFER = 0 ∧
      t.rf (.depRec r) depRec_NEW = 1 ∧ tfind t.lastIrq r = some (tget s.lastIrq r 0 + s.depHold) ∧
      (∀ q, Claims.isIntc q = false → q ≠ .depRec r → t.reg q = s.reg q) ∧ ∀ tg, t.memOf tg = s.memOf tg) ∧
  (∀ (d slack : Nat) (s : State), d < 96 → slack < 65536 → s.serving = true → s.rf (.pwrDom d) pwrDom_STATE = 1 →
    let short := ((tget s.cfg.slackT (domKind d) (0, 0)).1 : Int) - (BitVec.ofNat 16 slack).toInt
    let req := s.ageRequired d short.toNat
    let cap := s.rf (.ageDom d) ageDom_CAP
    let off := s.rf (.ageDom d) ageDom_OFFSET
    ∃ t, exec (.ageMeasurement d slack) s = .next t ∧
      (s.ageRound ≤ tget s.ageAt d 0 → s.ageRound + s.rf .ageCfg ageCfg_PERIOD * 1000000 ≤ t.now) ∧ tget t.ageAt d 0 = t.ageRound ∧
      t.rf (.ageDom d) ageDom_SLACK = slack ∧
      (off ≤ req → req ≤ cap → s.rf (.ageDom d) ageDom_STATE ≠ 2 → off ≤ t.rf (.ageDom d) ageDom_OFFSET ∧ t.rf (.ageDom d) ageDom_OFFSET ≤ min req (off + 5)) ∧
      (req ≤ off → off ≤ cap → s.rf (.ageDom d) ageDom_STATE ≠ 2 → t.rf (.ageDom d) ageDom_OFFSET = max req (off - 5)) ∧
      (cap < req → tget s.ageOver d 0 = 2 → s.rf (.ageDom d) ageDom_STATE < 2 → t.rf (.ageDom d) ageDom_STATE = 2 ∧
        t.events = s.events ++ [(⟨7, d, 0x31, 0, 0⟩ : DevEvent)]) ∧
      (4 * req < 3 * cap → s.rf (.ageDom d) ageDom_STATE < 2 → t.rf (.ageDom d) ageDom_STATE = 0 ∧ t.events = s.events) ∧
      ∀ tg, t.memOf tg = s.memOf tg) ∧
  (∀ (m ix x n : Nat) (s : State), m < 32 → s.rf (.monCtl m) monCtl_RUN = 1 → s.rf (.monCtl m) monCtl_SEL ≠ 0 →
    monInstances (s.rf (.monCtl m) monCtl_SEL) = some n → ix < max n 1 →
    (n = 0 ∨ s.rf (.monCtl m) monCtl_FILTER = 0xFFFF ∨ s.rf (.monCtl m) monCtl_FILTER = ix) → s.serving = true →
    ∃ t v, exec (.monitorSample m ix x) s = .next t ∧
      (s.rf (.monCtl m) monCtl_SEL < 0x10 → v = x) ∧ (s.rf (.monCtl m) monCtl_SEL = 0x12 → v = s.rf .pwrPkg pwrPkg_POWER) ∧
      (s.rf (.monCtl m) monCtl_SEL = 0x10 → s.rf (.pwrDom ix) pwrDom_TEMP < 128 → v = s.rf (.pwrDom ix) pwrDom_TEMP) ∧
      let old := s.monLive m
      let new := t.monLive m
      let b := s.binOf m v
      new.min = min old.min v ∧ new.max = max old.max v ∧ new.count = min (old.count + 1) 0xFFFFFFFF ∧
      tget new.bins b 0 = min (tget old.bins b 0 + 1) 0xFFFFFFFF ∧ (∀ c, c ≠ b → tget new.bins c 0 = tget old.bins c 0) ∧
      (∀ q, q ≠ m → t.monLive q = s.monLive q) ∧
      (s.rf (.monCtl m) monCtl_ALARMEN = 1 → (s.reg (.monAlarm m)).toNat ≤ v →
        Claims.Reported { s with mons := t.mons } { t with free := s.free } (496 + m)) ∧
      (s.rf (.monCtl m) monCtl_ALARMEN = 0 ∨ v < (s.reg (.monAlarm m)).toNat → t = { s with mons := t.mons, free := t.free }))

/-- R587-R597, R611, R614, R622: a domain that was being switched on serves, and resets that its units were sent meanwhile
are applied then; a PLL that unlocks stops its clock and shows it, and of the
P-cores resets every pair; the reference clock's loss fails a slot that is mirrored or copied to, and its return attests a cartridge that
waited; the power and thermal controls move the points of the W-core groups one step; the regulator's answer lets the raises that waited
proceed, and its silence for 1 ms is reported; THERMTRIP_N goes low. -/
def Obligations.PowerEventResults : Prop :=
  (∀ (d at' : Nat) (later : List Word) (s : State), d < 96 → tfind s.switchAt d = some (at', later) →
    ∃ u t, exec (.switchOnComplete d) s = .next t ∧ t = later.foldl (fun s v => s.resetUnit v) u ∧
      u.rf (.pwrDom d) pwrDom_STATE = 1 ∧ u.rf (.pwrDom d) pwrDom_SWITCHED = 1 ∧
      tfind u.switchAt d = none ∧ at' + (if d < 24 then 243000 else if d < 56 then 43000 else 3000) ≤ u.now ∧
      (∀ n, n ∈ s.domCores d → s.isRetired 0 n = false → (u.core n).off = false ∧ (u.core n).held = !s.serving) ∧ s.avsTarget ≤ u.avsTarget) ∧
  (∀ (n : Nat) (s : State), n < 13 → s.pllOff.contains n = false → s.porLow = false →
    ∃ t, exec (.pllUnlock n) s = .next t ∧ t.pllOff = s.pllOff ++ [n] ∧ (t.reg .clkStat).getLsbD n = true ∧
      (n ≠ 0 → (∀ d, d ∈ clockDomains n → t.rf (.intcSrc (400 + d)) intcSrc_CNT = min (s.rf (.intcSrc (400 + d)) intcSrc_CNT + 1) 0xFFFF) ∧
        ∀ tg, t.memOf tg = s.memOf tg) ∧
      (n = 0 → ∀ k, k < 24 → s.paired (2 * k) = true → tget t.cbuf (2 * k) [] = [])) ∧
  (∀ (n : Nat) (s : State), n < 13 → s.pllOff.contains n = true →
    ∃ t, exec (.pllLockRegained n) s = .next t ∧ t.pllOff.contains n = false ∧ (∀ m, m ≠ n → t.pllOff.contains m = s.pllOff.contains m) ∧
      t = { s with pllOff := t.pllOff }) ∧
  (∀ (s : State), s.ref100 = true →
    ∃ t, exec .referenceClockLost s = .next t ∧ t.ref100 = false ∧ (t.reg .clkStat).getLsbD 17 = false ∧
      (∀ j, j < 2 → (s.jcState j = jsMIRROR ∨ s.jcState j = jsRESILVER → t.jcState j = jsFAILED ∧ t.rf (.jcSlot j) jcSlot_REASON = 11) ∧
        (s.jcState j ≠ jsMIRROR → s.jcState j ≠ jsRESILVER → t.reg (.jcSlot j) = s.reg (.jcSlot j))) ∧ ∀ tg, t.memOf tg = s.memOf tg) ∧
  (∀ (s : State), s.ref100 = false → s.porLow = false →
    ∃ t, exec .referenceClockRestored s = .next t ∧ t.ref100 = true ∧ (t.reg .clkStat).getLsbD 17 = true ∧
      (∀ j, j < 2 → (s.jcState j ≠ jsABSENT ∨ tfind s.carts j = none → t.reg (.jcSlot j) = s.reg (.jcSlot j)) ∧
        (s.jcState j = jsABSENT → (tfind s.carts j).isSome = true → t.portsRun j = true → t.jcState j = jsATTEST)) ∧
      t = { s with regs := t.regs, ref100 := true }) ∧
  (∀ (watts : Nat) (s : State), watts < 512 → s.porLow = false → s.wrstLow = false →
    let limit := s.rf .pwrLimit pwrLimit_WATTS
    ∃ t, exec (.powerControl watts) s = .next t ∧ t.rf .pwrPkg pwrPkg_POWER = watts ∧ s.now + 10000 ≤ t.now ∧
      (∀ j, limit < watts → s.fastestGroup = some j → tget t.pcap j 0 = tget s.pcap j 0 + 1 ∧ ∀ i, i ≠ j → tget t.pcap i 0 = tget s.pcap i 0) ∧
      (limit < watts → s.fastestGroup = none → t.pcap = s.pcap) ∧
      (∀ j t0, watts + 10 ≤ limit → s.powerLow = some t0 → t0 + 1000000 ≤ t.now → s.slowestGroup = some j →
        tget t.pcap j 0 = tget s.pcap j 0 - 1 ∧ ∀ i, i ≠ j → tget t.pcap i 0 = tget s.pcap i 0) ∧
      (watts ≤ limit → limit < watts + 10 → t.pcap = s.pcap ∧ t.powerLow = none) ∧
      (watts + 10 ≤ limit → s.powerLow = none → t.pcap = s.pcap ∧ t.powerLow = some t.now)) ∧
  (∀ (d temp : Nat) (s : State), d < 96 → temp < 256 → s.porLow = false →
    let old := s.domTemp d
    let new := (BitVec.ofNat 8 temp).toInt
    (∃ t, exec (.thermalLimit d temp false) s = .next t ∧ t.rf (.pwrDom d) pwrDom_TEMP = temp ∧
      (old ≤ 100 ∧ 100 < new → t.rf (.pwrDom d) pwrDom_THERM = 1 ∧ t.events = s.events ++ [(⟨7, d, 0x32, 0, 0⟩ : DevEvent)]) ∧
      (100 < old ∨ new ≤ 100 → t.events = s.events ∧ t.rf (.pwrDom d) pwrDom_THERM = s.rf (.pwrDom d) pwrDom_THERM)) ∧
    (temp = s.rf (.pwrDom d) pwrDom_TEMP → 100 < old ∨ old < 95 →
      ∃ t, exec (.thermalLimit d temp true) s = .next t ∧
        tget s.thermAt d 0 + (if 100 < old then 1000000 else 10000000) ≤ t.now ∧
        (d < 24 → t.rf (.pwrDom d) pwrDom_LIMITED = (if 100 < old then 1 else 0)) ∧
        (24 ≤ d → d < 56 → tget t.tcap (d - 24) 0 = (if 100 < old then min 5 (tget s.tcap (d - 24) 0 + 1) else tget s.tcap (d - 24) 0 - 1) ∧
          t.rf (.pwrDom d) pwrDom_LIMITED = (if tget t.tcap (d - 24) 0 = 0 then 0 else 1)))) ∧
  (∀ (d : Nat) (s : State), d < 96 → 115 < s.domTemp d → s.porLow = false →
    ∃ t, exec (.thermtrip d) s = .next t ∧ t.pinThermtrip = true ∧ tget s.thermAt (96 + d) 0 + 100000 ≤ t.now ∧
      t = { s with pinThermtrip := true, now := t.now }) ∧
  (∀ (at' : Nat) (s : State), s.avsAsk = some at' →
    (∃ t, exec .avsAckTimeout s = .next t ∧ t.avsHold = true ∧ at' + 1000000 ≤ t.now ∧
      Claims.Reported ({ s with avsHold := true }.advanceTo (at' + 1000000)) t 495) ∧
    ((∀ j, j < 32 → s.groupPoint j ≤ s.rf (.pwrDvfs j) pwrDvfs_CUR) →
      ∃ t, exec .avsAcknowledgement s = .next t ∧ t.avsAsk = none ∧ t.avsHold = false ∧
        (∀ j, j < 32 → t.rf (.pwrDvfs j) pwrDvfs_CUR = s.groupPoint j) ∧ t.railNeed ≤ t.avsTarget ∧ ∀ tg, t.memOf tg = s.memOf tg))

/-! ## Ingress, egress and the journal -/

/-- R416, R419: whatever the format and the frame, the parser makes one entry for each descriptor and eight keys, and an entry that is
present lies within the frame. -/
def Obligations.ParsedFieldsLieWithinTheFrame : Prop :=
  ∀ (f ds : List Nat), let p := parseAll f PState.start 0 ds
    p.ents.length = ds.length ∧ p.keys.length = 8 ∧ ∀ e, e ∈ p.ents → e.st = 1 → e.off + e.len ≤ f.length

/-- R408-R412, R417-R426, R439: a doorbell moves TAIL of a lane its function may ring and is reported otherwise; a lane reads the descriptor
at HEAD, and one it does not own, or of a wrong length, ends with a notice of outcome 7 or 6 and HEAD passes it; a frame that was read lands
in a free slot and joins the parser; a lane without a slot for 1 ms is reported; a format that is fetched is resident, or rejected where its
words fail the checks; a parsed frame leaves the parser, ends with outcome 4 where its format is rejected, and otherwise its record follows
it into a class queue, or it ends with outcome 5. R410, R483, R484, R524: egress releases the first response of a lane that may go: one
without data and not a notice writes nothing; onto a host lane it takes the posted buffer at HEAD, which a descriptor that is not the
device's passes without the response; onto a lane of the fabric it leaves as FRESP. A response that waited 1 ms for a buffer is reported;
POST_BUFFER moves TAIL under the doorbell's rules. -/
def Obligations.IngressAndEgressResults : Prop :=
  ((∀ (f l : Nat) (v : Word) (s : State), f < 16 → l < 16 → s.hostUp = true →
      ∃ t, exec (.laneDoorbell f l v) s = .next t ∧
        (s.mayRing f l = true → t.rf (.ingLptr l) ingLptr_TAIL = (v.extractLsb' 0 12).toNat % s.laneRing l ∧
          (∀ r, r ≠ .ingLptr l → t.reg r = s.reg r) ∧ t = { s with regs := t.regs }) ∧
        (s.mayRing f l = false → Claims.Reported s t (545 + 2 * f))) ∧
    (∀ (l : Nat) (s u : State) (bs : List Nat) (ok : Bool), l < 16 → s.ingOn = true → s.rf (.ingLcfg l) ingLcfg_EN = 1 →
      s.rf (.ingLcfg l) ingLcfg_SRC = 0 → tfind s.lanes l = none → s.laneHead l ≠ s.laneTail l → s.rf (.ingLring l) ingLring_SIZE ≤ 8 →
      let a := fld (s.reg (.ingLring l)) 43 6 * 64 + 64 * s.laneHead l
      s.masterReadBytes mING 0 a 64 2 = (bs, ok, u) → u.rf (.ingLring l) ingLring_SIZE ≤ 8 →
      let w := fun (i : Nat) => ofBytes ((bs.drop (8 * i)).take 8)
      let good := ok = true ∧ bit (w 0) 63 = true ∧ bits (w 0) 62 44 = 0 ∧ bits (w 0) 5 0 = 0 ∧ bits (w 1) 63 25 = 0 ∧
        bits (w 1) 15 13 = 0 ∧ ∀ i, 3 ≤ i → i < 8 → w i = 0
      let len := bits (w 1) 12 0
      ∃ t, exec (.ringDescriptorRead l) s = .next t ∧
        (good → 1 ≤ len → len ≤ 4096 → t = { u with lanes := t.lanes } ∧
          ∃ fmt, tfind t.lanes l = some ⟨a, w 0, bits (w 0) 43 6 * 64, len, fmt, w 2, u.now⟩ ∧
            fmt = (if bit (w 1) 24 then bits (w 1) 23 16 else u.rf (.ingLcfg l) ingLcfg_DEFFMT)) ∧
        (¬ good ∨ len = 0 ∨ 4096 < len → tfind t.lanes l = tfind u.lanes l ∧
          t.rf (.ingLptr l) ingLptr_HEAD = (u.laneHead l + 1) % u.laneRing l ∧
          ∃ outcome, (¬ good → outcome = 7) ∧ (good → outcome = 6) ∧
            t.egr = u.egr ++ [(⟨l, none, 0, outcome, w 2, 0, 0, w 2⟩ : Resp)])) ∧
    (∀ (l : Nat) (s u : State) (j : LaneJob) (bs : List Nat) (ok : Bool), l < 16 → tfind s.lanes l = some j → s.ingOn = true →
      s.freeSlots ≠ [] → { s with lanes := tdel s.lanes l }.masterReadBytes mING 0 j.addr j.len (j.len / 64 + 2) = (bs, ok, u) →
      ∃ t, exec (.frameLanding l) s = .next t ∧ tfind t.lanes l = none ∧
        (ok = false → t.egr = u.egr ++ [(⟨l, none, 0, 7, j.tag, 0, 0, j.tag⟩ : Resp)] ∧ t.parseQ = u.parseQ) ∧
        (ok = true → t.egr = u.egr ∧ ∃ slot, slot ∈ s.freeSlots ∧ t.slots = u.slots ++ [slot] ∧
          t.parseQ = u.parseQ ++ [(⟨l, slot, j.tag, u.now, j.fmt, bs⟩ : PFrame)])) ∧
    (∀ (l : Nat) (s : State) (j : LaneJob), l < 16 → tfind s.lanes l = some j → s.freeSlots = [] →
      ∃ t, exec (.laneStall l) s = .next t ∧ j.since + 1000000 ≤ t.now ∧ Claims.Reported (s.advanceTo (j.since + 1000000)) t (4 * l + 3)) ∧
    (∀ (s u : State) (p : PFrame) (rest : List PFrame) (bs : List Nat) (ok : Bool), s.parseQ = p :: rest → s.ingOn = true →
      (∀ e, e ∈ s.parseBegin.fcache → e.1 ≠ p.fmt) → s.parseBegin.fbad.contains p.fmt = false →
      s.parseBegin.masterReadBytes mING 0
        (fld (s.parseBegin.reg (.ingFbase (s.parseBegin.pbank.getD 0))) 43 19 * 2 ^ 19 + 0x800 * p.fmt) 0x800 33 = (bs, ok, u) →
      ∃ t, exec .formatFetch s = .next t ∧ t.parseQ = s.parseQ ∧
        (ok = true → formatOk (wordsLE bs 256) = true → t.fbad.contains p.fmt = false ∧ ∃ ds, (p.fmt, ds) ∈ t.fcache ∧
          ds.length = bits ((wordsLE bs 256).getD 0 0) 7 0) ∧
        (ok = false ∨ formatOk (wordsLE bs 256) = false → t.fbad.contains p.fmt = true ∧ ∀ e, e ∈ t.fcache → e.1 ≠ p.fmt)) ∧
    (∀ (s : State) (q : PFrame) (rest : List PFrame), s.parseQ = q :: rest → s.ingOn = true →
      (s.parseBegin.fbad.contains q.fmt = true →
        ∃ t, exec .parse s = .next t ∧ t.parseQ = rest ∧ t.pbank = none ∧ q.slot ∉ t.slots ∧
          t.egr = s.egr ++ [(⟨q.lane, none, 0, 4, q.tag, 0, 0, q.tag⟩ : Resp)]) ∧
      (∀ ds, s.parseBegin.fbad.contains q.fmt = false → s.parseBegin.fcache.find? (fun e => decide (e.1 = q.fmt)) = some (q.fmt, ds) →
        let p := parseAll q.bytes PState.start 0 ds
        let bank := s.lastWritten .ingBank ingBank_RACT % 2
        ∃ t, exec .parse s = .next t ∧ t.parseQ = rest ∧ t.pbank = none ∧
          ((∀ i, i < 16 → s.ruleMatches (ruleIx bank q.fmt i) p.keys = false) →
            q.slot ∉ t.slots ∧ t.egr = s.egr ++ [(⟨q.lane, none, 0, 5, q.tag, 0, 0, q.tag⟩ : Resp)] ∧ t.queues = s.queues) ∧
          (∀ i, i < 16 → s.ruleMatches (ruleIx bank q.fmt i) p.keys = true →
            (∀ i', i' < i → s.ruleMatches (ruleIx bank q.fmt i') p.keys = false) →
            let cls := fld (s.reg (.ingRuleW0 (ruleIx bank q.fmt i))) 13 8
            (s.reg (.ingClass cls)).getLsbD 0 = true → s.mode ≠ 4 →
            t.egr = s.egr ∧ ∃ fr, tget t.queues cls [] = tget s.queues cls [] ++ [fr] ∧ fr.lane = q.lane ∧ fr.slot = q.slot ∧
              fr.tag = q.tag ∧ fr.cls = cls ∧ fr.keys = p.keys ∧ fr.rule = 16 * q.fmt + i ∧ fr.attempt = 0)))) ∧
  ((∀ (l : Nat) (s : State) (r : Resp), l < 16 → s.ingOn = true → s.nextResp l = some r → r.lane = l ∧ r.wait ≤ (s.reg .jcDur).toNat ∧
      (s.fabricLane l = true → ∃ t, exec (.responseRelease l) s = .next t ∧ t.egr = s.egr.erase r ∧ (∀ i, r.slot = some i → i ∉ t.slots)) ∧
      (s.fabricLane l = false → r.outcome = 0 → r.len = 0 →
        ∃ t, exec (.responseRelease l) s = .next t ∧ t.egr = s.egr.erase r ∧ (∀ i, r.slot = some i → i ∉ t.slots) ∧
          t = { s with egr := t.egr, slots := t.slots }) ∧
      (s.fabricLane l = false → r.outcome ≠ 0 ∨ r.len ≠ 0 → s.compHead l ≠ s.compTail l → s.rf (.egrCring l) egrCring_SIZE ≤ 8 →
        ∀ (u : State) (bs : List Nat) (ok : Bool),
        s.masterReadBytes mEGR 0 (fld (s.reg (.egrCring l)) 43 6 * 64 + 64 * s.compHead l) 64 2 = (bs, ok, u) →
        ∃ t, exec (.responseRelease l) s = .next t ∧ t.rf (.egrCptr l) egrCptr_HEAD = (s.compHead l + 1) % s.compRing l ∧
          (ok = false ∨ bit (ofBytes (bs.take 8)) 63 = false → t.egr = s.egr ∧ t.slots = s.slots ∧
            t.rf (.intcSrc (65 + 2 * l)) intcSrc_CNT = min (u.rf (.intcSrc (65 + 2 * l)) intcSrc_CNT + 1) 0xFFFF) ∧
          (ok = true → bit (ofBytes (bs.take 8)) 63 = true → compZeros (wordsLE bs 8) = true → t.egr = s.egr.erase r ∧
            (∀ i, r.slot = some i → i ∉ t.slots) ∧
            t.rf (.egrCstat l) egrCstat_DONE = (s.rf (.egrCstat l) egrCstat_DONE + 1) % 2 ^ 32)) ∧
      (s.fabricLane l = false → r.outcome ≠ 0 ∨ r.len ≠ 0 → s.compHead l = s.compTail l →
        ∃ t, exec (.responseBufferWait l) s = .next t ∧ s.now + 1000000 ≤ t.now ∧
          Claims.Reported (s.advanceTo (s.now + 1000000)) t (65 + 2 * l))) ∧
    (∀ (f l : Nat) (v : Word) (s : State), f < 16 → l < 16 → s.hostUp = true →
      ∃ t, exec (.postBuffer f l v) s = .next t ∧
        (s.mayRing f l = true → t.rf (.egrCptr l) egrCptr_TAIL = (v.extractLsb' 0 12).toNat % s.compRing l ∧
          (∀ r, r ≠ .egrCptr l → t.reg r = s.reg r) ∧ t = { s with regs := t.regs }) ∧
        (s.mayRing f l = false → Claims.Reported s t (545 + 2 * f))))

/-- R465-R472, R475-R479: a record is sealed behind its header and staged; an append takes the next number no sooner than 4 µs after the
last one unless 64 KiB wait; an acknowledged append stands on its cartridge, and DURSEQ does not fall; a slot that fails, is refused, is
labelled or is copied to, and a journal that no mirror acknowledges, are as the rules state; the read-out ends with its result. -/
def Obligations.JournalResults : Prop :=
  (∀ (s : State) (r : JRec) (rest : List JRec), s.sealing = r :: rest → r.seq < 2 ^ 64 → (∀ e, e ∈ s.staged → e.seq < r.seq) →
    (s.reg .jcDur).toNat < r.seq →
    ∃ t, exec .recordSealing s = .next t ∧ t.sealing = rest ∧
      ∃ e, e ∈ t.staged ∧ e.seq = r.seq ∧ e.bytes.take 16 = s.jcHeader r ∧ e.sent0 = none ∧ e.sent1 = none ∧ e.ack0 = false ∧ e.ack1 = false) ∧
  (∀ (s : State), s.unsent ≠ 0 →
    ∃ t, exec .append s = .next t ∧ t.jcAppends = s.jcAppends + 1 ∧ t.jcLast = t.now ∧ (65536 ≤ s.unsent → t.now = s.now) ∧
      (s.unsent < 65536 → s.jcLast + 4000 ≤ t.now) ∧
      (∀ e, e ∈ t.staged → ∃ e', e' ∈ s.staged ∧ e'.seq = e.seq ∧ e'.bytes = e.bytes) ∧ ∀ tg, t.memOf tg = s.memOf tg) ∧
  (∀ (j a : Nat) (s : State) (c : Cart), j < 2 → (s.outstanding j).contains a = true → (s.jcState j = jsMIRROR ∨ s.jcState j = jsRESILVER) →
    tfind s.carts j = some c → (∀ e, e ∈ s.staged → e.seq < 2 ^ 64) →
    ∃ t c', exec (.cartridgeAck j a) s = .next t ∧ tfind t.carts j = some c' ∧
      (let acked := fun (e : JEntry) (x : JSent) => e ∈ s.staged ∧ e.sent j = some x ∧ x.append = a ∧ e.ack j = false
       (∀ e x, acked e x →
          (∀ e' x', acked e' x' → e' ≠ e → ringShares (⟨e.seq, x.off, e.bytes⟩ : RingEnt) ⟨e'.seq, x'.off, e'.bytes⟩ = false) →
          (⟨e.seq, x.off, e.bytes⟩ : RingEnt) ∈ c'.ents) ∧
       ∀ e, e ∈ c.ents → (∀ e' x', acked e' x' → ringShares e (⟨e'.seq, x'.off, e'.bytes⟩ : RingEnt) = false) → e ∈ c'.ents) ∧ (t.jrun j).lastAck = s.now ∧ (s.reg .jcDur).toNat ≤ (t.reg .jcDur).toNat ∧
      (s.jcState j = jsMIRROR → t.jcQuiet = false)) ∧
  (∀ (s : State), s.slotsIn jsMIRROR ≠ [] → s.jcQuiet = false → s.serving = true →
    (∃ j, j ∈ s.slotsIn jsMIRROR ∧ s.outstanding j ≠ []) →
    ∃ t, exec .journalStall s = .next t ∧ t.jcQuiet = true ∧ t.rf .jcStat jcStat_STALL = 1 ∧ s.lastMirrorAck + 1000000 ≤ t.now ∧
      t.reg .jcDur = s.reg .jcDur) ∧
  (∀ (j : Nat) (s : State), j < 2 →
    (∀ quiet, s.jcState j = jsMIRROR ∨ s.jcState j = jsRESILVER → s.silentSince j = some quiet → s.jcState (1 - j) = jsMIRROR →
      quiet < (s.jrun (1 - j)).lastAck →
      ∃ t, exec (.slotUnanswered j) s = .next t ∧ t.jcState j = jsFAILED ∧ t.rf (.jcSlot j) jcSlot_REASON = 11 ∧
        t.jcState (1 - j) = jsMIRROR ∧ quiet + 1000000 ≤ t.now) ∧
    (s.jcState j = jsMIRROR ∨ s.jcState j = jsRESILVER →
      ∃ t, exec (.mediaError j) s = .next t ∧ t.jcState j = jsFAILED ∧ t.rf (.jcSlot j) jcSlot_REASON = 12 ∧
        t.jcState (1 - j) = s.jcState (1 - j)) ∧
    (∀ c, tfind s.carts j = none →
      ∃ t, exec (.cartridgeInsert j c) s = .next t ∧ tfind t.carts j = some c ∧ t.rf (.jcSlot j) jcSlot_PRESENT = 1 ∧
        s.now + 250000000 ≤ t.now ∧ (s.portsRun j = true → t.jcState j = jsATTEST) ∧
        (s.portsRun j = false → t.jcState j = s.jcState j)) ∧
    ((tfind s.carts j).isSome = true →
      ∃ t, exec (.cartridgeRemove j) s = .next t ∧ tfind t.carts j = none ∧ t.rf (.jcSlot j) jcSlot_PRESENT = 0 ∧
        t.jcState j = (if s.jcState j = jsMIRROR then jsFAILED else jsABSENT) ∧
        t.rf (.jcSlot j) jcSlot_REASON = (if s.jcState j = jsMIRROR then 10 else 0)) ∧
    (∀ c, s.jcState j = jsATTEST → s.serving = true → s.portsRun j = true → tfind s.carts j = some c →
      ∃ t, exec (.attestation j) s = .next t ∧
        (∀ r, s.attestReason c = some r → t.jcState j = jsREFUSED ∧ t.rf (.jcSlot j) jcSlot_REASON = r) ∧
        (s.attestReason c = none → s.foreignLabel c = true → t.jcState j = jsREFUSED ∧ t.rf (.jcSlot j) jcSlot_REASON = 7) ∧
        (s.attestReason c = none → s.foreignLabel c = false → s.slotsIn jsMIRROR ≠ [] → t.jcState j = jsRESILVER) ∧
        (s.attestReason c = none → s.foreignLabel c = false → s.slotsIn jsMIRROR = [] → s.jcState (1 - j) ≠ jsRESILVER →
          t.jcState j = (if s.completeOrBlank j then jsMIRROR else jsRESILVER))) ∧
    (s.jcState j = jsATTEST → s.portsRun j = true →
      ∃ t, exec (.attestationTimeout j) s = .next t ∧ t.jcState j = jsREFUSED ∧ t.rf (.jcSlot j) jcSlot_REASON = 6 ∧
        s.now + 1000000000 ≤ t.now) ∧
    (s.serving = true →
      ∃ t, exec .wearRead s = .next t ∧ s.now + 10000000000 ≤ t.now ∧ ∀ c, tfind s.carts j = some c → jsRESILVER ≤ s.jcState j →
        t.rf (.jcWear j) jcWear_WRITTEN = c.written / 1000000000 % 2 ^ 40 ∧
        t.rf (.jcWear j) jcWear_PCT = min 255 (c.written * 100 / 24000000000000000)) ∧
    (∀ c e, s.jcState j = jsRESILVER → tfind s.carts j = some c → s.copyEntry j = some e →
      ∃ t c', exec (.resilver j) s = .next t ∧ tfind t.carts j = some c' ∧ e ∈ c'.ents ∧ (∀ x, x ∈ c'.ents → x.seq = e.seq → x = e) ∧
        (∀ x, x ∈ c.ents → x.seq ≠ e.seq → x ∈ c'.ents) ∧ (t.jrun j).copyNext = e.seq + 1 ∧ tfind t.carts (1 - j) = tfind s.carts (1 - j) ∧
        t = { s with now := t.now, carts := t.carts, jslot := t.jslot }) ∧
    (∀ c, s.jcState j = jsRESILVER → s.jcState (1 - j) = jsMIRROR → s.copyEntry j = none → tfind s.carts j = some c →
      ∃ t, exec (.resilverComplete j) s = .next t ∧ t.jcState j = jsMIRROR ∧ t.jcState (1 - j) = jsMIRROR ∧
        ∀ l, c.label = some l → ∃ c', tfind t.carts j = some c' ∧ c'.label = some { l with complete := true }) ∧
    (∀ c l, s.jcState j = jsMIRROR ∨ s.jcState j = jsRESILVER → tfind s.carts j = some c → c.label = some l →
      l.relseq < (s.reg .jcRel).toNat →
      ∃ t c', exec (.labelRewrite j) s = .next t ∧ tfind t.carts j = some c' ∧ c'.label = some { l with relseq := (s.reg .jcRel).toNat } ∧
        (s.jrun j).lastLabel + 1000000000 ≤ t.now ∧ t = { s with now := t.now, carts := t.carts, jslot := t.jslot })) ∧
  (∀ (s : State), s.rf .jcRdctl jcRdctl_BUSY = 1 →
    ∃ t, exec .readOutComplete s = .next t ∧ t.rf .jcRdctl jcRdctl_BUSY = 0 ∧
      (s.slotsIn jsMIRROR = [] → t.rf .jcRdctl jcRdctl_RESULT = 3) ∧
      (∀ j js c, s.slotsIn jsMIRROR = j :: js → tfind s.carts j = some c → (∀ e, e ∈ c.ents → e.seq ≠ (s.reg .jcRdseq).toNat) →
        t.rf .jcRdctl jcRdctl_RESULT = 2))

/-! ## The fabric and the estate -/

/-- R487-R492, R523: training takes a link to AUTH, or down when no lanes are usable; admission ends in a state or a reason; keys change
after 2^32 packets or 600 s, and the old ones end 1 ms later; a link that has sent nothing for 1 µs sends; a link that hears nothing goes
down with reason 7; a flit with a bad CRC is counted for its lane, and a packet that fails its tag takes the link to AUTH, or down with
reason 6 at the third within 1 s. -/
def Obligations.LinkResults : Prop :=
  ∀ (l : Nat) (s : State), l < 12 →
  (∀ work, work < 16 → s.linkRuns l = true → s.linkState l ≠ lsDOWN → (s.linkState l = lsTRAIN ∨ (s.linkRun l).retrain = true) →
    ∃ t, exec (.linkTraining l work) s = .next t ∧
      (s.chooseLanes l work = none → t.linkState l = lsDOWN ∧ t.rf (.cdlLstat l) cdlLstat_REASON = 0 ∧
        t.events = s.events ++ [(⟨4, l, 0x21, 0, 0⟩ : DevEvent)]) ∧
      (∀ m, s.chooseLanes l work = some m → m ∈ laneSets ∧ Nat.land m work = m ∧ t.rf (.cdlLstat l) cdlLstat_WIDTH = popCount m 4 ∧
        t.linkState l = (if s.linkState l = lsTRAIN then lsAUTH else s.linkState l) ∧ (t.linkRun l).retrain = false ∧
        t.events = s.events)) ∧
  (∀ (answered signs : Bool) (chain node size key : Nat), chain ≤ 2 → node < 1024 → s.linkRuns l = true → s.linkState l = lsAUTH →
    let root := if chain = 1 then s.cfg.estRoot else s.cfg.attRoot
    let twin := ∃ m, m < 12 ∧ m ≠ l ∧ s.linkState m = lsADMITTED ∧ s.linkPeer m = node ∧ (s.linkRun m).key ≠ key
    let refused := fun (t : State) (why : Nat) => t.linkState l = lsDOWN ∧ t.rf (.cdlLstat l) cdlLstat_REASON = why
    ∃ t, exec (.admission l answered chain signs node size key) s = .next t ∧
      (answered = false → refused t 5) ∧
      (answered = true → chain = 0 ∨ noRoot root = true → refused t 1) ∧
      (answered = true → chain ≠ 0 → noRoot root = false → signs = false → refused t 2) ∧
      (answered = true → signs = true → noRoot root = false →
        (s.estSize ≤ s.node → chain ≠ 0 → refused t 3) ∧
        (chain = 2 → s.node < s.estSize → t.linkState l = lsATTACHED ∧ t.linkPeer l = node) ∧
        (chain = 1 → size ≠ s.estSize → refused t 3) ∧
        (chain = 1 → size = s.estSize → s.node < s.estSize → (node = s.node ∨ twin) → refused t 4) ∧
        (chain = 1 → size = s.estSize → s.node < s.estSize → node ≠ s.node → ¬ twin →
          t.linkState l = lsADMITTED ∧ t.linkPeer l = node ∧ (t.linkRun l).key = key))) ∧
  (s.linkUp l = true →
    (∃ t, exec (.rekey l) s = .next t ∧ (t.linkRun l).pkts = 0 ∧ (t.linkRun l).keyAt = t.now ∧ (t.linkRun l).oldTill = some (t.now + 1000000) ∧
      ((s.linkRun l).pkts < 2 ^ 32 → (s.linkRun l).keyAt + 600000000000 ≤ t.now) ∧ (2 ^ 32 ≤ (s.linkRun l).pkts → t.now = s.now) ∧
      t = { s with now := t.now, links := t.links }) ∧
    (∃ t, exec (.heartbeat l) s = .next t ∧ (s.linkRun l).lastTx + 1000 ≤ t.now ∧ (t.linkRun l).lastTx = t.now ∧
      t = { s with now := t.now, links := t.links })) ∧
  (∀ at', (s.linkRun l).oldTill = some at' →
    ∃ t, exec (.oldKeyExpiry l) s = .next t ∧ at' ≤ t.now ∧ (t.linkRun l).oldTill = none ∧ t = { s with now := t.now, links := t.links }) ∧
  (s.linkState l ≠ lsDOWN →
    (∃ t, exec (.linkSilent l) s = .next t ∧ (s.linkRun l).lastRx + s.rf .cdlCfg cdlCfg_LOST * 1000 ≤ t.now ∧ t.linkState l = lsDOWN ∧
      t.rf (.cdlLstat l) cdlLstat_REASON = 7 ∧ t.events = s.events ++ [(⟨4, l, 0x21, 7, 0⟩ : DevEvent)]) ∧
    (∀ lane, lane < 4 →
      (∃ t, exec (.flitReceive l 0 lane) s = .next t ∧ (t.linkRun l).lastRx = s.now ∧ t = { s with links := t.links }) ∧
      (∃ t, exec (.flitReceive l 1 lane) s = .next t ∧ (t.linkRun l).lastRx = s.now ∧ t.linkState l = s.linkState l ∧
        t.events = s.events ++ [(⟨5, 4 * l + lane, 0x20, 0, 0⟩ : DevEvent)] ∧
        t.rf (.cdlLstat l) cdlLstat_CRCRETRY =
          (s.rf (.cdlLstat l) cdlLstat_CRCRETRY + 1) % 2 ^ (cdlLstat_CRCRETRY.hi - cdlLstat_CRCRETRY.lo + 1)) ∧
      (s.linkUp l = true →
        ∃ t, exec (.flitReceive l 2 lane) s = .next t ∧
          t.rf (.cdlLcnt l) cdlLcnt_AUTHFAIL =
            min (s.rf (.cdlLcnt l) cdlLcnt_AUTHFAIL + 1) (2 ^ (cdlLcnt_AUTHFAIL.hi - cdlLcnt_AUTHFAIL.lo + 1) - 1) ∧
          let before := ((s.linkRun l).fails.filter (fun t => decide (s.now < t + 1000000000))).length
          (before < 2 → t.linkState l = lsAUTH) ∧
          (2 ≤ before → t.linkState l = lsDOWN ∧ t.rf (.cdlLstat l) cdlLstat_REASON = 6 ∧
            t.events = s.events ++ [(⟨4, l, 0x21, 6, 0⟩ : DevEvent)]))))

/-- R496-R499, R504-R508, R513, R518, R524, R525: a packet for another node goes on with one hop less, or is dropped; a request for a plot
that this node does not own is answered NOT_OWNER, and for one it is giving away it waits; a load answers the bytes and the tag of its
words, a store writes them and is acknowledged, and either is denied with the cause it meets; a remote PASS is queued, or answered with
reason 8; a frame lands; a physical access of an ATTACHED peer reads or writes memory; a request at the head of the remote-PASS queue
starts a service, or is answered with its cause. -/
def Obligations.FabricRequestResults : Prop :=
  (∀ (l : Nat) (p : Pkt) (s v : State), l < 12 → pktFits p = true → s.takePkt l p = some v →
    (v.barred l p = true ∨ (p.dst ≠ v.node ∧ p.ttl = 0) ∨ (p.dst ≠ v.node ∧ v.routeLink p.dst p.src p.addr = none) →
      ∃ t, exec (.packetForward l p) s = .next t ∧ t = v.report (176 + 8 * l + 5)) ∧
    (∀ m, v.barred l p = false → p.dst ≠ v.node → p.ttl ≠ 0 → v.routeLink p.dst p.src p.addr = some m →
      ∃ t q, exec (.packetForward l p) s = .next t ∧ t.tx = v.tx ++ [(m, q)] ∧ q.ttl = p.ttl - 1 ∧
        q.dl = (if v.rf (.cdlLctl l) cdlLctl_DIM ≠ v.rf (.cdlLctl m) cdlLctl_DIM then 0
          else if v.rf (.cdlLctl l) cdlLctl_DATELINE = 1 then 1 else p.dl) ∧
        { q with ttl := p.ttl, dl := p.dl } = (if v.linkState m = lsATTACHED then Claims.bare p else p) ∧
        t = { v with tx := t.tx, links := t.links })) ∧
  (∀ (l : Nat) (p : Pkt) (s u : State) (i : Instr),
    (i = .loadPacket l p ∧ Claims.Arrives s pkLOAD l p u ∧ pktBadAccess p = false) ∨
    (i = .storePacket l p ∧ Claims.Arrives s pkSTORE l p u ∧ pktBadAccess p = false ∧ p.payload.length = pktSize p) ∨
    (i = .passPacket l p ∧ Claims.Arrives s pkPASS l p u ∧ p.payload.length = 176) →
    (∀ m, u.fab.migOut = some m → m.plot = plotOf p.addr → 6 ≤ m.step →
      ∃ t, exec i s = .next t ∧ t.fab.migOut = some { m with held := m.held ++ [(l, p)] } ∧ t = { u with fab := t.fab }) ∧
    (u.fab.migOut = none → plotOf p.addr ∉ u.ownMap →
      ∃ t hint, exec i s = .next t ∧ Claims.Sent u t (Claims.nackTo u p 5 0 0 hint) ∧
        (tfind u.forwards (plotOf p.addr) = none → hint = 0) ∧
        (∀ n till, tfind u.forwards (plotOf p.addr) = some (n, till) → u.now < till → hint = n % 1024 + 2 ^ 15))) ∧
  (∀ (l : Nat) (p : Pkt) (s u v : State), Claims.Arrives s pkLOAD l p u → pktBadAccess p = false → u.fab.migOut = none →
    plotOf p.addr ∈ u.ownMap →
    (∀ d, ownerAccess u p false = (.error d, v) → d.reason < 16 → d.cause < 256 → d.oreason < 16 →
      ∃ t, exec (.loadPacket l p) s = .next t ∧ Claims.Sent v t (Claims.nackTo v p d.reason d.cause d.oreason 0)) ∧
    (∀ d, ownerAccess u p false = (.error d, v) → d.reason = 16 →
      ∃ t, exec (.loadPacket l p) s = .next t ∧ t.fab.mvHeld = v.fab.mvHeld ++ [⟨l, p, d.cause, v.now⟩] ∧ t = { v with fab := t.fab }) ∧
    (∀ pa, ownerAccess u p false = (.ok pa, v) → pa < 0x18CCC00000 → pktFlag6 p = false → pktIsCap p = false →
      (v.mem.tag pa = tINT ∨ v.mem.tag pa = tFLT) →
      ∃ t, exec (.loadPacket l p) s = .next t ∧
        Claims.Sent v t (Claims.answerTo v p pkDATA 0 ((List.range (pktSize p)).map (fun i => v.mem.byte (pa + i))) [v.mem.tag pa]))) ∧
  (∀ (l : Nat) (p : Pkt) (s u v : State), Claims.Arrives s pkSTORE l p u → pktBadAccess p = false → p.payload.length = pktSize p →
    u.fab.migOut = none → plotOf p.addr ∈ u.ownMap →
    (∀ d, ownerAccess u p true = (.error d, v) → d.reason < 16 → d.cause < 256 → d.oreason < 16 →
      ∃ t, exec (.storePacket l p) s = .next t ∧ Claims.Sent v t (Claims.nackTo v p d.reason d.cause d.oreason 0)) ∧
    (∀ pa, ownerAccess u p true = (.ok pa, v) → pa < 0x18CCC00000 → pktIsCap p = false →
      let ops := dataOps pa (ofBytes (p.payload.map BitVec.toNat)) (pktSize p) (if pktFlag6 p then tFLT else tINT) 3
      (∀ o, o ∈ ops → storeTagTrap (v.mem.tag o.addr) o.mask 0 p.addr false = none) →
      ∃ t w, exec (.storePacket l p) s = .next t ∧ Claims.Sent w t (Claims.answerTo w p pkACK 1 [] []) ∧
        w = { v with mem := v.mem.applyOps ops, fixed := w.fixed, cores := w.cores })) ∧
  (∀ (l : Nat) (p : Pkt) (s u : State), Claims.Arrives s pkPASS l p u → p.payload.length = 176 → u.fab.migOut = none →
    plotOf p.addr ∈ u.ownMap →
    (u.rf .cdlRpass cdlRpass_EN = 0 ∨ 64 ≤ u.fab.rpq.length →
      ∃ t, exec (.passPacket l p) s = .next t ∧ Claims.Sent u t (Claims.nackTo u p 8 0 0 0)) ∧
    (u.rf .cdlRpass cdlRpass_EN = 1 → u.fab.rpq.length < 64 →
      ∃ t r, exec (.passPacket l p) s = .next t ∧ t.fab.rpq = u.fab.rpq ++ [r] ∧ r.src = p.src ∧ r.reqid = p.reqid ∧ r.addr = p.addr ∧
        r.regs.length = 8 ∧ r.caps.length = 6 ∧ t = { u with fab := t.fab })) ∧
  (∀ (l : Nat) (p : Pkt) (s u : State), Claims.Arrives s pkFRAME l p u →
    let lane := p.arg % 16
    (u.rf (.ingLcfg lane) ingLcfg_EN = 0 ∨ u.rf (.ingLcfg lane) ingLcfg_SRC = 0 ∨ p.payload = [] →
      exec (.frame l p) s = .next (if l < 12 then u.report (176 + 8 * l + 5) else u)) ∧
    (u.rf (.ingLcfg lane) ingLcfg_EN = 1 → u.rf (.ingLcfg lane) ingLcfg_SRC = 1 → p.payload ≠ [] → u.ingOn = true → u.freeSlots ≠ [] →
      ∃ t slot fmt, exec (.frame l p) s = .next t ∧ slot ∈ u.freeSlots ∧ t.slots = u.slots ++ [slot] ∧
        t.parseQ = u.parseQ ++ [(⟨lane, slot, p.src + p.reqid * 2 ^ 16, u.now, fmt, p.payload.map BitVec.toNat⟩ : PFrame)])) ∧
  (∀ (l : Nat) (p : Pkt) (s u : State), Claims.Arrives s pkFRESP l p u → exec (.fresp l p) s = .next u) ∧
  (∀ (l : Nat) (p : Pkt) (s u : State), Claims.Arrives s pkPHYSRD l p u →
    (u.physOk l p = false → exec (.physrd l p) s = .next (if l < 12 then u.report (176 + 8 * l + 5) else u)) ∧
    (∀ v, u.physOk l p = true → u.ridge mFAB 0 false p.addr = (none, v) →
      ∃ t, exec (.physrd l p) s = .next t ∧ Claims.Sent v t (Claims.nackTo v p 6 0 0 0)) ∧
    (∀ b v, u.physOk l p = true → u.ridge mFAB 0 false p.addr = (some b, v) → p.addr < 0x18CCC00000 →
      (∀ a, a ∈ wordsOf p.addr (p.arg + 1) → (v.mem.masterRead a).2 = true) →
      ∃ t, exec (.physrd l p) s = .next t ∧
        Claims.Sent v t (Claims.answerTo v p pkDATA 0 ((List.range (p.arg + 1)).map (fun i =>
          BitVec.ofNat 8 ((v.mem.masterRead ((p.addr + i) / 8 * 8)).1 / 256 ^ ((p.addr + i) % 8) % 256))) []))) ∧
  (∀ (l : Nat) (p : Pkt) (s u : State), Claims.Arrives s pkPHYSWR l p u →
    (u.physOk l p = false ∨ p.payload.length ≠ p.arg + 1 →
      exec (.physwr l p) s = .next (if l < 12 then u.report (176 + 8 * l + 5) else u)) ∧
    (∀ v, u.physOk l p = true → p.payload.length = p.arg + 1 → u.ridge mFAB 0 true p.addr = (none, v) →
      ∃ t, exec (.physwr l p) s = .next t ∧ Claims.Sent v t (Claims.nackTo v p 6 0 0 0)) ∧
    (∀ b v, u.physOk l p = true → p.payload.length = p.arg + 1 → u.ridge mFAB 0 true p.addr = (some b, v) → p.addr < 0x18CCC00000 →
      ∃ t w, exec (.physwr l p) s = .next t ∧ w = { v with mem := w.mem, fixed := w.fixed, cores := w.cores } ∧
        (Claims.Sent w t (Claims.answerTo w p pkACK 1 [] []) ∨ Claims.Sent w t (Claims.nackTo w p 0 ecMC_POISON 0 0)) ∧
        ∀ a, a < p.addr / 8 * 8 ∨ (p.addr + p.arg) / 8 * 8 + 8 ≤ a → v.mem.wf = true → w.mem.byte a = v.mem.byte a)) ∧
  (∀ (k : Nat) (s u : State) (h : HeldWalk) (rest : List HeldWalk) (e : IptEntry), k < 2 → s.fab.mvHeld = h :: rest → e.mv = true →
    (h.since + 20000 > s.now + 40 → probe (s.advanceTo (s.now + 40)) (startEnv s.tableCore 0) h.entry 1 = (.ok e, u) →
      exec (.mvReread 112 k) s = .next u) ∧
    (probe (s.advanceTo (h.since + 20000)) (startEnv s.tableCore 0) h.entry 1 = (.ok e, u) →
      ∃ t, exec (.mvWaitTimeout 112 k) s = .next t ∧
        Claims.Sent { u with fab := { u.fab with mvHeld := u.fab.mvHeld.tail } } t (Claims.nackTo u h.pkt 0 ecWALK_ERROR 4 0))) ∧
  (∀ (s : State) (r : RPReq) (rest : List RPReq) (p : Nat), s.fab.rpq = r :: rest → s.serving = true →
    s.choosePair 128 (s.rf .cdlRpass cdlRpass_PAIRS) false none none = some p →
    let E := startEnv (2 * p) ((s.idleCtx (2 * p)).getD 0)
    s.startWaits 128 E (rpReach s E r) = none →
    let v := (s.startGoes 128).answerLost
    let u : State := { v with fab := { v.fab with rpq := rest }, lastPick := tset s.lastPick 128 p }
    (∀ d v, rpChecks u E r = (.error d, v) →
      ∃ t, exec .remotePassServiceStart s = .next t ∧ (r.gone = true → t = v) ∧
        (r.gone = false → d.reason < 16 → d.cause < 256 → d.oreason < 16 →
          ∃ q : Pkt, q.src = r.src ∧ q.reqid = r.reqid ∧ Claims.Sent v t (Claims.nackTo v q d.reason d.cause d.oreason 0))) ∧
    (∀ g cc sup v w, rpChecks u E r = (.ok (g, cc, sup), v) → rpStart v E r g cc sup = .ok w → w.csTrap (2 * p) (some rtRPSTART) = none →
      ∃ t, exec .remotePassServiceStart s = .next t ∧ t.fab.rpRun = w.fab.rpRun ++ [r] ∧ t = { w with fab := t.fab } ∧
        (t.ctx E.n E.k).tx.service = (if r.ro then 3 else 2) ∧ (t.ctx E.n E.k).tx.req = r.num))

/-- R504, R505, R509, R510, R512, R515, R519: what an answer does. A load's data reach its register and its context waits no more; an
acknowledged posted store is over; the registers of a PASSREPLY reach their requester; a NACK other than NOT_OWNER, and an answer that does
not come within RTMO, raise REMOTE_FAULT; the answer to a claim or a release changes what this node owns; one that nothing awaits is
discarded. -/
def Obligations.FabricAnswerResults : Prop :=
  (∀ (l : Nat) (p : Pkt) (s u : State), Claims.Arrives s pkDATA l p u →
    (u.findReq p.reqid = none → exec (.dataPacket l p) s = .next u) ∧
    (∀ r, u.findReq p.reqid = some (true, r) → r.typ = pkLOAD → r.node = p.src → r.env.rep = false → r.wb = none → r.env.k < 2 →
      NoStep u r.env → r.mode = 1 ∨ r.mode = 2 →
      ∃ t, exec (.dataPacket l p) s = .next t ∧ (t.ctx r.env.n r.env.k).wait = .none ∧
        t.held r.env.n r.env.k (gprLoc (u.endReq true r) r.env r.dst) =
          .w (extendLoad (ofBytes ((p.payload.take r.size).map BitVec.toNat)) r.size (decide (r.mode = 2))) ∧
        ∀ tg, t.memOf tg = u.memOf tg)) ∧
  (∀ (l : Nat) (p : Pkt) (s u : State), Claims.Arrives s pkACK l p u →
    (∀ r, u.findReq p.reqid = some (false, r) → r.typ = pkSTORE → r.node = p.src → u.fab.postQ = [] →
      ∃ t, exec (.ackPacket l p) s = .next t ∧ t.posted = u.posted.filter (fun x => decide (x.reqid ≠ r.reqid)) ∧
        t = { u with posted := t.posted }) ∧
    (∀ r, u.findReq p.reqid = some (true, r) → r.typ = pkSTORE → r.node = p.src → r.env.rep = false → r.env.k < 2 →
      ∃ t, exec (.ackPacket l p) s = .next t ∧ (t.ctx r.env.n r.env.k).wait = .none ∧ ∀ tg, t.memOf tg = u.memOf tg) ∧
    (∀ c, u.findReq p.reqid = none → (∀ w, w ∈ u.fab.regWait → w.reqid ≠ p.reqid) → u.fab.claim = some c → c.reqid = p.reqid →
      p.arg % 2 = 1 →
      ∃ t, exec (.ackPacket l p) s = .next t ∧ (c.op = 1 → c.plot ∈ t.ownMap) ∧ (c.op ≠ 1 → c.plot ∉ t.ownMap) ∧ t.fab.claim = none) ∧
    (u.findReq p.reqid = none → u.fab.regWait = [] → u.fab.claim = none → u.fab.migOut = none → exec (.ackPacket l p) s = .next u)) ∧
  (∀ (l : Nat) (p : Pkt) (s u : State), Claims.Arrives s pkPASSREPLY l p u →
    (u.findReq p.reqid = none → exec (.passreply l p) s = .next u) ∧
    (∀ r, u.findReq p.reqid = some (true, r) → r.typ = pkPASS → r.node = p.src → r.env.k < 2 → NoStep u r.env →
      ∃ t, exec (.passreply l p) s = .next t ∧ (t.ctx r.env.n r.env.k).wait = .none ∧
        (∀ i, i < 6 → t.held r.env.n r.env.k (.c (i + 1)) = .c (pktCapAt p (2 * i))) ∧ ∀ tg, t.memOf tg = u.memOf tg)) ∧
  (∀ (l : Nat) (p : Pkt) (s u : State), Claims.Arrives s pkNACK l p u →
    (∀ r, u.findReq p.reqid = some (true, r) → r.node = p.src → p.arg % 16 ≠ 5 → r.typ ≠ pkPASS → r.env.k < 2 →
      Enters (u.endReq true r) r.env →
      ∃ t, exec (.nack l p) s = .next t ∧ (t.ctx r.env.n r.env.k).wait = .none ∧
        (t.core r.env.n).bankE.r nECAUSE = BitVec.ofNat 64 ecREMOTE_FAULT ∧ (t.core r.env.n).bankE.r nEADDR = BitVec.ofNat 64 r.addr ∧
        (t.core r.env.n).bankE.r nEINFO = BitVec.ofNat 64 (remoteInfo (p.arg / 2 ^ 12 % 16) r.capNo r.node (p.arg % 16)
          (if p.arg % 16 = 0 then p.arg / 16 % 256 else 0))) ∧
    (∀ r o m, u.findReq p.reqid = some (false, r) → r.node = p.src → p.arg % 16 = 5 → payloadWord p.payload 0 = 2 ^ 15 + o → o < 1024 →
      o ≠ u.node → r.resends < 8 → Claims.Cacheable u (plotOf r.addr) → u.routeLink o u.node r.addr = some m → r.addr < 2 ^ 48 →
      ∃ t q, exec (.nack l p) s = .next t ∧ t.tx = u.tx ++ [(m, q)] ∧ q.dst = o ∧ q.typ = r.typ ∧ q.addr = r.addr ∧
        (∃ e, e ∈ t.plotCache ∧ e.plot = plotOf r.addr ∧ e.owner = o) ∧
        ∀ x, x ∈ t.posted → x.reqid = r.reqid → q.reqid = r.reqid) ∧
    (u.findReq p.reqid = none → u.fab.claim = none → u.fab.migOut = none → exec (.nack l p) s = .next u)) ∧
  (∀ (id : Nat) (s : State), id < 65536 →
    (∀ r, s.findReq id = some (true, r) → r.env.k < 2 → Enters ((((s.advanceTo r.due).timedOut r.link)).endReq true r) r.env →
      ∃ t, exec (.remoteTimeout id) s = .next t ∧ r.due ≤ t.now ∧ (t.ctx r.env.n r.env.k).wait = .none ∧
        (t.core r.env.n).bankE.r nECAUSE = BitVec.ofNat 64 ecREMOTE_FAULT ∧
        (t.core r.env.n).bankE.r nEINFO = BitVec.ofNat 64 (remoteInfo 0 r.capNo r.node 3 0)) ∧
    (∀ r, s.findReq id = some (false, r) → s.fab.postQ = [] →
      ∃ t, exec (.remoteTimeout id) s = .next t ∧ r.due ≤ t.now ∧ t.posted = s.posted.filter (fun x => decide (x.reqid ≠ r.reqid)) ∧
        t.events = s.events ++ [(⟨0, r.env.n, 0x14, r.env.k, r.addr⟩ : DevEvent)])) ∧
  (∀ (s : State) (m : MigIn), s.fab.migIn = some m →
    ∃ t, exec (.remoteTimeout 65536) s = .next t ∧ m.since + s.rtmo ≤ t.now ∧ t.fab.migIn = none)

/-- R500-R505, R517-R523: the registrar answers a lookup, records a claim, an update and a release, and turns away one that is not the
owner's; an answered lookup names the owner in the plot cache, and an unowned plot raises REMOTE_FAULT with reason 1; offers and data of a
migration, lost and joining nodes, and echoes are as the rules state; plot-cache entries and forwarding records expire. -/
def Obligations.EstateResults : Prop :=
  (∀ (l : Nat) (p : Pkt) (s u : State), Claims.Arrives s pkLOOKUP l p u →
    ∃ t arg, exec (.lookup l p) s = .next t ∧
      Claims.Sent u t { Claims.answerTo u p pkLOOKREPLY arg [] [] with addr := p.addr } ∧
      (tfind u.registrar (plotOf p.addr) = none → arg = 2) ∧
      (∀ e, tfind u.registrar (plotOf p.addr) = some e → (e.owner = none → arg = 3) ∧ ∀ o, e.owner = some o → arg = 1 + o % 1024 * 4)) ∧
  (∀ (l : Nat) (p : Pkt) (s u : State), Claims.Arrives s pkREG l p u → u.registrarOf (plotOf p.addr) = u.node →
    let plot := plotOf p.addr
    (p.arg % 4 = 1 → (tfind u.registrar plot = none → u.registrar.length < 2 ^ 20) →
      (∀ e, tfind u.registrar plot = some e → e.owner = none) →
      ∃ t e, exec (.reg l p) s = .next t ∧ tfind t.registrar plot = some e ∧ e.owner = some p.src) ∧
    (∀ e o, tfind u.registrar plot = some e → e.owner = some o →
      (p.arg % 4 = 1 ∨ (p.arg % 4 ≠ 0 ∧ o ≠ p.src) →
        ∃ t, exec (.reg l p) s = .next t ∧ Claims.Sent u t (Claims.nackTo u p 5 0 0 (o % 1024 + 2 ^ 15))) ∧
      (o = p.src → p.arg % 4 = 2 → ∃ t, exec (.reg l p) s = .next t ∧ tfind t.registrar plot = none) ∧
      (o = p.src → p.arg % 4 = 3 →
        ∃ t e', exec (.reg l p) s = .next t ∧ tfind t.registrar plot = some e' ∧ e'.owner = some (p.arg / 16 % 1024)))) ∧
  (∀ (l n k plot ea capNo due link : Nat) (p : Pkt) (s u : State), Claims.Arrives s pkLOOKREPLY l p u → u.cores = [(n, u.core n)] → k < 2 →
    (u.ctx n (other k)).wait = .none → (u.ctx n k).wait = .lookup plot ea capNo p.reqid p.src due link →
    (p.arg % 4 = 1 →
      ∃ t, exec (.lookreply l p) s = .next t ∧ (t.ctx n k).wait = .none ∧
        (Claims.Cacheable u plot → ∃ e, e ∈ t.plotCache ∧ e.plot = plot ∧ e.owner = p.arg / 4 % 1024)) ∧
    (p.arg % 4 ≠ 1 → Enters (u.endWait n k) (u.waitEnv n k) →
      ∃ t, exec (.lookreply l p) s = .next t ∧ (t.core n).bankE.r nECAUSE = BitVec.ofNat 64 ecREMOTE_FAULT ∧
        (t.core n).bankE.r nEINFO = BitVec.ofNat 64 (remoteInfo 0 capNo p.src (if p.arg % 4 = 2 then 1 else 2) 0) ∧
        (t.core n).bankE.r nEADDR = BitVec.ofNat 64 ea)) ∧
  (∀ (l : Nat) (p : Pkt) (s u : State), Claims.Arrives s pkOFFER l p u →
    let free := ((List.range 4).flatMap u.pool).filter u.eligible
    let barred := p.arg = 0 ∨ 128 < p.arg ∨ u.fab.migOut.isSome = true ∨ u.fab.migIn.isSome = true ∨ plotOf p.addr ∈ u.ownMap ∨
      u.plotMapped (plotOf p.addr) = true ∨ free.length < p.arg
    (barred → ∃ t, exec (.offer l p) s = .next t ∧ Claims.Sent u t (Claims.answerTo u p pkACK 0 [] [])) ∧
    (¬ barred → ∃ t m, exec (.offer l p) s = .next t ∧ t.fab.migIn = some m ∧ m.plot = plotOf p.addr ∧ m.src = p.src ∧ m.count = p.arg ∧
      m.frames.length = p.arg ∧ m.pages = [] ∧ m.parts = [])) ∧
  (∀ (l : Nat) (p : Pkt) (s u : State), Claims.Arrives s pkMDATA l p u →
    (u.fab.migIn = none → exec (.mdata l p) s = .next u) ∧
    (∀ m f, u.fab.migIn = some m → m.src = p.src → m.plot = plotOf p.addr → tfind m.pages (p.arg % 128) = some f → u.mem.wf = true →
      let h := iptHash u.tableSeed u.tableN false (m.plot * 128 + p.arg % 128)
      (u.partAdmitted f (p.arg / 128 % 16) h).1 = true →
      (p.arg / 128 % 16 < 8 → p.payload.length = 2048 → p.tags.length = 256 →
        ∃ t, exec (.mdata l p) s = .next t ∧ ∀ i, i < 256 →
          t.mem.word (f * 2 ^ 14 + p.arg / 128 % 16 * 2048 + 8 * i) = ofBytes ((((p.payload).drop (8 * i)).take 8).map BitVec.toNat) ∧
          t.mem.tag (f * 2 ^ 14 + p.arg / 128 % 16 * 2048 + 8 * i) = p.tags.getD i tINT) ∧
      (p.arg / 128 % 16 = 8 → p.payload.length = 16 →
        (u.entryOf h).lk = false →
        ∃ t, exec (.mdata l p) s = .next t ∧
          t.mem.word (u.tableBase + 32 * f) = migWord0 (payloadWord p.payload 0) (m.plot * 128 + p.arg % 128) % 2 ^ 64))) ∧
  (∀ (l : Nat) (p : Pkt) (s u : State), Claims.Arrives s pkLOST l p u → p.payload.length = 8 →
    let n := (noticeOf p).1
    let inc := (noticeOf p).2
    (u.recorded n ≠ some (inc, false) → exec (.lost l p) s = .next u) ∧
    (u.recorded n = some (inc, false) →
      ∃ t, exec (.lost l p) s = .next t ∧ tfind t.nodes n = some (inc, true) ∧ (∀ e, e ∈ t.plotCache → e.owner ≠ n) ∧
        ∀ q e, tfind t.registrar q = some e → e.owner ≠ some n)) ∧
  (∀ (l : Nat) (p : Pkt) (s u : State), Claims.Arrives s pkJOIN l p u → p.payload.length = 8 →
    let n := (noticeOf p).1
    let inc := (noticeOf p).2
    (n = u.node ∨ (u.recorded n).map (fun e => e.1) = some inc → exec (.join l p) s = .next u) ∧
    (n ≠ u.node → (u.recorded n).map (fun e => e.1) ≠ some inc →
      ∃ t, exec (.join l p) s = .next t ∧ tfind t.nodes n = some (inc, false))) ∧
  (∀ (l : Nat) (p : Pkt) (s u : State), Claims.Arrives s pkECHO l p u →
    (p.arg % 2 = 0 → ∃ t, exec (.echo l p) s = .next t ∧ Claims.Sent u t { Claims.answerTo u p pkECHO 1 [] [] with vc := 2 }) ∧
    (p.arg % 2 = 1 → ∃ t, exec (.echo l p) s = .next t ∧ tfind t.echoes p.src = none ∧ t = { u with echoes := t.echoes })) ∧
  (∀ (n at' : Nat) (s : State), n < 1024 → tfind s.echoes n = some at' →
    ∃ t, exec (.echoTimeout n) s = .next t ∧ at' ≤ t.now ∧ tfind t.echoes n = none ∧
      (∀ inc, s.recorded n = some (inc, false) → tfind t.nodes n = some (inc, true))) ∧
  (∀ (plot : Nat) (s : State), plot < 2 ^ 27 →
    (∀ e at', s.plotCache.find? (fun e => decide (e.plot = plot)) = some e → e.expiry = some at' →
      ∃ t, exec (.plotCacheExpiry plot) s = .next t ∧ at' ≤ t.now ∧ (∀ e, e ∈ t.plotCache ↔ e ∈ s.plotCache ∧ e.plot ≠ plot) ∧
        t = { s with now := t.now, plotCache := t.plotCache }) ∧
    (∀ n at', tfind s.forwards plot = some (n, at') →
      ∃ t, exec (.forwardingExpiry plot) s = .next t ∧ at' ≤ t.now ∧ tfind t.forwards plot = none ∧
        t = { s with now := t.now, forwards := t.forwards })) ∧
  (∀ (s : State) (plot : Nat) (rest : List Nat), s.offers = plot :: rest → s.serving = true →
    ∃ t, exec .plotMigration s = .next t ∧ t.offers = rest ∧
      ((s.plotStatOf plot).top = none ∨ s.rf .pleCtl pleCtl_EN = 0 ∨ s.fab.migOut.isSome = true ∨ plot ∉ s.ownMap →
        t = { s with offers := rest }) ∧
      (∀ m, t.fab.migOut = some m → s.fab.migOut = none → m.plot = plot ∧ some m.dst = (s.plotStatOf plot).top ∧ m.step = 2))

/-! ## Boot, modes, reset and management -/

/-- R556, R569-R574: a self-test that leaves what the device needs ends in CONFIGURE with memory cleared, and a fatal one stays with its
reason; of the two slots of flash, the preferred one first, an image that passes its checks brings the device into service, and where
neither passes it stays in CONFIGURE with RECOVERY set; a check of an image ends with its result; a reconfiguration ends, or is given up
with result 12 when the slice does not quiesce in time. -/
def Obligations.BootResults : Prop :=
  (∀ (failed : List (Nat × Nat)) (s : State), (∀ e, e ∈ failed → testable e.1 e.2 = true) → s.mode = mdSELFTEST →
    s.rf .sysMode sysMode_REASON = 0 → s.porLow = false → s.wrstLow = false →
    let before := if s.rf .pwrRstat pwrRstat_LAST = 0 then s.retLog else s.retired
    let bad := before ++ (failed.filter (fun e => !(before.contains e))).eraseDups
    ∃ t, exec (.selftest failed) s = .next t ∧ (∀ e, e ∈ failed → e ∈ t.retired) ∧
      (fatalReason bad ≠ 0 → t.mode = mdSELFTEST ∧ t.rf .sysMode sysMode_REASON = fatalReason bad) ∧
      (fatalReason bad = 0 → t.mode = mdCONFIGURE ∧ t.retired = bad ∧ t.tcms = [] ∧
        ∀ a, t.mem.tag a = tUNINIT ∧ t.mem.word a = 0)) ∧
  (∀ (s : State), s.mode = mdCONFIGURE → s.rf .sysMode sysMode_RECOVERY = 0 →
    let k := if (s.flashByte 0).getLsbD 0 then 1 else 0
    ∃ t, exec .configure s = .next t ∧
      (s.imgCheck (s.slotImage k) false = none → t.slotUsed = k ∧ (t.mode = mdSERVICE ∨ t.mode = mdDEGRADED)) ∧
      (s.imgCheck (s.slotImage k) false ≠ none → s.imgCheck (s.slotImage (1 - k)) false = none →
        t.slotUsed = 1 - k ∧ (t.mode = mdSERVICE ∨ t.mode = mdDEGRADED)) ∧
      (∀ e, s.imgCheck (s.slotImage k) false ≠ none → s.imgCheck (s.slotImage (1 - k)) false = some e →
        t.mode = mdCONFIGURE ∧ t.rf .sysMode sysMode_RECOVERY = 1 ∧ t.rf .sysMode sysMode_REASON = e.result % 16 ∧
        t.rf .imgStat imgStat_RESULT = e.result % 16 ∧ t = { s with regs := t.regs })) ∧
  (∀ (s : State), s.rf .imgStat imgStat_BUSY = 1 →
    (s.mode = mdCONFIGURE →
      ∃ t, exec .checkComplete s = .next t ∧
        (s.imgCheck s.barImage false = none → t.mode = mdSERVICE ∨ t.mode = mdDEGRADED) ∧
        (∀ e, s.imgCheck s.barImage false = some e → t.mode = mdCONFIGURE ∧ t.rf .imgStat imgStat_BUSY = 0 ∧
          t.rf .imgStat imgStat_RESULT = e.result % 16 ∧ t.rf .sysMode sysMode_REASON = e.result % 16)) ∧
    (∀ ok u, s.mode ≠ mdCONFIGURE → s.mode ≠ mdRECONFIG → s.stageOk = (ok, u) →
      ∃ t, exec .checkComplete s = .next t ∧ t.rf .imgStat imgStat_BUSY = 0 ∧ t.mode = u.mode ∧
        (t.rf .imgStat imgStat_CHECKED = 1 ↔ ok = true ∧ u.imgCheck u.stagedImage true = none) ∧
        (ok = false → t.rf .imgStat imgStat_RESULT = 1))) ∧
  (∀ (s : State) (r : Recon), s.mode = mdRECONFIG → s.recon = some r →
    (s.sliceIdle = true →
      ∃ t, exec .sliceQuiesced s = .next t ∧ t.recon = none ∧ (t.mode = mdSERVICE ∨ t.mode = mdDEGRADED) ∧
        t.rf .imgStat imgStat_BUSY = 0 ∧ t.reg .imgActive = BitVec.ofNat 64 (imgId s.stagedImage)) ∧
    (s.sliceIdle = false →
      ∃ t, exec .quiesceTimeout s = .next t ∧ r.since + s.cfg.qtmo * 1000000 ≤ t.now ∧ t.recon = none ∧
        (t.mode = mdSERVICE ∨ t.mode = mdDEGRADED) ∧ t.rf .imgStat imgStat_BUSY = 0 ∧
        (r.force = false → t.rf .imgStat imgStat_RESULT = 12 ∧ t.reg .imgActive = s.reg .imgActive)))

/-- R560, R584, R598, R620, R624: what each command of the management block does: flash operations end with their effect and ERR, or
fail; the UART keeps at most sixteen received bytes and reports its last byte sent; a message fills the receive buffer, or is answered busy
while one waits; FUSE_ROOT programs blank root fuses in recovery and nothing else; GET_ID answers the identification. -/
def Obligations.ManagementResults : Prop :=
  (∀ (op a at' : Nat) (s : State), s.flOp = some (op, a, at') → awf s.flash 0xFF 0 = true →
    (∃ t, exec (.flashOperationDone true) s = .next t ∧ t.flOp = none ∧ t.rf .mgtFlcmd mgtFlcmd_BUSY = 0 ∧ t.rf .mgtFlcmd mgtFlcmd_ERR = 0 ∧
      (op = 1 → ∀ i, i < 4096 → t.flashByte (a / 4096 * 4096 + i) = 0xFF) ∧
      (op = 1 → ∀ b, b / 4096 ≠ a / 4096 → t.flashByte b = s.flashByte b) ∧
      (op = 2 → ∀ i, i < 256 → s.flashByte (a / 256 * 256 + i) = 0xFF →
        t.flashByte (a / 256 * 256 + i) = ((s.reg (.mgtFlbuf (i / 8))).extractLsb' (8 * (i % 8)) 8)) ∧
      (op = 2 → ∀ b, b / 256 ≠ a / 256 → t.flashByte b = s.flashByte b) ∧
      (op = 3 → ∀ i, i < 256 → (t.reg (.mgtFlbuf (i / 8))).extractLsb' (8 * (i % 8)) 8 = s.flashByte (a / 256 * 256 + i))) ∧
    (∃ t, exec (.flashOperationDone false) s = .next t ∧ t.flOp = none ∧ t.rf .mgtFlcmd mgtFlcmd_BUSY = 0 ∧ t.rf .mgtFlcmd mgtFlcmd_ERR = 2) ∧
    (∃ t, exec .flashOperationTimeout s = .next t ∧ t.flOp = none ∧ t.rf .mgtFlcmd mgtFlcmd_BUSY = 0 ∧
      t.rf .mgtFlcmd mgtFlcmd_ERR = 3 ∧ at' + 2000000000 ≤ t.now)) ∧
  (∀ (s : State), s.uartTx ≠ [] → s.rf .mgtUart mgtUart_EN = 1 → s.sealedShut = false →
    ∃ t, exec .uartTransmitterEmpty s = .next t ∧ t.uartTx = [] ∧ t.rf (.intcSrc 586) intcSrc_CNT = min (s.rf (.intcSrc 586) intcSrc_CNT + 1) 0xFFFF) ∧
  (∀ (b : Nat) (s : State), b < 256 → s.rf .mgtUart mgtUart_EN = 1 → s.porLow = false → s.wrstLow = false →
    ∃ t, exec (.uartReceive b) s = .next t ∧ t.uartRx = (s.uartRx ++ [b]).take 16 ∧
      t.rf (.intcSrc 585) intcSrc_CNT = min (s.rf (.intcSrc 585) intcSrc_CNT + 1) 0xFFFF) ∧
  (∀ (s : State), s.rf .mgtMctl mgtMctl_TXBUSY = 1 →
    ∃ t, exec .mctpTransmissionDone s = .next t ∧ t.rf .mgtMctl mgtMctl_TXBUSY = 0 ∧
      Claims.Reported (s.setRf .mgtMctl mgtMctl_TXBUSY 0) t 584) ∧
  (∀ (bs : List Byte) (s : State), bs ≠ [] → bs.length < 256 → s.smbOn = true →
    (s.rf .mgtMctl mgtMctl_RXFULL = 1 ∨ s.sealedShut = true →
      ∃ t, exec (.mctpMessageReceived bs) s = .next t ∧ t = { s with mctpAns := [] }) ∧
    (s.rf .mgtMctl mgtMctl_RXFULL = 0 → s.sealedShut = false →
      ∃ t, exec (.mctpMessageReceived bs) s = .next t ∧ t.rf .mgtMctl mgtMctl_RXFULL = 1 ∧ t.rf .mgtMctl mgtMctl_RXLEN = bs.length ∧
        ∀ i, i < bs.length → (t.reg (.mgtRxbuf (i / 8))).extractLsb' (8 * (i % 8)) 8 = bs.getD i 0)) ∧
  (∀ (hash : List Byte) (s : State), hash.length = 48 → s.smbOn = true →
    (s.mode = mdCONFIGURE → s.rf .sysMode sysMode_RECOVERY = 1 → s.rf .sysFuse sysFuse_CROOT = 0 →
      ∃ t, exec (.fuseRoot hash) s = .next t ∧ t.fuseRoot = hash ∧ t.rf .sysFuse sysFuse_CROOT = 1) ∧
    (s.mode ≠ mdCONFIGURE ∨ s.rf .sysMode sysMode_RECOVERY = 0 ∨ s.rf .sysFuse sysFuse_CROOT = 1 →
      ∃ t, exec (.fuseRoot hash) s = .next t ∧ t = { s with mctpAns := t.mctpAns })) ∧
  (∀ (s : State), s.smbOn = true →
    ∃ t, exec .getId s = .next t ∧ t.mctpAns = toBytes (s.reg .sysId).toNat 8 ++ toBytes (s.reg .sysSerial).toNat 8 ∧
      t = { s with mctpAns := t.mctpAns })

/-- R8, R575-R580, R598, R615: the pins and what they reset. A warm device reset leaves SELFTEST, memory and fuses as they were, and its
cause in RSTAT; LOCKDOWN ignores it. Power-on clears all but fuses and the outside world, and its end loads the device key, or enters
LOCKDOWN with CAUSE 8 at the limit. A tamper cause enters LOCKDOWN with its cause, no key left and every core held; its memory is cleared
and its count programmed at their times. -/
def Obligations.ResetAndLockdownResults : Prop :=
  (∀ (s : State) (i : Instr) (cause : Nat),
    (i = .warmReset ∧ s.smbOn = true ∧ cause = 3) ∨ (i = .wrstN ∧ s.wrstLow = false ∧ s.porLow = false ∧ cause = 1) →
    (s.mode ≠ mdLOCKDOWN →
      ∃ t, exec i s = .next t ∧ t.mode = mdSELFTEST ∧ t.rf .pwrRstat pwrRstat_LAST = cause ∧ t.mem = s.mem ∧ t.devKey = s.devKey ∧
        t.retired = s.retired ∧ t.fuseKey = s.fuseKey ∧ t.flash = s.flash ∧ t.carts = s.carts ∧ t.pending = s.pending ∧ t.queues = [] ∧
        t.staged = [] ∧ t.egr = [] ∧ t.wrstLow = (if cause = 1 then true else s.wrstLow)) ∧
    (s.mode = mdLOCKDOWN → ∃ t, exec i s = .next t ∧ t = { s with wrstLow := t.wrstLow })) ∧
  (∀ (s : State), s.wrstLow = true → ∃ t, exec .wrstNRise s = .next t ∧ t = { s with wrstLow := false }) ∧
  (∀ (low : Bool) (s : State), s.hostHeld ≠ low → ∃ t, exec (.pePerstN low) s = .next t ∧ t = { s with hostHeld := low }) ∧
  (∀ (s : State), s.porLow = false →
    ∃ t, exec (.porN true) s = .next t ∧ t.porLow = true ∧ t.mode = mdSELFTEST ∧ t.keys = [] ∧ t.devKey = List.replicate 32 0 ∧
      t.fuseKey = s.fuseKey ∧ t.flash = s.flash ∧ t.carts = s.carts ∧ t.pending = s.pending ∧
      ∀ a, t.mem.tag a = tUNINIT ∧ t.mem.word a = 0) ∧
  (∀ (s : State), s.porLow = true →
    let limit := s.rf .sysLdrec sysLdrec_LDLIMIT
    (limit = 0 ∨ s.rf .sysLdrec sysLdrec_LDCOUNT < limit →
      ∃ t, exec (.porN false) s = .next t ∧ t = { s with porLow := false, devKey := s.fuseKey }) ∧
    (limit ≠ 0 → limit ≤ s.rf .sysLdrec sysLdrec_LDCOUNT → s.mode ≠ mdLOCKDOWN →
      ∃ t, exec (.porN false) s = .next t ∧ t.porLow = false ∧ t.mode = mdLOCKDOWN ∧ t.rf .sysLdrec sysLdrec_CAUSE = 8 ∧
        t.devKey = List.replicate 32 0)) ∧
  (∀ (cause k : Nat) (s : State), 1 ≤ cause → cause ≤ 5 → k < 8 → (cause = 4 → k < 2) → (cause ≠ 1 → cause ≠ 4 → k = 0) → s.porLow = false →
    (cause = 1 → bit (s.rf .sysTamper sysTamper_ARMED) k = true) → s.mode ≠ mdLOCKDOWN →
    ∃ t, exec (.tamperCause cause k) s = .next t ∧ t.mode = mdLOCKDOWN ∧ t.rf .sysLdrec sysLdrec_CAUSE = cause ∧ t.keys = [] ∧
      t.devKey = List.replicate 32 0 ∧ t.pinLockdown = true ∧ (∀ n, (t.core n).held = true) ∧ t.queues = [] ∧ t.staged = [] ∧
      (∀ l, l < 12 → t.linkState l = lsDOWN) ∧ (cause = 4 → k = 1 → t.pinThermtrip = true)) ∧
  (∀ (at' : Nat) (s : State), s.ldClear = some at' →
    ∃ t, exec .lockdownClear s = .next t ∧ at' + 100000000 ≤ t.now ∧ t.tcms = [] ∧ t.ldClear = none ∧
      (∀ a, t.mem.tag a = tUNINIT ∧ t.mem.word a = 0) ∧ ∀ r, t.reg r = s.reg r) ∧
  (∀ (at' : Nat) (s : State), s.ldFuse = some at' →
    ∃ t, exec .ldcountProgram s = .next t ∧ at' + 2000000000 ≤ t.now ∧ t.ldFuse = none ∧
      t.rf .sysLdrec sysLdrec_LDCOUNT = min (s.rf .sysLdrec sysLdrec_LDCOUNT + 1) 15 ∧ ∀ r, r ≠ .sysLdrec → t.reg r = s.reg r)

/-- R8, R47, R569: the machine right after reset: mode SELFTEST, no command waiting, every core held, every word of memory UNINIT with zero
data, and every register at the value of its Reset column. R125: a core reset of an unpaired core leaves context 0 running at supervisor
level with the roots and its program counter at the reset entry of its world, context 1 idle, and every other register of both contexts zero
or untagged. -/
def Obligations.ResetStates : Prop :=
  (State.reset.pending = [] ∧ State.reset.mode = mdSELFTEST ∧ State.reset.memWf = true ∧ (∀ n, (State.reset.core n).held = true) ∧
    (∀ a, State.reset.mem.tag a = tUNINIT ∧ State.reset.mem.word a = 0) ∧ ∀ r : Reg, State.reset.reg r = r.reset) ∧
  (∀ (n k : Nat) (s : State), n < 112 → k < 2 → s.paired n = false →
      let x := (s.coreReset n).ctx n k
      let w := s.coreWorld n
      x.st = (if k = 0 then .run else .idle) ∧
      stSUP x.status = decide (k = 0) ∧ stGM x.status = true ∧ stIE x.status = false ∧ stEXL x.status = false ∧
      x.cap 15 = (if k = 0 then rootMemory w (if w then s.cfg.resetEntryS else s.cfg.resetEntry) else Cap.null) ∧
      x.cap 1 = (if k = 0 then rootMemory w 0 else Cap.null) ∧ x.cap 2 = (if k = 0 then rootSealing w else Cap.null) ∧
      x.cap 3 = (if k = 0 then rootDevice w else Cap.null) ∧ x.cap 0 = Cap.null ∧ (∀ i, 4 ≤ i → i < 15 → x.cap i = Cap.null) ∧
      (∀ i, x.csrv i = Cap.null) ∧ (∀ i, x.vreg i = 0) ∧ (∀ i, 1 ≤ i → x.pred i = false) ∧
      x.srv nWBASE = 0 ∧ x.srv nWDEPTH = 0 ∧ x.srv nCTXID = BitVec.ofNat 64 (2 * n + k) ∧ x.srv nRPT = 0 ∧ x.srv nMPROG = 0 ∧
      fld (x.srv nVSTATE) 14 8 = 64 ∧ fld (x.srv nVSTATE) 1 0 = 0 ∧
      ((s.coreReset n).core n).inUse = 0 ∧ ((s.coreReset n).core n).sb = [] ∧ ((s.coreReset n).core n).tlb = [] ∧
      ((s.coreReset n).core n).tlbI = [] ∧ ((s.coreReset n).core n).tlbD = [] ∧
      ((s.coreReset n).core n).bankE = Bank.reset ∧ ((s.coreReset n).core n).bankD = Bank.reset)

/-! ## Rules of the whole machine -/

/-- R109: p0 reads as true at all times, and a compare that names it as a destination goes on with everything but that write. -/
def Obligations.PredicateZeroReadsTrue : Prop :=
  (∀ (s : State) (E : Env) (i : Nat), rdP s E i 0 = true) ∧ (∀ (s : State) (E : Env) (v : Bool) (d : Nat), wrP s E 0 v d = s) ∧
  (∀ p, p ∈ Claims.cmp2 → ∀ (h : Hdr) (ra rb : Nat) (s s1 : State) (E : Env), Issued s (p.1 h 0 ra rb) E s1 → Straight s1 E →
    ∃ t, exec (p.1 h 0 ra rb) s = .next t ∧ Goes s1 t E [])

/-- R56: SELFTEST, when it ends, leaves every word of DRAM and of every TCM tagged UNINIT. -/
def Obligations.SelftestLeavesUninit : Prop :=
  ∀ (failed : List (Nat × Nat)) (s : State), (∀ e, e ∈ failed → testable e.1 e.2 = true) → s.mode = mdSELFTEST →
    s.rf .sysMode sysMode_REASON = 0 → s.porLow = false → s.wrstLow = false →
    ∃ t, exec (.selftest failed) s = .next t ∧
      ((t.mode = mdSELFTEST ∧ t.rf .sysMode sysMode_REASON ≠ 0) ∨ (t.mode = mdCONFIGURE ∧ ∀ tg a, (t.memOf tg).tag a = tUNINIT))

/-- R60: a write that changes the tag of one word of an aligned CAPLO–CAPHI pair leaves the other word UNINIT with zero data, in the same
update; one that keeps it leaves the other word as it was. -/
def Obligations.BrokenPairsBecomeUninit : Prop :=
  ∀ (m : Mem) (a v t : Nat), m.wf = true → a % 16 = 0 → t < 16 → m.tag a = tCAPLO → m.tag (a + 8) = tCAPHI →
    (t ≠ tCAPLO → (m.writeWord a v t).tag a = t ∧ (m.writeWord a v t).word a = v % 2 ^ 64 ∧
      (m.writeWord a v t).tag (a + 8) = tUNINIT ∧ (m.writeWord a v t).word (a + 8) = 0) ∧
    (t ≠ tCAPHI → (m.writeWord (a + 8) v t).tag (a + 8) = t ∧ (m.writeWord (a + 8) v t).word (a + 8) = v % 2 ^ 64 ∧
      (m.writeWord (a + 8) v t).tag a = tUNINIT ∧ (m.writeWord (a + 8) v t).word a = 0) ∧
    (m.writeWord a v tCAPLO).tag (a + 8) = tCAPHI ∧ (m.writeWord a v tCAPLO).word (a + 8) = m.word (a + 8) ∧
    (m.writeWord (a + 8) v tCAPHI).tag a = tCAPLO ∧ (m.writeWord (a + 8) v tCAPHI).word a = m.word a

/-- R577: in LOCKDOWN every reset but a power-on reset changes nothing, and no step leaves LOCKDOWN but one whose command is POR_N going
low. -/
def Obligations.LockdownEndsOnlyAtPowerOn : Prop :=
  (∀ (s : State) (v : Word) (cause : Nat), s.mode = mdLOCKDOWN → s.resetWritten v = s ∧ s.warmReset cause = s) ∧
  (∀ s t : State, s.mode = mdLOCKDOWN → step s = .next t → s.pending.head? ≠ some (.porN true) → t.mode = mdLOCKDOWN)

/-! ## The machine as a whole -/

/-- Step of a state with a command at the front of its queue is the command's effect with the queue's rest. On an empty queue a step is one
tick of the 100 MHz management clock of R270: INTC.NOW passes by 10 ns and nothing else changes. That a step is such a tick is this model's
choice (assumption 1). -/
def Obligations.StepRunsFrontOrTicks : Prop :=
  (∀ (c : Instr) (rest : List Instr) (s : State),
      step { s with pending := c :: rest } = exec c { s with pending := rest }) ∧
  (∀ s : State, s.pending = [] → ∃ t, step s = .next t ∧ t.now = s.now + 10 ∧ t = { s with now := t.now })

/-- Every step keeps every memory in its canonical form: its data and its tags list rising addresses, and nothing that an unlisted address
reads as. -/
def Obligations.StepKeepsMemoryForm : Prop :=
  ∀ s t : State, s.memWf = true → step s = .next t → t.memWf = true
end

