-- ==== Sys2Proof/Laws/Tab.lean ====
section
/-! SUPPORT. Sparse tables: a read after a write of the same key gives the value written, and a write leaves every other key alone. -/

namespace Sys2Proof.Machine

open Sys2Proof

variable {κ β : Type} [DecidableEq κ]

@[simp] theorem tget_tset_self (t : Tab κ β) (k : κ) (v d : β) : tget (tset t k v) k d = v := by
  induction t with
  | nil => simp [tset, tget]
  | cons e r ih =>
    obtain ⟨a, b⟩ := e
    by_cases h : a = k <;> simp [tset, tget, h, ih]

theorem tget_tset_ne (t : Tab κ β) {k j : κ} (v d : β) (h : j ≠ k) : tget (tset t k v) j d = tget t j d := by
  induction t with
  | nil => simp [tset, tget, Ne.symm h]
  | cons e r ih =>
    obtain ⟨a, b⟩ := e
    by_cases ha : a = k
    · subst ha; simp [tset, tget, Ne.symm h]
    · by_cases hb : a = j
      · subst hb; simp [tset, tget, ha]
      · simp [tset, tget, ha, hb, ih]

@[simp] theorem tfind_tset_self (t : Tab κ β) (k : κ) (v : β) : tfind (tset t k v) k = some v := by
  induction t with
  | nil => simp [tset, tfind]
  | cons e r ih =>
    obtain ⟨a, b⟩ := e
    by_cases h : a = k <;> simp [tset, tfind, h, ih]

theorem tfind_tset_ne (t : Tab κ β) {k j : κ} (v : β) (h : j ≠ k) : tfind (tset t k v) j = tfind t j := by
  induction t with
  | nil => simp [tset, tfind, Ne.symm h]
  | cons e r ih =>
    obtain ⟨a, b⟩ := e
    by_cases ha : a = k
    · subst ha; simp [tset, tfind, Ne.symm h]
    · by_cases hb : a = j
      · subst hb; simp [tset, tfind, ha]
      · simp [tset, tfind, ha, hb, ih]

@[simp] theorem tfind_tdel_self (t : Tab κ β) (k : κ) : tfind (tdel t k) k = none := by
  induction t with
  | nil => rfl
  | cons e r ih =>
    obtain ⟨a, b⟩ := e
    by_cases h : a = k
    · simpa [tdel, List.filter, h] using ih
    · simpa [tdel, List.filter, h, tfind] using ih

theorem tfind_tdel_ne (t : Tab κ β) {k j : κ} (h : j ≠ k) : tfind (tdel t k) j = tfind t j := by
  induction t with
  | nil => rfl
  | cons e r ih =>
    obtain ⟨a, b⟩ := e
    by_cases ha : a = k
    · subst ha; simpa [tdel, List.filter, tfind, Ne.symm h] using ih
    · by_cases hb : a = j
      · subst hb; simp [tdel, List.filter, ha, tfind]
      · simpa [tdel, List.filter, ha, tfind, hb] using ih

/-- A table listed with another value for one key lists exactly that value there. -/
theorem tget_eq_tfind (t : Tab κ β) (k : κ) (d : β) : tget t k d = (tfind t k).getD d := by
  induction t with
  | nil => rfl
  | cons e r ih =>
    obtain ⟨a, b⟩ := e
    by_cases h : a = k <;> simp [tget, tfind, h, ih]

end Sys2Proof.Machine
end

