-- ==== Sys2Proof/Laws/State.lean ====
section
/-! SUPPORT. What each update of the state leaves alone: one lemma per field and update. -/

namespace Sys2Proof.Machine

open Sys2Proof

/-! ## Updates of the device -/

@[simp] theorem State.setCore_pending (s : State) (n : Nat) (c : Core) : (s.setCore n c).pending = s.pending := rfl
@[simp] theorem State.setCore_free (s : State) (n : Nat) (c : Core) : (s.setCore n c).free = s.free := rfl
@[simp] theorem State.setCore_now (s : State) (n : Nat) (c : Core) : (s.setCore n c).now = s.now := rfl
@[simp] theorem State.setCore_regs (s : State) (n : Nat) (c : Core) : (s.setCore n c).regs = s.regs := rfl
@[simp] theorem State.setCore_mem (s : State) (n : Nat) (c : Core) : (s.setCore n c).mem = s.mem := rfl
@[simp] theorem State.setCore_tcms (s : State) (n : Nat) (c : Core) : (s.setCore n c).tcms = s.tcms := rfl
@[simp] theorem State.setCore_cbuf (s : State) (n : Nat) (c : Core) : (s.setCore n c).cbuf = s.cbuf := rfl
@[simp] theorem State.setCore_cfg (s : State) (n : Nat) (c : Core) : (s.setCore n c).cfg = s.cfg := rfl
@[simp] theorem State.setCore_events (s : State) (n : Nat) (c : Core) : (s.setCore n c).events = s.events := rfl
@[simp] theorem State.setCore_egr (s : State) (n : Nat) (c : Core) : (s.setCore n c).egr = s.egr := rfl
@[simp] theorem State.setCore_queues (s : State) (n : Nat) (c : Core) : (s.setCore n c).queues = s.queues := rfl
@[simp] theorem State.setCore_slots (s : State) (n : Nat) (c : Core) : (s.setCore n c).slots = s.slots := rfl
@[simp] theorem State.setCore_xq (s : State) (n : Nat) (c : Core) : (s.setCore n c).xq = s.xq := rfl
@[simp] theorem State.setCore_reqNo (s : State) (n : Nat) (c : Core) : (s.setCore n c).reqNo = s.reqNo := rfl
@[simp] theorem State.setCore_srcLast (s : State) (n : Nat) (c : Core) : (s.setCore n c).srcLast = s.srcLast := rfl
@[simp] theorem State.setCore_srcLevel (s : State) (n : Nat) (c : Core) : (s.setCore n c).srcLevel = s.srcLevel := rfl
@[simp] theorem State.setCore_xlost (s : State) (n : Nat) (c : Core) : (s.setCore n c).xlost = s.xlost := rfl
@[simp] theorem State.setCore_rpLost (s : State) (n : Nat) (c : Core) : (s.setCore n c).rpLost = s.rpLost := rfl
@[simp] theorem State.setCore_rdgStale (s : State) (n : Nat) (c : Core) : (s.setCore n c).rdgStale = s.rdgStale := rfl
@[simp] theorem State.setCore_shadow (s : State) (n : Nat) (c : Core) : (s.setCore n c).shadow = s.shadow := rfl
@[simp] theorem State.setCore_tx (s : State) (n : Nat) (c : Core) : (s.setCore n c).tx = s.tx := rfl
@[simp] theorem State.setCore_loop (s : State) (n : Nat) (c : Core) : (s.setCore n c).loop = s.loop := rfl
@[simp] theorem State.setCore_cdlReq (s : State) (n : Nat) (c : Core) : (s.setCore n c).cdlReq = s.cdlReq := rfl
@[simp] theorem State.setCore_plotCache (s : State) (n : Nat) (c : Core) : (s.setCore n c).plotCache = s.plotCache := rfl
@[simp] theorem State.setCore_ownMap (s : State) (n : Nat) (c : Core) : (s.setCore n c).ownMap = s.ownMap := rfl
@[simp] theorem State.setCore_registrar (s : State) (n : Nat) (c : Core) : (s.setCore n c).registrar = s.registrar := rfl
@[simp] theorem State.setCore_nodes (s : State) (n : Nat) (c : Core) : (s.setCore n c).nodes = s.nodes := rfl
@[simp] theorem State.setCore_forwards (s : State) (n : Nat) (c : Core) : (s.setCore n c).forwards = s.forwards := rfl
@[simp] theorem State.setCore_xout (s : State) (n : Nat) (c : Core) : (s.setCore n c).xout = s.xout := rfl
@[simp] theorem State.setCore_lastPick (s : State) (n : Nat) (c : Core) : (s.setCore n c).lastPick = s.lastPick := rfl
@[simp] theorem State.setCore_posted (s : State) (n : Nat) (c : Core) : (s.setCore n c).posted = s.posted := rfl
@[simp] theorem State.setCore_sealing (s : State) (n : Nat) (c : Core) : (s.setCore n c).sealing = s.sealing := rfl
@[simp] theorem State.setCore_staged (s : State) (n : Nat) (c : Core) : (s.setCore n c).staged = s.staged := rfl
@[simp] theorem State.setCore_salt (s : State) (n : Nat) (c : Core) : (s.setCore n c).salt = s.salt := rfl
@[simp] theorem State.setCore_kq (s : State) (n : Nat) (c : Core) : (s.setCore n c).kq = s.kq := rfl
@[simp] theorem State.setCore_kNo (s : State) (n : Nat) (c : Core) : (s.setCore n c).kNo = s.kNo := rfl
@[simp] theorem State.setCore_kdone (s : State) (n : Nat) (c : Core) : (s.setCore n c).kdone = s.kdone := rfl
@[simp] theorem State.setCore_kbusy (s : State) (n : Nat) (c : Core) : (s.setCore n c).kbusy = s.kbusy := rfl
@[simp] theorem State.setCore_keys (s : State) (n : Nat) (c : Core) : (s.setCore n c).keys = s.keys := rfl
@[simp] theorem State.setCore_kgen (s : State) (n : Nat) (c : Core) : (s.setCore n c).kgen = s.kgen := rfl
@[simp] theorem State.setCore_drbgN (s : State) (n : Nat) (c : Core) : (s.setCore n c).drbgN = s.drbgN := rfl
@[simp] theorem State.setCore_devKey (s : State) (n : Nat) (c : Core) : (s.setCore n c).devKey = s.devKey := rfl
@[simp] theorem State.setCore_cstore (s : State) (n : Nat) (c : Core) : (s.setCore n c).cstore = s.cstore := rfl
@[simp] theorem State.setCore_csActive (s : State) (n : Nat) (c : Core) : (s.setCore n c).csActive = s.csActive := rfl
@[simp] theorem State.setCore_carts (s : State) (n : Nat) (c : Core) : (s.setCore n c).carts = s.carts := rfl
@[simp] theorem State.setCore_jslot (s : State) (n : Nat) (c : Core) : (s.setCore n c).jslot = s.jslot := rfl
@[simp] theorem State.setCore_jcAppends (s : State) (n : Nat) (c : Core) : (s.setCore n c).jcAppends = s.jcAppends := rfl
@[simp] theorem State.setCore_jcLast (s : State) (n : Nat) (c : Core) : (s.setCore n c).jcLast = s.jcLast := rfl
@[simp] theorem State.setCore_jcQuiet (s : State) (n : Nat) (c : Core) : (s.setCore n c).jcQuiet = s.jcQuiet := rfl
@[simp] theorem State.setCore_cartRoot (s : State) (n : Nat) (c : Core) : (s.setCore n c).cartRoot = s.cartRoot := rfl
@[simp] theorem State.setCore_revoked (s : State) (n : Nat) (c : Core) : (s.setCore n c).revoked = s.revoked := rfl
@[simp] theorem State.setCore_lanes (s : State) (n : Nat) (c : Core) : (s.setCore n c).lanes = s.lanes := rfl
@[simp] theorem State.setCore_parseQ (s : State) (n : Nat) (c : Core) : (s.setCore n c).parseQ = s.parseQ := rfl
@[simp] theorem State.setCore_pbank (s : State) (n : Nat) (c : Core) : (s.setCore n c).pbank = s.pbank := rfl
@[simp] theorem State.setCore_fcache (s : State) (n : Nat) (c : Core) : (s.setCore n c).fcache = s.fcache := rfl
@[simp] theorem State.setCore_fbad (s : State) (n : Nat) (c : Core) : (s.setCore n c).fbad = s.fbad := rfl
@[simp] theorem State.setCore_degPrio (s : State) (n : Nat) (c : Core) : (s.setCore n c).degPrio = s.degPrio := rfl
@[simp] theorem State.setCore_hostHeld (s : State) (n : Nat) (c : Core) : (s.setCore n c).hostHeld = s.hostHeld := rfl
@[simp] theorem State.setCore_heat (s : State) (n : Nat) (c : Core) : (s.setCore n c).heat = s.heat := rfl
@[simp] theorem State.setCore_heatAt (s : State) (n : Nat) (c : Core) : (s.setCore n c).heatAt = s.heatAt := rfl
@[simp] theorem State.setCore_plotStat (s : State) (n : Nat) (c : Core) : (s.setCore n c).plotStat = s.plotStat := rfl
@[simp] theorem State.setCore_offers (s : State) (n : Nat) (c : Core) : (s.setCore n c).offers = s.offers := rfl
@[simp] theorem State.setCore_pools (s : State) (n : Nat) (c : Core) : (s.setCore n c).pools = s.pools := rfl
@[simp] theorem State.setCore_ovf (s : State) (n : Nat) (c : Core) : (s.setCore n c).ovf = s.ovf := rfl
@[simp] theorem State.setCore_pleCand (s : State) (n : Nat) (c : Core) : (s.setCore n c).pleCand = s.pleCand := rfl
@[simp] theorem State.setCore_moveAt (s : State) (n : Nat) (c : Core) : (s.setCore n c).moveAt = s.moveAt := rfl
@[simp] theorem State.setCore_fixed (s : State) (n : Nat) (c : Core) : (s.setCore n c).fixed = s.fixed := rfl
@[simp] theorem State.setCore_scrubAt (s : State) (n : Nat) (c : Core) : (s.setCore n c).scrubAt = s.scrubAt := rfl
@[simp] theorem State.setCore_rowFix (s : State) (n : Nat) (c : Core) : (s.setCore n c).rowFix = s.rowFix := rfl
@[simp] theorem State.setCore_rowBad (s : State) (n : Nat) (c : Core) : (s.setCore n c).rowBad = s.rowBad := rfl
@[simp] theorem State.setCore_ceAt (s : State) (n : Nat) (c : Core) : (s.setCore n c).ceAt = s.ceAt := rfl
@[simp] theorem State.setCore_cal (s : State) (n : Nat) (c : Core) : (s.setCore n c).cal = s.cal := rfl
@[simp] theorem State.setCore_region (s : State) (n : Nat) (c : Core) : (s.setCore n c).region = s.region := rfl
@[simp] theorem State.setCore_ldClear (s : State) (n : Nat) (c : Core) : (s.setCore n c).ldClear = s.ldClear := rfl
@[simp] theorem State.setCore_ldFuse (s : State) (n : Nat) (c : Core) : (s.setCore n c).ldFuse = s.ldFuse := rfl
@[simp] theorem State.setCore_porLow (s : State) (n : Nat) (c : Core) : (s.setCore n c).porLow = s.porLow := rfl
@[simp] theorem State.setCore_ref100 (s : State) (n : Nat) (c : Core) : (s.setCore n c).ref100 = s.ref100 := rfl
@[simp] theorem State.setCore_wrstLow (s : State) (n : Nat) (c : Core) : (s.setCore n c).wrstLow = s.wrstLow := rfl
@[simp] theorem State.setCore_pinLockdown (s : State) (n : Nat) (c : Core) : (s.setCore n c).pinLockdown = s.pinLockdown := rfl
@[simp] theorem State.setCore_pinThermtrip (s : State) (n : Nat) (c : Core) : (s.setCore n c).pinThermtrip = s.pinThermtrip := rfl
@[simp] theorem State.setCore_retired (s : State) (n : Nat) (c : Core) : (s.setCore n c).retired = s.retired := rfl
@[simp] theorem State.setCore_retLog (s : State) (n : Nat) (c : Core) : (s.setCore n c).retLog = s.retLog := rfl
@[simp] theorem State.setCore_links (s : State) (n : Nat) (c : Core) : (s.setCore n c).links = s.links := rfl
@[simp] theorem State.setCore_linkQui (s : State) (n : Nat) (c : Core) : (s.setCore n c).linkQui = s.linkQui := rfl
@[simp] theorem State.setCore_joinDue (s : State) (n : Nat) (c : Core) : (s.setCore n c).joinDue = s.joinDue := rfl
@[simp] theorem State.setCore_echoes (s : State) (n : Nat) (c : Core) : (s.setCore n c).echoes = s.echoes := rfl
@[simp] theorem State.setCore_depHist (s : State) (n : Nat) (c : Core) : (s.setCore n c).depHist = s.depHist := rfl
@[simp] theorem State.setCore_lastIrq (s : State) (n : Nat) (c : Core) : (s.setCore n c).lastIrq = s.lastIrq := rfl
@[simp] theorem State.setCore_haltAt (s : State) (n : Nat) (c : Core) : (s.setCore n c).haltAt = s.haltAt := rfl
@[simp] theorem State.setCore_regOut (s : State) (n : Nat) (c : Core) : (s.setCore n c).regOut = s.regOut := rfl
@[simp] theorem State.setCore_regErr (s : State) (n : Nat) (c : Core) : (s.setCore n c).regErr = s.regErr := rfl
@[simp] theorem State.setCore_lagged (s : State) (n : Nat) (c : Core) : (s.setCore n c).lagged = s.lagged := rfl
@[simp] theorem State.setCore_ageOver (s : State) (n : Nat) (c : Core) : (s.setCore n c).ageOver = s.ageOver := rfl
@[simp] theorem State.setCore_ageHist (s : State) (n : Nat) (c : Core) : (s.setCore n c).ageHist = s.ageHist := rfl
@[simp] theorem State.setCore_ageAt (s : State) (n : Nat) (c : Core) : (s.setCore n c).ageAt = s.ageAt := rfl
@[simp] theorem State.setCore_mons (s : State) (n : Nat) (c : Core) : (s.setCore n c).mons = s.mons := rfl
@[simp] theorem State.setCore_selfTest (s : State) (n : Nat) (c : Core) : (s.setCore n c).selfTest = s.selfTest := rfl
@[simp] theorem State.setCore_avsTarget (s : State) (n : Nat) (c : Core) : (s.setCore n c).avsTarget = s.avsTarget := rfl
@[simp] theorem State.setCore_avsAsk (s : State) (n : Nat) (c : Core) : (s.setCore n c).avsAsk = s.avsAsk := rfl
@[simp] theorem State.setCore_avsHold (s : State) (n : Nat) (c : Core) : (s.setCore n c).avsHold = s.avsHold := rfl
@[simp] theorem State.setCore_avsOff (s : State) (n : Nat) (c : Core) : (s.setCore n c).avsOff = s.avsOff := rfl
@[simp] theorem State.setCore_pcap (s : State) (n : Nat) (c : Core) : (s.setCore n c).pcap = s.pcap := rfl
@[simp] theorem State.setCore_tcap (s : State) (n : Nat) (c : Core) : (s.setCore n c).tcap = s.tcap := rfl
@[simp] theorem State.setCore_powerLow (s : State) (n : Nat) (c : Core) : (s.setCore n c).powerLow = s.powerLow := rfl
@[simp] theorem State.setCore_thermAt (s : State) (n : Nat) (c : Core) : (s.setCore n c).thermAt = s.thermAt := rfl
@[simp] theorem State.setCore_switchAt (s : State) (n : Nat) (c : Core) : (s.setCore n c).switchAt = s.switchAt := rfl
@[simp] theorem State.setCore_pllOff (s : State) (n : Nat) (c : Core) : (s.setCore n c).pllOff = s.pllOff := rfl
@[simp] theorem State.setCore_flash (s : State) (n : Nat) (c : Core) : (s.setCore n c).flash = s.flash := rfl
@[simp] theorem State.setCore_flOp (s : State) (n : Nat) (c : Core) : (s.setCore n c).flOp = s.flOp := rfl
@[simp] theorem State.setCore_flashBad (s : State) (n : Nat) (c : Core) : (s.setCore n c).flashBad = s.flashBad := rfl
@[simp] theorem State.setCore_uartTx (s : State) (n : Nat) (c : Core) : (s.setCore n c).uartTx = s.uartTx := rfl
@[simp] theorem State.setCore_uartAt (s : State) (n : Nat) (c : Core) : (s.setCore n c).uartAt = s.uartAt := rfl
@[simp] theorem State.setCore_uartRx (s : State) (n : Nat) (c : Core) : (s.setCore n c).uartRx = s.uartRx := rfl
@[simp] theorem State.setCore_mctpAns (s : State) (n : Nat) (c : Core) : (s.setCore n c).mctpAns = s.mctpAns := rfl
@[simp] theorem State.setCore_fetched (s : State) (n : Nat) (c : Core) : (s.setCore n c).fetched = s.fetched := rfl
@[simp] theorem State.setCore_fuseKey (s : State) (n : Nat) (c : Core) : (s.setCore n c).fuseKey = s.fuseKey := rfl
@[simp] theorem State.setCore_fuseRoot (s : State) (n : Nat) (c : Core) : (s.setCore n c).fuseRoot = s.fuseRoot := rfl
@[simp] theorem State.setCore_vendorRoot (s : State) (n : Nat) (c : Core) : (s.setCore n c).vendorRoot = s.vendorRoot := rfl
@[simp] theorem State.setCore_imgRegs (s : State) (n : Nat) (c : Core) : (s.setCore n c).imgRegs = s.imgRegs := rfl
@[simp] theorem State.setCore_slotUsed (s : State) (n : Nat) (c : Core) : (s.setCore n c).slotUsed = s.slotUsed := rfl
@[simp] theorem State.setCore_recon (s : State) (n : Nat) (c : Core) : (s.setCore n c).recon = s.recon := rfl
@[simp] theorem State.setCore_bar2 (s : State) (n : Nat) (c : Core) : (s.setCore n c).bar2 = s.bar2 := rfl
@[simp] theorem State.setCore_tampLevel (s : State) (n : Nat) (c : Core) : (s.setCore n c).tampLevel = s.tampLevel := rfl
@[simp] theorem State.setCore_fab (s : State) (n : Nat) (c : Core) : (s.setCore n c).fab = s.fab := rfl

@[simp] theorem State.setCtx_pending (s : State) (n k : Nat) (x : Ctx) : (s.setCtx n k x).pending = s.pending := rfl
@[simp] theorem State.setCtx_free (s : State) (n k : Nat) (x : Ctx) : (s.setCtx n k x).free = s.free := rfl
@[simp] theorem State.setCtx_now (s : State) (n k : Nat) (x : Ctx) : (s.setCtx n k x).now = s.now := rfl
@[simp] theorem State.setCtx_regs (s : State) (n k : Nat) (x : Ctx) : (s.setCtx n k x).regs = s.regs := rfl
@[simp] theorem State.setCtx_mem (s : State) (n k : Nat) (x : Ctx) : (s.setCtx n k x).mem = s.mem := rfl
@[simp] theorem State.setCtx_tcms (s : State) (n k : Nat) (x : Ctx) : (s.setCtx n k x).tcms = s.tcms := rfl
@[simp] theorem State.setCtx_cbuf (s : State) (n k : Nat) (x : Ctx) : (s.setCtx n k x).cbuf = s.cbuf := rfl
@[simp] theorem State.setCtx_cfg (s : State) (n k : Nat) (x : Ctx) : (s.setCtx n k x).cfg = s.cfg := rfl
@[simp] theorem State.setCtx_events (s : State) (n k : Nat) (x : Ctx) : (s.setCtx n k x).events = s.events := rfl
@[simp] theorem State.setCtx_egr (s : State) (n k : Nat) (x : Ctx) : (s.setCtx n k x).egr = s.egr := rfl
@[simp] theorem State.setCtx_queues (s : State) (n k : Nat) (x : Ctx) : (s.setCtx n k x).queues = s.queues := rfl
@[simp] theorem State.setCtx_slots (s : State) (n k : Nat) (x : Ctx) : (s.setCtx n k x).slots = s.slots := rfl
@[simp] theorem State.setCtx_xq (s : State) (n k : Nat) (x : Ctx) : (s.setCtx n k x).xq = s.xq := rfl
@[simp] theorem State.setCtx_reqNo (s : State) (n k : Nat) (x : Ctx) : (s.setCtx n k x).reqNo = s.reqNo := rfl
@[simp] theorem State.setCtx_srcLast (s : State) (n k : Nat) (x : Ctx) : (s.setCtx n k x).srcLast = s.srcLast := rfl
@[simp] theorem State.setCtx_srcLevel (s : State) (n k : Nat) (x : Ctx) : (s.setCtx n k x).srcLevel = s.srcLevel := rfl
@[simp] theorem State.setCtx_xlost (s : State) (n k : Nat) (x : Ctx) : (s.setCtx n k x).xlost = s.xlost := rfl
@[simp] theorem State.setCtx_rpLost (s : State) (n k : Nat) (x : Ctx) : (s.setCtx n k x).rpLost = s.rpLost := rfl
@[simp] theorem State.setCtx_rdgStale (s : State) (n k : Nat) (x : Ctx) : (s.setCtx n k x).rdgStale = s.rdgStale := rfl
@[simp] theorem State.setCtx_shadow (s : State) (n k : Nat) (x : Ctx) : (s.setCtx n k x).shadow = s.shadow := rfl
@[simp] theorem State.setCtx_tx (s : State) (n k : Nat) (x : Ctx) : (s.setCtx n k x).tx = s.tx := rfl
@[simp] theorem State.setCtx_loop (s : State) (n k : Nat) (x : Ctx) : (s.setCtx n k x).loop = s.loop := rfl
@[simp] theorem State.setCtx_cdlReq (s : State) (n k : Nat) (x : Ctx) : (s.setCtx n k x).cdlReq = s.cdlReq := rfl
@[simp] theorem State.setCtx_plotCache (s : State) (n k : Nat) (x : Ctx) : (s.setCtx n k x).plotCache = s.plotCache := rfl
@[simp] theorem State.setCtx_ownMap (s : State) (n k : Nat) (x : Ctx) : (s.setCtx n k x).ownMap = s.ownMap := rfl
@[simp] theorem State.setCtx_registrar (s : State) (n k : Nat) (x : Ctx) : (s.setCtx n k x).registrar = s.registrar := rfl
@[simp] theorem State.setCtx_nodes (s : State) (n k : Nat) (x : Ctx) : (s.setCtx n k x).nodes = s.nodes := rfl
@[simp] theorem State.setCtx_forwards (s : State) (n k : Nat) (x : Ctx) : (s.setCtx n k x).forwards = s.forwards := rfl
@[simp] theorem State.setCtx_xout (s : State) (n k : Nat) (x : Ctx) : (s.setCtx n k x).xout = s.xout := rfl
@[simp] theorem State.setCtx_lastPick (s : State) (n k : Nat) (x : Ctx) : (s.setCtx n k x).lastPick = s.lastPick := rfl
@[simp] theorem State.setCtx_posted (s : State) (n k : Nat) (x : Ctx) : (s.setCtx n k x).posted = s.posted := rfl
@[simp] theorem State.setCtx_sealing (s : State) (n k : Nat) (x : Ctx) : (s.setCtx n k x).sealing = s.sealing := rfl
@[simp] theorem State.setCtx_staged (s : State) (n k : Nat) (x : Ctx) : (s.setCtx n k x).staged = s.staged := rfl
@[simp] theorem State.setCtx_salt (s : State) (n k : Nat) (x : Ctx) : (s.setCtx n k x).salt = s.salt := rfl
@[simp] theorem State.setCtx_kq (s : State) (n k : Nat) (x : Ctx) : (s.setCtx n k x).kq = s.kq := rfl
@[simp] theorem State.setCtx_kNo (s : State) (n k : Nat) (x : Ctx) : (s.setCtx n k x).kNo = s.kNo := rfl
@[simp] theorem State.setCtx_kdone (s : State) (n k : Nat) (x : Ctx) : (s.setCtx n k x).kdone = s.kdone := rfl
@[simp] theorem State.setCtx_kbusy (s : State) (n k : Nat) (x : Ctx) : (s.setCtx n k x).kbusy = s.kbusy := rfl
@[simp] theorem State.setCtx_keys (s : State) (n k : Nat) (x : Ctx) : (s.setCtx n k x).keys = s.keys := rfl
@[simp] theorem State.setCtx_kgen (s : State) (n k : Nat) (x : Ctx) : (s.setCtx n k x).kgen = s.kgen := rfl
@[simp] theorem State.setCtx_drbgN (s : State) (n k : Nat) (x : Ctx) : (s.setCtx n k x).drbgN = s.drbgN := rfl
@[simp] theorem State.setCtx_devKey (s : State) (n k : Nat) (x : Ctx) : (s.setCtx n k x).devKey = s.devKey := rfl
@[simp] theorem State.setCtx_cstore (s : State) (n k : Nat) (x : Ctx) : (s.setCtx n k x).cstore = s.cstore := rfl
@[simp] theorem State.setCtx_csActive (s : State) (n k : Nat) (x : Ctx) : (s.setCtx n k x).csActive = s.csActive := rfl
@[simp] theorem State.setCtx_carts (s : State) (n k : Nat) (x : Ctx) : (s.setCtx n k x).carts = s.carts := rfl
@[simp] theorem State.setCtx_jslot (s : State) (n k : Nat) (x : Ctx) : (s.setCtx n k x).jslot = s.jslot := rfl
@[simp] theorem State.setCtx_jcAppends (s : State) (n k : Nat) (x : Ctx) : (s.setCtx n k x).jcAppends = s.jcAppends := rfl
@[simp] theorem State.setCtx_jcLast (s : State) (n k : Nat) (x : Ctx) : (s.setCtx n k x).jcLast = s.jcLast := rfl
@[simp] theorem State.setCtx_jcQuiet (s : State) (n k : Nat) (x : Ctx) : (s.setCtx n k x).jcQuiet = s.jcQuiet := rfl
@[simp] theorem State.setCtx_cartRoot (s : State) (n k : Nat) (x : Ctx) : (s.setCtx n k x).cartRoot = s.cartRoot := rfl
@[simp] theorem State.setCtx_revoked (s : State) (n k : Nat) (x : Ctx) : (s.setCtx n k x).revoked = s.revoked := rfl
@[simp] theorem State.setCtx_lanes (s : State) (n k : Nat) (x : Ctx) : (s.setCtx n k x).lanes = s.lanes := rfl
@[simp] theorem State.setCtx_parseQ (s : State) (n k : Nat) (x : Ctx) : (s.setCtx n k x).parseQ = s.parseQ := rfl
@[simp] theorem State.setCtx_pbank (s : State) (n k : Nat) (x : Ctx) : (s.setCtx n k x).pbank = s.pbank := rfl
@[simp] theorem State.setCtx_fcache (s : State) (n k : Nat) (x : Ctx) : (s.setCtx n k x).fcache = s.fcache := rfl
@[simp] theorem State.setCtx_fbad (s : State) (n k : Nat) (x : Ctx) : (s.setCtx n k x).fbad = s.fbad := rfl
@[simp] theorem State.setCtx_degPrio (s : State) (n k : Nat) (x : Ctx) : (s.setCtx n k x).degPrio = s.degPrio := rfl
@[simp] theorem State.setCtx_hostHeld (s : State) (n k : Nat) (x : Ctx) : (s.setCtx n k x).hostHeld = s.hostHeld := rfl
@[simp] theorem State.setCtx_heat (s : State) (n k : Nat) (x : Ctx) : (s.setCtx n k x).heat = s.heat := rfl
@[simp] theorem State.setCtx_heatAt (s : State) (n k : Nat) (x : Ctx) : (s.setCtx n k x).heatAt = s.heatAt := rfl
@[simp] theorem State.setCtx_plotStat (s : State) (n k : Nat) (x : Ctx) : (s.setCtx n k x).plotStat = s.plotStat := rfl
@[simp] theorem State.setCtx_offers (s : State) (n k : Nat) (x : Ctx) : (s.setCtx n k x).offers = s.offers := rfl
@[simp] theorem State.setCtx_pools (s : State) (n k : Nat) (x : Ctx) : (s.setCtx n k x).pools = s.pools := rfl
@[simp] theorem State.setCtx_ovf (s : State) (n k : Nat) (x : Ctx) : (s.setCtx n k x).ovf = s.ovf := rfl
@[simp] theorem State.setCtx_pleCand (s : State) (n k : Nat) (x : Ctx) : (s.setCtx n k x).pleCand = s.pleCand := rfl
@[simp] theorem State.setCtx_moveAt (s : State) (n k : Nat) (x : Ctx) : (s.setCtx n k x).moveAt = s.moveAt := rfl
@[simp] theorem State.setCtx_fixed (s : State) (n k : Nat) (x : Ctx) : (s.setCtx n k x).fixed = s.fixed := rfl
@[simp] theorem State.setCtx_scrubAt (s : State) (n k : Nat) (x : Ctx) : (s.setCtx n k x).scrubAt = s.scrubAt := rfl
@[simp] theorem State.setCtx_rowFix (s : State) (n k : Nat) (x : Ctx) : (s.setCtx n k x).rowFix = s.rowFix := rfl
@[simp] theorem State.setCtx_rowBad (s : State) (n k : Nat) (x : Ctx) : (s.setCtx n k x).rowBad = s.rowBad := rfl
@[simp] theorem State.setCtx_ceAt (s : State) (n k : Nat) (x : Ctx) : (s.setCtx n k x).ceAt = s.ceAt := rfl
@[simp] theorem State.setCtx_cal (s : State) (n k : Nat) (x : Ctx) : (s.setCtx n k x).cal = s.cal := rfl
@[simp] theorem State.setCtx_region (s : State) (n k : Nat) (x : Ctx) : (s.setCtx n k x).region = s.region := rfl
@[simp] theorem State.setCtx_ldClear (s : State) (n k : Nat) (x : Ctx) : (s.setCtx n k x).ldClear = s.ldClear := rfl
@[simp] theorem State.setCtx_ldFuse (s : State) (n k : Nat) (x : Ctx) : (s.setCtx n k x).ldFuse = s.ldFuse := rfl
@[simp] theorem State.setCtx_porLow (s : State) (n k : Nat) (x : Ctx) : (s.setCtx n k x).porLow = s.porLow := rfl
@[simp] theorem State.setCtx_ref100 (s : State) (n k : Nat) (x : Ctx) : (s.setCtx n k x).ref100 = s.ref100 := rfl
@[simp] theorem State.setCtx_wrstLow (s : State) (n k : Nat) (x : Ctx) : (s.setCtx n k x).wrstLow = s.wrstLow := rfl
@[simp] theorem State.setCtx_pinLockdown (s : State) (n k : Nat) (x : Ctx) : (s.setCtx n k x).pinLockdown = s.pinLockdown := rfl
@[simp] theorem State.setCtx_pinThermtrip (s : State) (n k : Nat) (x : Ctx) : (s.setCtx n k x).pinThermtrip = s.pinThermtrip := rfl
@[simp] theorem State.setCtx_retired (s : State) (n k : Nat) (x : Ctx) : (s.setCtx n k x).retired = s.retired := rfl
@[simp] theorem State.setCtx_retLog (s : State) (n k : Nat) (x : Ctx) : (s.setCtx n k x).retLog = s.retLog := rfl
@[simp] theorem State.setCtx_links (s : State) (n k : Nat) (x : Ctx) : (s.setCtx n k x).links = s.links := rfl
@[simp] theorem State.setCtx_linkQui (s : State) (n k : Nat) (x : Ctx) : (s.setCtx n k x).linkQui = s.linkQui := rfl
@[simp] theorem State.setCtx_joinDue (s : State) (n k : Nat) (x : Ctx) : (s.setCtx n k x).joinDue = s.joinDue := rfl
@[simp] theorem State.setCtx_echoes (s : State) (n k : Nat) (x : Ctx) : (s.setCtx n k x).echoes = s.echoes := rfl
@[simp] theorem State.setCtx_depHist (s : State) (n k : Nat) (x : Ctx) : (s.setCtx n k x).depHist = s.depHist := rfl
@[simp] theorem State.setCtx_lastIrq (s : State) (n k : Nat) (x : Ctx) : (s.setCtx n k x).lastIrq = s.lastIrq := rfl
@[simp] theorem State.setCtx_haltAt (s : State) (n k : Nat) (x : Ctx) : (s.setCtx n k x).haltAt = s.haltAt := rfl
@[simp] theorem State.setCtx_regOut (s : State) (n k : Nat) (x : Ctx) : (s.setCtx n k x).regOut = s.regOut := rfl
@[simp] theorem State.setCtx_regErr (s : State) (n k : Nat) (x : Ctx) : (s.setCtx n k x).regErr = s.regErr := rfl
@[simp] theorem State.setCtx_lagged (s : State) (n k : Nat) (x : Ctx) : (s.setCtx n k x).lagged = s.lagged := rfl
@[simp] theorem State.setCtx_ageOver (s : State) (n k : Nat) (x : Ctx) : (s.setCtx n k x).ageOver = s.ageOver := rfl
@[simp] theorem State.setCtx_ageHist (s : State) (n k : Nat) (x : Ctx) : (s.setCtx n k x).ageHist = s.ageHist := rfl
@[simp] theorem State.setCtx_ageAt (s : State) (n k : Nat) (x : Ctx) : (s.setCtx n k x).ageAt = s.ageAt := rfl
@[simp] theorem State.setCtx_mons (s : State) (n k : Nat) (x : Ctx) : (s.setCtx n k x).mons = s.mons := rfl
@[simp] theorem State.setCtx_selfTest (s : State) (n k : Nat) (x : Ctx) : (s.setCtx n k x).selfTest = s.selfTest := rfl
@[simp] theorem State.setCtx_avsTarget (s : State) (n k : Nat) (x : Ctx) : (s.setCtx n k x).avsTarget = s.avsTarget := rfl
@[simp] theorem State.setCtx_avsAsk (s : State) (n k : Nat) (x : Ctx) : (s.setCtx n k x).avsAsk = s.avsAsk := rfl
@[simp] theorem State.setCtx_avsHold (s : State) (n k : Nat) (x : Ctx) : (s.setCtx n k x).avsHold = s.avsHold := rfl
@[simp] theorem State.setCtx_avsOff (s : State) (n k : Nat) (x : Ctx) : (s.setCtx n k x).avsOff = s.avsOff := rfl
@[simp] theorem State.setCtx_pcap (s : State) (n k : Nat) (x : Ctx) : (s.setCtx n k x).pcap = s.pcap := rfl
@[simp] theorem State.setCtx_tcap (s : State) (n k : Nat) (x : Ctx) : (s.setCtx n k x).tcap = s.tcap := rfl
@[simp] theorem State.setCtx_powerLow (s : State) (n k : Nat) (x : Ctx) : (s.setCtx n k x).powerLow = s.powerLow := rfl
@[simp] theorem State.setCtx_thermAt (s : State) (n k : Nat) (x : Ctx) : (s.setCtx n k x).thermAt = s.thermAt := rfl
@[simp] theorem State.setCtx_switchAt (s : State) (n k : Nat) (x : Ctx) : (s.setCtx n k x).switchAt = s.switchAt := rfl
@[simp] theorem State.setCtx_pllOff (s : State) (n k : Nat) (x : Ctx) : (s.setCtx n k x).pllOff = s.pllOff := rfl
@[simp] theorem State.setCtx_flash (s : State) (n k : Nat) (x : Ctx) : (s.setCtx n k x).flash = s.flash := rfl
@[simp] theorem State.setCtx_flOp (s : State) (n k : Nat) (x : Ctx) : (s.setCtx n k x).flOp = s.flOp := rfl
@[simp] theorem State.setCtx_flashBad (s : State) (n k : Nat) (x : Ctx) : (s.setCtx n k x).flashBad = s.flashBad := rfl
@[simp] theorem State.setCtx_uartTx (s : State) (n k : Nat) (x : Ctx) : (s.setCtx n k x).uartTx = s.uartTx := rfl
@[simp] theorem State.setCtx_uartAt (s : State) (n k : Nat) (x : Ctx) : (s.setCtx n k x).uartAt = s.uartAt := rfl
@[simp] theorem State.setCtx_uartRx (s : State) (n k : Nat) (x : Ctx) : (s.setCtx n k x).uartRx = s.uartRx := rfl
@[simp] theorem State.setCtx_mctpAns (s : State) (n k : Nat) (x : Ctx) : (s.setCtx n k x).mctpAns = s.mctpAns := rfl
@[simp] theorem State.setCtx_fetched (s : State) (n k : Nat) (x : Ctx) : (s.setCtx n k x).fetched = s.fetched := rfl
@[simp] theorem State.setCtx_fuseKey (s : State) (n k : Nat) (x : Ctx) : (s.setCtx n k x).fuseKey = s.fuseKey := rfl
@[simp] theorem State.setCtx_fuseRoot (s : State) (n k : Nat) (x : Ctx) : (s.setCtx n k x).fuseRoot = s.fuseRoot := rfl
@[simp] theorem State.setCtx_vendorRoot (s : State) (n k : Nat) (x : Ctx) : (s.setCtx n k x).vendorRoot = s.vendorRoot := rfl
@[simp] theorem State.setCtx_imgRegs (s : State) (n k : Nat) (x : Ctx) : (s.setCtx n k x).imgRegs = s.imgRegs := rfl
@[simp] theorem State.setCtx_slotUsed (s : State) (n k : Nat) (x : Ctx) : (s.setCtx n k x).slotUsed = s.slotUsed := rfl
@[simp] theorem State.setCtx_recon (s : State) (n k : Nat) (x : Ctx) : (s.setCtx n k x).recon = s.recon := rfl
@[simp] theorem State.setCtx_bar2 (s : State) (n k : Nat) (x : Ctx) : (s.setCtx n k x).bar2 = s.bar2 := rfl
@[simp] theorem State.setCtx_tampLevel (s : State) (n k : Nat) (x : Ctx) : (s.setCtx n k x).tampLevel = s.tampLevel := rfl
@[simp] theorem State.setCtx_fab (s : State) (n k : Nat) (x : Ctx) : (s.setCtx n k x).fab = s.fab := rfl

@[simp] theorem State.setReg_pending (s : State) (r : Reg) (v : Word) : (s.setReg r v).pending = s.pending := rfl
@[simp] theorem State.setReg_free (s : State) (r : Reg) (v : Word) : (s.setReg r v).free = s.free := rfl
@[simp] theorem State.setReg_now (s : State) (r : Reg) (v : Word) : (s.setReg r v).now = s.now := rfl
@[simp] theorem State.setReg_mem (s : State) (r : Reg) (v : Word) : (s.setReg r v).mem = s.mem := rfl
@[simp] theorem State.setReg_tcms (s : State) (r : Reg) (v : Word) : (s.setReg r v).tcms = s.tcms := rfl
@[simp] theorem State.setReg_cores (s : State) (r : Reg) (v : Word) : (s.setReg r v).cores = s.cores := rfl
@[simp] theorem State.setReg_cbuf (s : State) (r : Reg) (v : Word) : (s.setReg r v).cbuf = s.cbuf := rfl
@[simp] theorem State.setReg_cfg (s : State) (r : Reg) (v : Word) : (s.setReg r v).cfg = s.cfg := rfl
@[simp] theorem State.setReg_events (s : State) (r : Reg) (v : Word) : (s.setReg r v).events = s.events := rfl
@[simp] theorem State.setReg_egr (s : State) (r : Reg) (v : Word) : (s.setReg r v).egr = s.egr := rfl
@[simp] theorem State.setReg_queues (s : State) (r : Reg) (v : Word) : (s.setReg r v).queues = s.queues := rfl
@[simp] theorem State.setReg_slots (s : State) (r : Reg) (v : Word) : (s.setReg r v).slots = s.slots := rfl
@[simp] theorem State.setReg_xq (s : State) (r : Reg) (v : Word) : (s.setReg r v).xq = s.xq := rfl
@[simp] theorem State.setReg_reqNo (s : State) (r : Reg) (v : Word) : (s.setReg r v).reqNo = s.reqNo := rfl
@[simp] theorem State.setReg_srcLast (s : State) (r : Reg) (v : Word) : (s.setReg r v).srcLast = s.srcLast := rfl
@[simp] theorem State.setReg_srcLevel (s : State) (r : Reg) (v : Word) : (s.setReg r v).srcLevel = s.srcLevel := rfl
@[simp] theorem State.setReg_xlost (s : State) (r : Reg) (v : Word) : (s.setReg r v).xlost = s.xlost := rfl
@[simp] theorem State.setReg_rpLost (s : State) (r : Reg) (v : Word) : (s.setReg r v).rpLost = s.rpLost := rfl
@[simp] theorem State.setReg_rdgStale (s : State) (r : Reg) (v : Word) : (s.setReg r v).rdgStale = s.rdgStale := rfl
@[simp] theorem State.setReg_shadow (s : State) (r : Reg) (v : Word) : (s.setReg r v).shadow = s.shadow := rfl
@[simp] theorem State.setReg_tx (s : State) (r : Reg) (v : Word) : (s.setReg r v).tx = s.tx := rfl
@[simp] theorem State.setReg_loop (s : State) (r : Reg) (v : Word) : (s.setReg r v).loop = s.loop := rfl
@[simp] theorem State.setReg_cdlReq (s : State) (r : Reg) (v : Word) : (s.setReg r v).cdlReq = s.cdlReq := rfl
@[simp] theorem State.setReg_plotCache (s : State) (r : Reg) (v : Word) : (s.setReg r v).plotCache = s.plotCache := rfl
@[simp] theorem State.setReg_ownMap (s : State) (r : Reg) (v : Word) : (s.setReg r v).ownMap = s.ownMap := rfl
@[simp] theorem State.setReg_registrar (s : State) (r : Reg) (v : Word) : (s.setReg r v).registrar = s.registrar := rfl
@[simp] theorem State.setReg_nodes (s : State) (r : Reg) (v : Word) : (s.setReg r v).nodes = s.nodes := rfl
@[simp] theorem State.setReg_forwards (s : State) (r : Reg) (v : Word) : (s.setReg r v).forwards = s.forwards := rfl
@[simp] theorem State.setReg_xout (s : State) (r : Reg) (v : Word) : (s.setReg r v).xout = s.xout := rfl
@[simp] theorem State.setReg_lastPick (s : State) (r : Reg) (v : Word) : (s.setReg r v).lastPick = s.lastPick := rfl
@[simp] theorem State.setReg_posted (s : State) (r : Reg) (v : Word) : (s.setReg r v).posted = s.posted := rfl
@[simp] theorem State.setReg_sealing (s : State) (r : Reg) (v : Word) : (s.setReg r v).sealing = s.sealing := rfl
@[simp] theorem State.setReg_staged (s : State) (r : Reg) (v : Word) : (s.setReg r v).staged = s.staged := rfl
@[simp] theorem State.setReg_salt (s : State) (r : Reg) (v : Word) : (s.setReg r v).salt = s.salt := rfl
@[simp] theorem State.setReg_kq (s : State) (r : Reg) (v : Word) : (s.setReg r v).kq = s.kq := rfl
@[simp] theorem State.setReg_kNo (s : State) (r : Reg) (v : Word) : (s.setReg r v).kNo = s.kNo := rfl
@[simp] theorem State.setReg_kdone (s : State) (r : Reg) (v : Word) : (s.setReg r v).kdone = s.kdone := rfl
@[simp] theorem State.setReg_kbusy (s : State) (r : Reg) (v : Word) : (s.setReg r v).kbusy = s.kbusy := rfl
@[simp] theorem State.setReg_keys (s : State) (r : Reg) (v : Word) : (s.setReg r v).keys = s.keys := rfl
@[simp] theorem State.setReg_kgen (s : State) (r : Reg) (v : Word) : (s.setReg r v).kgen = s.kgen := rfl
@[simp] theorem State.setReg_drbgN (s : State) (r : Reg) (v : Word) : (s.setReg r v).drbgN = s.drbgN := rfl
@[simp] theorem State.setReg_devKey (s : State) (r : Reg) (v : Word) : (s.setReg r v).devKey = s.devKey := rfl
@[simp] theorem State.setReg_cstore (s : State) (r : Reg) (v : Word) : (s.setReg r v).cstore = s.cstore := rfl
@[simp] theorem State.setReg_csActive (s : State) (r : Reg) (v : Word) : (s.setReg r v).csActive = s.csActive := rfl
@[simp] theorem State.setReg_carts (s : State) (r : Reg) (v : Word) : (s.setReg r v).carts = s.carts := rfl
@[simp] theorem State.setReg_jslot (s : State) (r : Reg) (v : Word) : (s.setReg r v).jslot = s.jslot := rfl
@[simp] theorem State.setReg_jcAppends (s : State) (r : Reg) (v : Word) : (s.setReg r v).jcAppends = s.jcAppends := rfl
@[simp] theorem State.setReg_jcLast (s : State) (r : Reg) (v : Word) : (s.setReg r v).jcLast = s.jcLast := rfl
@[simp] theorem State.setReg_jcQuiet (s : State) (r : Reg) (v : Word) : (s.setReg r v).jcQuiet = s.jcQuiet := rfl
@[simp] theorem State.setReg_cartRoot (s : State) (r : Reg) (v : Word) : (s.setReg r v).cartRoot = s.cartRoot := rfl
@[simp] theorem State.setReg_revoked (s : State) (r : Reg) (v : Word) : (s.setReg r v).revoked = s.revoked := rfl
@[simp] theorem State.setReg_lanes (s : State) (r : Reg) (v : Word) : (s.setReg r v).lanes = s.lanes := rfl
@[simp] theorem State.setReg_parseQ (s : State) (r : Reg) (v : Word) : (s.setReg r v).parseQ = s.parseQ := rfl
@[simp] theorem State.setReg_pbank (s : State) (r : Reg) (v : Word) : (s.setReg r v).pbank = s.pbank := rfl
@[simp] theorem State.setReg_fcache (s : State) (r : Reg) (v : Word) : (s.setReg r v).fcache = s.fcache := rfl
@[simp] theorem State.setReg_fbad (s : State) (r : Reg) (v : Word) : (s.setReg r v).fbad = s.fbad := rfl
@[simp] theorem State.setReg_degPrio (s : State) (r : Reg) (v : Word) : (s.setReg r v).degPrio = s.degPrio := rfl
@[simp] theorem State.setReg_hostHeld (s : State) (r : Reg) (v : Word) : (s.setReg r v).hostHeld = s.hostHeld := rfl
@[simp] theorem State.setReg_heat (s : State) (r : Reg) (v : Word) : (s.setReg r v).heat = s.heat := rfl
@[simp] theorem State.setReg_heatAt (s : State) (r : Reg) (v : Word) : (s.setReg r v).heatAt = s.heatAt := rfl
@[simp] theorem State.setReg_plotStat (s : State) (r : Reg) (v : Word) : (s.setReg r v).plotStat = s.plotStat := rfl
@[simp] theorem State.setReg_offers (s : State) (r : Reg) (v : Word) : (s.setReg r v).offers = s.offers := rfl
@[simp] theorem State.setReg_pools (s : State) (r : Reg) (v : Word) : (s.setReg r v).pools = s.pools := rfl
@[simp] theorem State.setReg_ovf (s : State) (r : Reg) (v : Word) : (s.setReg r v).ovf = s.ovf := rfl
@[simp] theorem State.setReg_pleCand (s : State) (r : Reg) (v : Word) : (s.setReg r v).pleCand = s.pleCand := rfl
@[simp] theorem State.setReg_moveAt (s : State) (r : Reg) (v : Word) : (s.setReg r v).moveAt = s.moveAt := rfl
@[simp] theorem State.setReg_fixed (s : State) (r : Reg) (v : Word) : (s.setReg r v).fixed = s.fixed := rfl
@[simp] theorem State.setReg_scrubAt (s : State) (r : Reg) (v : Word) : (s.setReg r v).scrubAt = s.scrubAt := rfl
@[simp] theorem State.setReg_rowFix (s : State) (r : Reg) (v : Word) : (s.setReg r v).rowFix = s.rowFix := rfl
@[simp] theorem State.setReg_rowBad (s : State) (r : Reg) (v : Word) : (s.setReg r v).rowBad = s.rowBad := rfl
@[simp] theorem State.setReg_ceAt (s : State) (r : Reg) (v : Word) : (s.setReg r v).ceAt = s.ceAt := rfl
@[simp] theorem State.setReg_cal (s : State) (r : Reg) (v : Word) : (s.setReg r v).cal = s.cal := rfl
@[simp] theorem State.setReg_region (s : State) (r : Reg) (v : Word) : (s.setReg r v).region = s.region := rfl
@[simp] theorem State.setReg_ldClear (s : State) (r : Reg) (v : Word) : (s.setReg r v).ldClear = s.ldClear := rfl
@[simp] theorem State.setReg_ldFuse (s : State) (r : Reg) (v : Word) : (s.setReg r v).ldFuse = s.ldFuse := rfl
@[simp] theorem State.setReg_porLow (s : State) (r : Reg) (v : Word) : (s.setReg r v).porLow = s.porLow := rfl
@[simp] theorem State.setReg_ref100 (s : State) (r : Reg) (v : Word) : (s.setReg r v).ref100 = s.ref100 := rfl
@[simp] theorem State.setReg_wrstLow (s : State) (r : Reg) (v : Word) : (s.setReg r v).wrstLow = s.wrstLow := rfl
@[simp] theorem State.setReg_pinLockdown (s : State) (r : Reg) (v : Word) : (s.setReg r v).pinLockdown = s.pinLockdown := rfl
@[simp] theorem State.setReg_pinThermtrip (s : State) (r : Reg) (v : Word) : (s.setReg r v).pinThermtrip = s.pinThermtrip := rfl
@[simp] theorem State.setReg_retired (s : State) (r : Reg) (v : Word) : (s.setReg r v).retired = s.retired := rfl
@[simp] theorem State.setReg_retLog (s : State) (r : Reg) (v : Word) : (s.setReg r v).retLog = s.retLog := rfl
@[simp] theorem State.setReg_links (s : State) (r : Reg) (v : Word) : (s.setReg r v).links = s.links := rfl
@[simp] theorem State.setReg_linkQui (s : State) (r : Reg) (v : Word) : (s.setReg r v).linkQui = s.linkQui := rfl
@[simp] theorem State.setReg_joinDue (s : State) (r : Reg) (v : Word) : (s.setReg r v).joinDue = s.joinDue := rfl
@[simp] theorem State.setReg_echoes (s : State) (r : Reg) (v : Word) : (s.setReg r v).echoes = s.echoes := rfl
@[simp] theorem State.setReg_depHist (s : State) (r : Reg) (v : Word) : (s.setReg r v).depHist = s.depHist := rfl
@[simp] theorem State.setReg_lastIrq (s : State) (r : Reg) (v : Word) : (s.setReg r v).lastIrq = s.lastIrq := rfl
@[simp] theorem State.setReg_haltAt (s : State) (r : Reg) (v : Word) : (s.setReg r v).haltAt = s.haltAt := rfl
@[simp] theorem State.setReg_regOut (s : State) (r : Reg) (v : Word) : (s.setReg r v).regOut = s.regOut := rfl
@[simp] theorem State.setReg_regErr (s : State) (r : Reg) (v : Word) : (s.setReg r v).regErr = s.regErr := rfl
@[simp] theorem State.setReg_lagged (s : State) (r : Reg) (v : Word) : (s.setReg r v).lagged = s.lagged := rfl
@[simp] theorem State.setReg_ageOver (s : State) (r : Reg) (v : Word) : (s.setReg r v).ageOver = s.ageOver := rfl
@[simp] theorem State.setReg_ageHist (s : State) (r : Reg) (v : Word) : (s.setReg r v).ageHist = s.ageHist := rfl
@[simp] theorem State.setReg_ageAt (s : State) (r : Reg) (v : Word) : (s.setReg r v).ageAt = s.ageAt := rfl
@[simp] theorem State.setReg_mons (s : State) (r : Reg) (v : Word) : (s.setReg r v).mons = s.mons := rfl
@[simp] theorem State.setReg_selfTest (s : State) (r : Reg) (v : Word) : (s.setReg r v).selfTest = s.selfTest := rfl
@[simp] theorem State.setReg_avsTarget (s : State) (r : Reg) (v : Word) : (s.setReg r v).avsTarget = s.avsTarget := rfl
@[simp] theorem State.setReg_avsAsk (s : State) (r : Reg) (v : Word) : (s.setReg r v).avsAsk = s.avsAsk := rfl
@[simp] theorem State.setReg_avsHold (s : State) (r : Reg) (v : Word) : (s.setReg r v).avsHold = s.avsHold := rfl
@[simp] theorem State.setReg_avsOff (s : State) (r : Reg) (v : Word) : (s.setReg r v).avsOff = s.avsOff := rfl
@[simp] theorem State.setReg_pcap (s : State) (r : Reg) (v : Word) : (s.setReg r v).pcap = s.pcap := rfl
@[simp] theorem State.setReg_tcap (s : State) (r : Reg) (v : Word) : (s.setReg r v).tcap = s.tcap := rfl
@[simp] theorem State.setReg_powerLow (s : State) (r : Reg) (v : Word) : (s.setReg r v).powerLow = s.powerLow := rfl
@[simp] theorem State.setReg_thermAt (s : State) (r : Reg) (v : Word) : (s.setReg r v).thermAt = s.thermAt := rfl
@[simp] theorem State.setReg_switchAt (s : State) (r : Reg) (v : Word) : (s.setReg r v).switchAt = s.switchAt := rfl
@[simp] theorem State.setReg_pllOff (s : State) (r : Reg) (v : Word) : (s.setReg r v).pllOff = s.pllOff := rfl
@[simp] theorem State.setReg_flash (s : State) (r : Reg) (v : Word) : (s.setReg r v).flash = s.flash := rfl
@[simp] theorem State.setReg_flOp (s : State) (r : Reg) (v : Word) : (s.setReg r v).flOp = s.flOp := rfl
@[simp] theorem State.setReg_flashBad (s : State) (r : Reg) (v : Word) : (s.setReg r v).flashBad = s.flashBad := rfl
@[simp] theorem State.setReg_uartTx (s : State) (r : Reg) (v : Word) : (s.setReg r v).uartTx = s.uartTx := rfl
@[simp] theorem State.setReg_uartAt (s : State) (r : Reg) (v : Word) : (s.setReg r v).uartAt = s.uartAt := rfl
@[simp] theorem State.setReg_uartRx (s : State) (r : Reg) (v : Word) : (s.setReg r v).uartRx = s.uartRx := rfl
@[simp] theorem State.setReg_mctpAns (s : State) (r : Reg) (v : Word) : (s.setReg r v).mctpAns = s.mctpAns := rfl
@[simp] theorem State.setReg_fetched (s : State) (r : Reg) (v : Word) : (s.setReg r v).fetched = s.fetched := rfl
@[simp] theorem State.setReg_fuseKey (s : State) (r : Reg) (v : Word) : (s.setReg r v).fuseKey = s.fuseKey := rfl
@[simp] theorem State.setReg_fuseRoot (s : State) (r : Reg) (v : Word) : (s.setReg r v).fuseRoot = s.fuseRoot := rfl
@[simp] theorem State.setReg_vendorRoot (s : State) (r : Reg) (v : Word) : (s.setReg r v).vendorRoot = s.vendorRoot := rfl
@[simp] theorem State.setReg_imgRegs (s : State) (r : Reg) (v : Word) : (s.setReg r v).imgRegs = s.imgRegs := rfl
@[simp] theorem State.setReg_slotUsed (s : State) (r : Reg) (v : Word) : (s.setReg r v).slotUsed = s.slotUsed := rfl
@[simp] theorem State.setReg_recon (s : State) (r : Reg) (v : Word) : (s.setReg r v).recon = s.recon := rfl
@[simp] theorem State.setReg_bar2 (s : State) (r : Reg) (v : Word) : (s.setReg r v).bar2 = s.bar2 := rfl
@[simp] theorem State.setReg_tampLevel (s : State) (r : Reg) (v : Word) : (s.setReg r v).tampLevel = s.tampLevel := rfl
@[simp] theorem State.setReg_fab (s : State) (r : Reg) (v : Word) : (s.setReg r v).fab = s.fab := rfl

@[simp] theorem State.setRf_pending (s : State) (r : Reg) (f : Fd) (v : Nat) : (s.setRf r f v).pending = s.pending := rfl
@[simp] theorem State.setRf_free (s : State) (r : Reg) (f : Fd) (v : Nat) : (s.setRf r f v).free = s.free := rfl
@[simp] theorem State.setRf_now (s : State) (r : Reg) (f : Fd) (v : Nat) : (s.setRf r f v).now = s.now := rfl
@[simp] theorem State.setRf_mem (s : State) (r : Reg) (f : Fd) (v : Nat) : (s.setRf r f v).mem = s.mem := rfl
@[simp] theorem State.setRf_tcms (s : State) (r : Reg) (f : Fd) (v : Nat) : (s.setRf r f v).tcms = s.tcms := rfl
@[simp] theorem State.setRf_cores (s : State) (r : Reg) (f : Fd) (v : Nat) : (s.setRf r f v).cores = s.cores := rfl
@[simp] theorem State.setRf_cbuf (s : State) (r : Reg) (f : Fd) (v : Nat) : (s.setRf r f v).cbuf = s.cbuf := rfl
@[simp] theorem State.setRf_cfg (s : State) (r : Reg) (f : Fd) (v : Nat) : (s.setRf r f v).cfg = s.cfg := rfl
@[simp] theorem State.setRf_events (s : State) (r : Reg) (f : Fd) (v : Nat) : (s.setRf r f v).events = s.events := rfl
@[simp] theorem State.setRf_egr (s : State) (r : Reg) (f : Fd) (v : Nat) : (s.setRf r f v).egr = s.egr := rfl
@[simp] theorem State.setRf_queues (s : State) (r : Reg) (f : Fd) (v : Nat) : (s.setRf r f v).queues = s.queues := rfl
@[simp] theorem State.setRf_slots (s : State) (r : Reg) (f : Fd) (v : Nat) : (s.setRf r f v).slots = s.slots := rfl
@[simp] theorem State.setRf_xq (s : State) (r : Reg) (f : Fd) (v : Nat) : (s.setRf r f v).xq = s.xq := rfl
@[simp] theorem State.setRf_reqNo (s : State) (r : Reg) (f : Fd) (v : Nat) : (s.setRf r f v).reqNo = s.reqNo := rfl
@[simp] theorem State.setRf_srcLast (s : State) (r : Reg) (f : Fd) (v : Nat) : (s.setRf r f v).srcLast = s.srcLast := rfl
@[simp] theorem State.setRf_srcLevel (s : State) (r : Reg) (f : Fd) (v : Nat) : (s.setRf r f v).srcLevel = s.srcLevel := rfl
@[simp] theorem State.setRf_xlost (s : State) (r : Reg) (f : Fd) (v : Nat) : (s.setRf r f v).xlost = s.xlost := rfl
@[simp] theorem State.setRf_rpLost (s : State) (r : Reg) (f : Fd) (v : Nat) : (s.setRf r f v).rpLost = s.rpLost := rfl
@[simp] theorem State.setRf_rdgStale (s : State) (r : Reg) (f : Fd) (v : Nat) : (s.setRf r f v).rdgStale = s.rdgStale := rfl
@[simp] theorem State.setRf_shadow (s : State) (r : Reg) (f : Fd) (v : Nat) : (s.setRf r f v).shadow = s.shadow := rfl
@[simp] theorem State.setRf_tx (s : State) (r : Reg) (f : Fd) (v : Nat) : (s.setRf r f v).tx = s.tx := rfl
@[simp] theorem State.setRf_loop (s : State) (r : Reg) (f : Fd) (v : Nat) : (s.setRf r f v).loop = s.loop := rfl
@[simp] theorem State.setRf_cdlReq (s : State) (r : Reg) (f : Fd) (v : Nat) : (s.setRf r f v).cdlReq = s.cdlReq := rfl
@[simp] theorem State.setRf_plotCache (s : State) (r : Reg) (f : Fd) (v : Nat) : (s.setRf r f v).plotCache = s.plotCache := rfl
@[simp] theorem State.setRf_ownMap (s : State) (r : Reg) (f : Fd) (v : Nat) : (s.setRf r f v).ownMap = s.ownMap := rfl
@[simp] theorem State.setRf_registrar (s : State) (r : Reg) (f : Fd) (v : Nat) : (s.setRf r f v).registrar = s.registrar := rfl
@[simp] theorem State.setRf_nodes (s : State) (r : Reg) (f : Fd) (v : Nat) : (s.setRf r f v).nodes = s.nodes := rfl
@[simp] theorem State.setRf_forwards (s : State) (r : Reg) (f : Fd) (v : Nat) : (s.setRf r f v).forwards = s.forwards := rfl
@[simp] theorem State.setRf_xout (s : State) (r : Reg) (f : Fd) (v : Nat) : (s.setRf r f v).xout = s.xout := rfl
@[simp] theorem State.setRf_lastPick (s : State) (r : Reg) (f : Fd) (v : Nat) : (s.setRf r f v).lastPick = s.lastPick := rfl
@[simp] theorem State.setRf_posted (s : State) (r : Reg) (f : Fd) (v : Nat) : (s.setRf r f v).posted = s.posted := rfl
@[simp] theorem State.setRf_sealing (s : State) (r : Reg) (f : Fd) (v : Nat) : (s.setRf r f v).sealing = s.sealing := rfl
@[simp] theorem State.setRf_staged (s : State) (r : Reg) (f : Fd) (v : Nat) : (s.setRf r f v).staged = s.staged := rfl
@[simp] theorem State.setRf_salt (s : State) (r : Reg) (f : Fd) (v : Nat) : (s.setRf r f v).salt = s.salt := rfl
@[simp] theorem State.setRf_kq (s : State) (r : Reg) (f : Fd) (v : Nat) : (s.setRf r f v).kq = s.kq := rfl
@[simp] theorem State.setRf_kNo (s : State) (r : Reg) (f : Fd) (v : Nat) : (s.setRf r f v).kNo = s.kNo := rfl
@[simp] theorem State.setRf_kdone (s : State) (r : Reg) (f : Fd) (v : Nat) : (s.setRf r f v).kdone = s.kdone := rfl
@[simp] theorem State.setRf_kbusy (s : State) (r : Reg) (f : Fd) (v : Nat) : (s.setRf r f v).kbusy = s.kbusy := rfl
@[simp] theorem State.setRf_keys (s : State) (r : Reg) (f : Fd) (v : Nat) : (s.setRf r f v).keys = s.keys := rfl
@[simp] theorem State.setRf_kgen (s : State) (r : Reg) (f : Fd) (v : Nat) : (s.setRf r f v).kgen = s.kgen := rfl
@[simp] theorem State.setRf_drbgN (s : State) (r : Reg) (f : Fd) (v : Nat) : (s.setRf r f v).drbgN = s.drbgN := rfl
@[simp] theorem State.setRf_devKey (s : State) (r : Reg) (f : Fd) (v : Nat) : (s.setRf r f v).devKey = s.devKey := rfl
@[simp] theorem State.setRf_cstore (s : State) (r : Reg) (f : Fd) (v : Nat) : (s.setRf r f v).cstore = s.cstore := rfl
@[simp] theorem State.setRf_csActive (s : State) (r : Reg) (f : Fd) (v : Nat) : (s.setRf r f v).csActive = s.csActive := rfl
@[simp] theorem State.setRf_carts (s : State) (r : Reg) (f : Fd) (v : Nat) : (s.setRf r f v).carts = s.carts := rfl
@[simp] theorem State.setRf_jslot (s : State) (r : Reg) (f : Fd) (v : Nat) : (s.setRf r f v).jslot = s.jslot := rfl
@[simp] theorem State.setRf_jcAppends (s : State) (r : Reg) (f : Fd) (v : Nat) : (s.setRf r f v).jcAppends = s.jcAppends := rfl
@[simp] theorem State.setRf_jcLast (s : State) (r : Reg) (f : Fd) (v : Nat) : (s.setRf r f v).jcLast = s.jcLast := rfl
@[simp] theorem State.setRf_jcQuiet (s : State) (r : Reg) (f : Fd) (v : Nat) : (s.setRf r f v).jcQuiet = s.jcQuiet := rfl
@[simp] theorem State.setRf_cartRoot (s : State) (r : Reg) (f : Fd) (v : Nat) : (s.setRf r f v).cartRoot = s.cartRoot := rfl
@[simp] theorem State.setRf_revoked (s : State) (r : Reg) (f : Fd) (v : Nat) : (s.setRf r f v).revoked = s.revoked := rfl
@[simp] theorem State.setRf_lanes (s : State) (r : Reg) (f : Fd) (v : Nat) : (s.setRf r f v).lanes = s.lanes := rfl
@[simp] theorem State.setRf_parseQ (s : State) (r : Reg) (f : Fd) (v : Nat) : (s.setRf r f v).parseQ = s.parseQ := rfl
@[simp] theorem State.setRf_pbank (s : State) (r : Reg) (f : Fd) (v : Nat) : (s.setRf r f v).pbank = s.pbank := rfl
@[simp] theorem State.setRf_fcache (s : State) (r : Reg) (f : Fd) (v : Nat) : (s.setRf r f v).fcache = s.fcache := rfl
@[simp] theorem State.setRf_fbad (s : State) (r : Reg) (f : Fd) (v : Nat) : (s.setRf r f v).fbad = s.fbad := rfl
@[simp] theorem State.setRf_degPrio (s : State) (r : Reg) (f : Fd) (v : Nat) : (s.setRf r f v).degPrio = s.degPrio := rfl
@[simp] theorem State.setRf_hostHeld (s : State) (r : Reg) (f : Fd) (v : Nat) : (s.setRf r f v).hostHeld = s.hostHeld := rfl
@[simp] theorem State.setRf_heat (s : State) (r : Reg) (f : Fd) (v : Nat) : (s.setRf r f v).heat = s.heat := rfl
@[simp] theorem State.setRf_heatAt (s : State) (r : Reg) (f : Fd) (v : Nat) : (s.setRf r f v).heatAt = s.heatAt := rfl
@[simp] theorem State.setRf_plotStat (s : State) (r : Reg) (f : Fd) (v : Nat) : (s.setRf r f v).plotStat = s.plotStat := rfl
@[simp] theorem State.setRf_offers (s : State) (r : Reg) (f : Fd) (v : Nat) : (s.setRf r f v).offers = s.offers := rfl
@[simp] theorem State.setRf_pools (s : State) (r : Reg) (f : Fd) (v : Nat) : (s.setRf r f v).pools = s.pools := rfl
@[simp] theorem State.setRf_ovf (s : State) (r : Reg) (f : Fd) (v : Nat) : (s.setRf r f v).ovf = s.ovf := rfl
@[simp] theorem State.setRf_pleCand (s : State) (r : Reg) (f : Fd) (v : Nat) : (s.setRf r f v).pleCand = s.pleCand := rfl
@[simp] theorem State.setRf_moveAt (s : State) (r : Reg) (f : Fd) (v : Nat) : (s.setRf r f v).moveAt = s.moveAt := rfl
@[simp] theorem State.setRf_fixed (s : State) (r : Reg) (f : Fd) (v : Nat) : (s.setRf r f v).fixed = s.fixed := rfl
@[simp] theorem State.setRf_scrubAt (s : State) (r : Reg) (f : Fd) (v : Nat) : (s.setRf r f v).scrubAt = s.scrubAt := rfl
@[simp] theorem State.setRf_rowFix (s : State) (r : Reg) (f : Fd) (v : Nat) : (s.setRf r f v).rowFix = s.rowFix := rfl
@[simp] theorem State.setRf_rowBad (s : State) (r : Reg) (f : Fd) (v : Nat) : (s.setRf r f v).rowBad = s.rowBad := rfl
@[simp] theorem State.setRf_ceAt (s : State) (r : Reg) (f : Fd) (v : Nat) : (s.setRf r f v).ceAt = s.ceAt := rfl
@[simp] theorem State.setRf_cal (s : State) (r : Reg) (f : Fd) (v : Nat) : (s.setRf r f v).cal = s.cal := rfl
@[simp] theorem State.setRf_region (s : State) (r : Reg) (f : Fd) (v : Nat) : (s.setRf r f v).region = s.region := rfl
@[simp] theorem State.setRf_ldClear (s : State) (r : Reg) (f : Fd) (v : Nat) : (s.setRf r f v).ldClear = s.ldClear := rfl
@[simp] theorem State.setRf_ldFuse (s : State) (r : Reg) (f : Fd) (v : Nat) : (s.setRf r f v).ldFuse = s.ldFuse := rfl
@[simp] theorem State.setRf_porLow (s : State) (r : Reg) (f : Fd) (v : Nat) : (s.setRf r f v).porLow = s.porLow := rfl
@[simp] theorem State.setRf_ref100 (s : State) (r : Reg) (f : Fd) (v : Nat) : (s.setRf r f v).ref100 = s.ref100 := rfl
@[simp] theorem State.setRf_wrstLow (s : State) (r : Reg) (f : Fd) (v : Nat) : (s.setRf r f v).wrstLow = s.wrstLow := rfl
@[simp] theorem State.setRf_pinLockdown (s : State) (r : Reg) (f : Fd) (v : Nat) : (s.setRf r f v).pinLockdown = s.pinLockdown := rfl
@[simp] theorem State.setRf_pinThermtrip (s : State) (r : Reg) (f : Fd) (v : Nat) : (s.setRf r f v).pinThermtrip = s.pinThermtrip := rfl
@[simp] theorem State.setRf_retired (s : State) (r : Reg) (f : Fd) (v : Nat) : (s.setRf r f v).retired = s.retired := rfl
@[simp] theorem State.setRf_retLog (s : State) (r : Reg) (f : Fd) (v : Nat) : (s.setRf r f v).retLog = s.retLog := rfl
@[simp] theorem State.setRf_links (s : State) (r : Reg) (f : Fd) (v : Nat) : (s.setRf r f v).links = s.links := rfl
@[simp] theorem State.setRf_linkQui (s : State) (r : Reg) (f : Fd) (v : Nat) : (s.setRf r f v).linkQui = s.linkQui := rfl
@[simp] theorem State.setRf_joinDue (s : State) (r : Reg) (f : Fd) (v : Nat) : (s.setRf r f v).joinDue = s.joinDue := rfl
@[simp] theorem State.setRf_echoes (s : State) (r : Reg) (f : Fd) (v : Nat) : (s.setRf r f v).echoes = s.echoes := rfl
@[simp] theorem State.setRf_depHist (s : State) (r : Reg) (f : Fd) (v : Nat) : (s.setRf r f v).depHist = s.depHist := rfl
@[simp] theorem State.setRf_lastIrq (s : State) (r : Reg) (f : Fd) (v : Nat) : (s.setRf r f v).lastIrq = s.lastIrq := rfl
@[simp] theorem State.setRf_haltAt (s : State) (r : Reg) (f : Fd) (v : Nat) : (s.setRf r f v).haltAt = s.haltAt := rfl
@[simp] theorem State.setRf_regOut (s : State) (r : Reg) (f : Fd) (v : Nat) : (s.setRf r f v).regOut = s.regOut := rfl
@[simp] theorem State.setRf_regErr (s : State) (r : Reg) (f : Fd) (v : Nat) : (s.setRf r f v).regErr = s.regErr := rfl
@[simp] theorem State.setRf_lagged (s : State) (r : Reg) (f : Fd) (v : Nat) : (s.setRf r f v).lagged = s.lagged := rfl
@[simp] theorem State.setRf_ageOver (s : State) (r : Reg) (f : Fd) (v : Nat) : (s.setRf r f v).ageOver = s.ageOver := rfl
@[simp] theorem State.setRf_ageHist (s : State) (r : Reg) (f : Fd) (v : Nat) : (s.setRf r f v).ageHist = s.ageHist := rfl
@[simp] theorem State.setRf_ageAt (s : State) (r : Reg) (f : Fd) (v : Nat) : (s.setRf r f v).ageAt = s.ageAt := rfl
@[simp] theorem State.setRf_mons (s : State) (r : Reg) (f : Fd) (v : Nat) : (s.setRf r f v).mons = s.mons := rfl
@[simp] theorem State.setRf_selfTest (s : State) (r : Reg) (f : Fd) (v : Nat) : (s.setRf r f v).selfTest = s.selfTest := rfl
@[simp] theorem State.setRf_avsTarget (s : State) (r : Reg) (f : Fd) (v : Nat) : (s.setRf r f v).avsTarget = s.avsTarget := rfl
@[simp] theorem State.setRf_avsAsk (s : State) (r : Reg) (f : Fd) (v : Nat) : (s.setRf r f v).avsAsk = s.avsAsk := rfl
@[simp] theorem State.setRf_avsHold (s : State) (r : Reg) (f : Fd) (v : Nat) : (s.setRf r f v).avsHold = s.avsHold := rfl
@[simp] theorem State.setRf_avsOff (s : State) (r : Reg) (f : Fd) (v : Nat) : (s.setRf r f v).avsOff = s.avsOff := rfl
@[simp] theorem State.setRf_pcap (s : State) (r : Reg) (f : Fd) (v : Nat) : (s.setRf r f v).pcap = s.pcap := rfl
@[simp] theorem State.setRf_tcap (s : State) (r : Reg) (f : Fd) (v : Nat) : (s.setRf r f v).tcap = s.tcap := rfl
@[simp] theorem State.setRf_powerLow (s : State) (r : Reg) (f : Fd) (v : Nat) : (s.setRf r f v).powerLow = s.powerLow := rfl
@[simp] theorem State.setRf_thermAt (s : State) (r : Reg) (f : Fd) (v : Nat) : (s.setRf r f v).thermAt = s.thermAt := rfl
@[simp] theorem State.setRf_switchAt (s : State) (r : Reg) (f : Fd) (v : Nat) : (s.setRf r f v).switchAt = s.switchAt := rfl
@[simp] theorem State.setRf_pllOff (s : State) (r : Reg) (f : Fd) (v : Nat) : (s.setRf r f v).pllOff = s.pllOff := rfl
@[simp] theorem State.setRf_flash (s : State) (r : Reg) (f : Fd) (v : Nat) : (s.setRf r f v).flash = s.flash := rfl
@[simp] theorem State.setRf_flOp (s : State) (r : Reg) (f : Fd) (v : Nat) : (s.setRf r f v).flOp = s.flOp := rfl
@[simp] theorem State.setRf_flashBad (s : State) (r : Reg) (f : Fd) (v : Nat) : (s.setRf r f v).flashBad = s.flashBad := rfl
@[simp] theorem State.setRf_uartTx (s : State) (r : Reg) (f : Fd) (v : Nat) : (s.setRf r f v).uartTx = s.uartTx := rfl
@[simp] theorem State.setRf_uartAt (s : State) (r : Reg) (f : Fd) (v : Nat) : (s.setRf r f v).uartAt = s.uartAt := rfl
@[simp] theorem State.setRf_uartRx (s : State) (r : Reg) (f : Fd) (v : Nat) : (s.setRf r f v).uartRx = s.uartRx := rfl
@[simp] theorem State.setRf_mctpAns (s : State) (r : Reg) (f : Fd) (v : Nat) : (s.setRf r f v).mctpAns = s.mctpAns := rfl
@[simp] theorem State.setRf_fetched (s : State) (r : Reg) (f : Fd) (v : Nat) : (s.setRf r f v).fetched = s.fetched := rfl
@[simp] theorem State.setRf_fuseKey (s : State) (r : Reg) (f : Fd) (v : Nat) : (s.setRf r f v).fuseKey = s.fuseKey := rfl
@[simp] theorem State.setRf_fuseRoot (s : State) (r : Reg) (f : Fd) (v : Nat) : (s.setRf r f v).fuseRoot = s.fuseRoot := rfl
@[simp] theorem State.setRf_vendorRoot (s : State) (r : Reg) (f : Fd) (v : Nat) : (s.setRf r f v).vendorRoot = s.vendorRoot := rfl
@[simp] theorem State.setRf_imgRegs (s : State) (r : Reg) (f : Fd) (v : Nat) : (s.setRf r f v).imgRegs = s.imgRegs := rfl
@[simp] theorem State.setRf_slotUsed (s : State) (r : Reg) (f : Fd) (v : Nat) : (s.setRf r f v).slotUsed = s.slotUsed := rfl
@[simp] theorem State.setRf_recon (s : State) (r : Reg) (f : Fd) (v : Nat) : (s.setRf r f v).recon = s.recon := rfl
@[simp] theorem State.setRf_bar2 (s : State) (r : Reg) (f : Fd) (v : Nat) : (s.setRf r f v).bar2 = s.bar2 := rfl
@[simp] theorem State.setRf_tampLevel (s : State) (r : Reg) (f : Fd) (v : Nat) : (s.setRf r f v).tampLevel = s.tampLevel := rfl
@[simp] theorem State.setRf_fab (s : State) (r : Reg) (f : Fd) (v : Nat) : (s.setRf r f v).fab = s.fab := rfl

/-! ## Updates of a core and of a context -/

@[simp] theorem Core.setSr_held (c : Core) (n : Nat) (v : Word) : (c.setSr n v).held = c.held := rfl
@[simp] theorem Core.setSr_off (c : Core) (n : Nat) (v : Word) : (c.setSr n v).off = c.off := rfl
@[simp] theorem Core.setSr_c0 (c : Core) (n : Nat) (v : Word) : (c.setSr n v).c0 = c.c0 := rfl
@[simp] theorem Core.setSr_c1 (c : Core) (n : Nat) (v : Word) : (c.setSr n v).c1 = c.c1 := rfl
@[simp] theorem Core.setSr_inUse (c : Core) (n : Nat) (v : Word) : (c.setSr n v).inUse = c.inUse := rfl
@[simp] theorem Core.setSr_bankE (c : Core) (n : Nat) (v : Word) : (c.setSr n v).bankE = c.bankE := rfl
@[simp] theorem Core.setSr_bankD (c : Core) (n : Nat) (v : Word) : (c.setSr n v).bankD = c.bankD := rfl
@[simp] theorem Core.setSr_tlb (c : Core) (n : Nat) (v : Word) : (c.setSr n v).tlb = c.tlb := rfl
@[simp] theorem Core.setSr_tlbI (c : Core) (n : Nat) (v : Word) : (c.setSr n v).tlbI = c.tlbI := rfl
@[simp] theorem Core.setSr_tlbD (c : Core) (n : Nat) (v : Word) : (c.setSr n v).tlbD = c.tlbD := rfl
@[simp] theorem Core.setSr_sb (c : Core) (n : Nat) (v : Word) : (c.setSr n v).sb = c.sb := rfl
@[simp] theorem Core.setSr_prefetch (c : Core) (n : Nat) (v : Word) : (c.setSr n v).prefetch = c.prefetch := rfl
@[simp] theorem Core.setSr_kept (c : Core) (n : Nat) (v : Word) : (c.setSr n v).kept = c.kept := rfl
@[simp] theorem Core.setSr_pace (c : Core) (n : Nat) (v : Word) : (c.setSr n v).pace = c.pace := rfl
@[simp] theorem Core.setSr_cmp (c : Core) (n : Nat) (v : Word) : (c.setSr n v).cmp = c.cmp := rfl
@[simp] theorem Core.setSr_oldCode (c : Core) (n : Nat) (v : Word) : (c.setSr n v).oldCode = c.oldCode := rfl
@[simp] theorem Core.setSr_line (c : Core) (n : Nat) (v : Word) : (c.setSr n v).line = c.line := rfl
@[simp] theorem Core.setSr_btb (c : Core) (n : Nat) (v : Word) : (c.setSr n v).btb = c.btb := rfl
@[simp] theorem Core.setSr_lines (c : Core) (n : Nat) (v : Word) : (c.setSr n v).lines = c.lines := rfl
@[simp] theorem Core.setSr_divBusy (c : Core) (n : Nat) (v : Word) : (c.setSr n v).divBusy = c.divBusy := rfl
@[simp] theorem Core.setSr_farWait (c : Core) (n : Nat) (v : Word) : (c.setSr n v).farWait = c.farWait := rfl
@[simp] theorem Core.setSr_maskSince (c : Core) (n : Nat) (v : Word) : (c.setSr n v).maskSince = c.maskSince := rfl
@[simp] theorem Core.setSr_ma (c : Core) (n : Nat) (v : Word) : (c.setSr n v).ma = c.ma := rfl
@[simp] theorem Core.setSr_openEntry (c : Core) (n : Nat) (v : Word) : (c.setSr n v).openEntry = c.openEntry := rfl
@[simp] theorem Core.setSr_csBad (c : Core) (n : Nat) (v : Word) : (c.setSr n v).csBad = c.csBad := rfl
@[simp] theorem Core.setSr_csFailed (c : Core) (n : Nat) (v : Word) : (c.setSr n v).csFailed = c.csFailed := rfl
@[simp] theorem Core.setSr_quiesced (c : Core) (n : Nat) (v : Word) : (c.setSr n v).quiesced = c.quiesced := rfl
@[simp] theorem Core.setSr_resets (c : Core) (n : Nat) (v : Word) : (c.setSr n v).resets = c.resets := rfl

@[simp] theorem Ctx.setSr_st (x : Ctx) (n : Nat) (v : Word) : (x.setSr n v).st = x.st := rfl
@[simp] theorem Ctx.setSr_g (x : Ctx) (n : Nat) (v : Word) : (x.setSr n v).g = x.g := rfl
@[simp] theorem Ctx.setSr_ring (x : Ctx) (n : Nat) (v : Word) : (x.setSr n v).ring = x.ring := rfl
@[simp] theorem Ctx.setSr_caps (x : Ctx) (n : Nat) (v : Word) : (x.setSr n v).caps = x.caps := rfl
@[simp] theorem Ctx.setSr_vec (x : Ctx) (n : Nat) (v : Word) : (x.setSr n v).vec = x.vec := rfl
@[simp] theorem Ctx.setSr_preds (x : Ctx) (n : Nat) (v : Word) : (x.setSr n v).preds = x.preds := rfl
@[simp] theorem Ctx.setSr_csr (x : Ctx) (n : Nat) (v : Word) : (x.setSr n v).csr = x.csr := rfl
@[simp] theorem Ctx.setSr_resv (x : Ctx) (n : Nat) (v : Word) : (x.setSr n v).resv = x.resv := rfl
@[simp] theorem Ctx.setSr_flights (x : Ctx) (n : Nat) (v : Word) : (x.setSr n v).flights = x.flights := rfl
@[simp] theorem Ctx.setSr_wait (x : Ctx) (n : Nat) (v : Word) : (x.setSr n v).wait = x.wait := rfl
@[simp] theorem Ctx.setSr_reply (x : Ctx) (n : Nat) (v : Word) : (x.setSr n v).reply = x.reply := rfl
@[simp] theorem Ctx.setSr_kstatus (x : Ctx) (n : Nat) (v : Word) : (x.setSr n v).kstatus = x.kstatus := rfl
@[simp] theorem Ctx.setSr_waitElem (x : Ctx) (n : Nat) (v : Word) : (x.setSr n v).waitElem = x.waitElem := rfl
@[simp] theorem Ctx.setSr_tx (x : Ctx) (n : Nat) (v : Word) : (x.setSr n v).tx = x.tx := rfl
@[simp] theorem Ctx.setSr_serving (x : Ctx) (n : Nat) (v : Word) : (x.setSr n v).serving = x.serving := rfl
@[simp] theorem Ctx.setSr_first (x : Ctx) (n : Nat) (v : Word) : (x.setSr n v).first = x.first := rfl
@[simp] theorem Ctx.setSr_stopped (x : Ctx) (n : Nat) (v : Word) : (x.setSr n v).stopped = x.stopped := rfl
@[simp] theorem Ctx.setSr_due (x : Ctx) (n : Nat) (v : Word) : (x.setSr n v).due = x.due := rfl
@[simp] theorem Ctx.setSr_inRep (x : Ctx) (n : Nat) (v : Word) : (x.setSr n v).inRep = x.inRep := rfl
@[simp] theorem Ctx.setSr_progress (x : Ctx) (n : Nat) (v : Word) : (x.setSr n v).progress = x.progress := rfl

@[simp] theorem Ctx.setCsr_st (x : Ctx) (n : Nat) (v : Cap) : (x.setCsr n v).st = x.st := rfl
@[simp] theorem Ctx.setCsr_g (x : Ctx) (n : Nat) (v : Cap) : (x.setCsr n v).g = x.g := rfl
@[simp] theorem Ctx.setCsr_ring (x : Ctx) (n : Nat) (v : Cap) : (x.setCsr n v).ring = x.ring := rfl
@[simp] theorem Ctx.setCsr_caps (x : Ctx) (n : Nat) (v : Cap) : (x.setCsr n v).caps = x.caps := rfl
@[simp] theorem Ctx.setCsr_vec (x : Ctx) (n : Nat) (v : Cap) : (x.setCsr n v).vec = x.vec := rfl
@[simp] theorem Ctx.setCsr_preds (x : Ctx) (n : Nat) (v : Cap) : (x.setCsr n v).preds = x.preds := rfl
@[simp] theorem Ctx.setCsr_sr (x : Ctx) (n : Nat) (v : Cap) : (x.setCsr n v).sr = x.sr := rfl
@[simp] theorem Ctx.setCsr_resv (x : Ctx) (n : Nat) (v : Cap) : (x.setCsr n v).resv = x.resv := rfl
@[simp] theorem Ctx.setCsr_flights (x : Ctx) (n : Nat) (v : Cap) : (x.setCsr n v).flights = x.flights := rfl
@[simp] theorem Ctx.setCsr_wait (x : Ctx) (n : Nat) (v : Cap) : (x.setCsr n v).wait = x.wait := rfl
@[simp] theorem Ctx.setCsr_reply (x : Ctx) (n : Nat) (v : Cap) : (x.setCsr n v).reply = x.reply := rfl
@[simp] theorem Ctx.setCsr_kstatus (x : Ctx) (n : Nat) (v : Cap) : (x.setCsr n v).kstatus = x.kstatus := rfl
@[simp] theorem Ctx.setCsr_waitElem (x : Ctx) (n : Nat) (v : Cap) : (x.setCsr n v).waitElem = x.waitElem := rfl
@[simp] theorem Ctx.setCsr_tx (x : Ctx) (n : Nat) (v : Cap) : (x.setCsr n v).tx = x.tx := rfl
@[simp] theorem Ctx.setCsr_serving (x : Ctx) (n : Nat) (v : Cap) : (x.setCsr n v).serving = x.serving := rfl
@[simp] theorem Ctx.setCsr_first (x : Ctx) (n : Nat) (v : Cap) : (x.setCsr n v).first = x.first := rfl
@[simp] theorem Ctx.setCsr_stopped (x : Ctx) (n : Nat) (v : Cap) : (x.setCsr n v).stopped = x.stopped := rfl
@[simp] theorem Ctx.setCsr_due (x : Ctx) (n : Nat) (v : Cap) : (x.setCsr n v).due = x.due := rfl
@[simp] theorem Ctx.setCsr_inRep (x : Ctx) (n : Nat) (v : Cap) : (x.setCsr n v).inRep = x.inRep := rfl
@[simp] theorem Ctx.setCsr_progress (x : Ctx) (n : Nat) (v : Cap) : (x.setCsr n v).progress = x.progress := rfl

@[simp] theorem Ctx.setCap_st (x : Ctx) (n : Nat) (v : Cap) : (x.setCap n v).st = x.st := rfl
@[simp] theorem Ctx.setCap_g (x : Ctx) (n : Nat) (v : Cap) : (x.setCap n v).g = x.g := rfl
@[simp] theorem Ctx.setCap_ring (x : Ctx) (n : Nat) (v : Cap) : (x.setCap n v).ring = x.ring := rfl
@[simp] theorem Ctx.setCap_vec (x : Ctx) (n : Nat) (v : Cap) : (x.setCap n v).vec = x.vec := rfl
@[simp] theorem Ctx.setCap_preds (x : Ctx) (n : Nat) (v : Cap) : (x.setCap n v).preds = x.preds := rfl
@[simp] theorem Ctx.setCap_sr (x : Ctx) (n : Nat) (v : Cap) : (x.setCap n v).sr = x.sr := rfl
@[simp] theorem Ctx.setCap_csr (x : Ctx) (n : Nat) (v : Cap) : (x.setCap n v).csr = x.csr := rfl
@[simp] theorem Ctx.setCap_resv (x : Ctx) (n : Nat) (v : Cap) : (x.setCap n v).resv = x.resv := rfl
@[simp] theorem Ctx.setCap_flights (x : Ctx) (n : Nat) (v : Cap) : (x.setCap n v).flights = x.flights := rfl
@[simp] theorem Ctx.setCap_wait (x : Ctx) (n : Nat) (v : Cap) : (x.setCap n v).wait = x.wait := rfl
@[simp] theorem Ctx.setCap_reply (x : Ctx) (n : Nat) (v : Cap) : (x.setCap n v).reply = x.reply := rfl
@[simp] theorem Ctx.setCap_kstatus (x : Ctx) (n : Nat) (v : Cap) : (x.setCap n v).kstatus = x.kstatus := rfl
@[simp] theorem Ctx.setCap_waitElem (x : Ctx) (n : Nat) (v : Cap) : (x.setCap n v).waitElem = x.waitElem := rfl
@[simp] theorem Ctx.setCap_tx (x : Ctx) (n : Nat) (v : Cap) : (x.setCap n v).tx = x.tx := rfl
@[simp] theorem Ctx.setCap_serving (x : Ctx) (n : Nat) (v : Cap) : (x.setCap n v).serving = x.serving := rfl
@[simp] theorem Ctx.setCap_first (x : Ctx) (n : Nat) (v : Cap) : (x.setCap n v).first = x.first := rfl
@[simp] theorem Ctx.setCap_stopped (x : Ctx) (n : Nat) (v : Cap) : (x.setCap n v).stopped = x.stopped := rfl
@[simp] theorem Ctx.setCap_due (x : Ctx) (n : Nat) (v : Cap) : (x.setCap n v).due = x.due := rfl
@[simp] theorem Ctx.setCap_inRep (x : Ctx) (n : Nat) (v : Cap) : (x.setCap n v).inRep = x.inRep := rfl
@[simp] theorem Ctx.setCap_progress (x : Ctx) (n : Nat) (v : Cap) : (x.setCap n v).progress = x.progress := rfl

@[simp] theorem Ctx.setStatus_st (x : Ctx) (v : Word) : (x.setStatus v).st = x.st := rfl
@[simp] theorem Ctx.setStatus_g (x : Ctx) (v : Word) : (x.setStatus v).g = x.g := rfl
@[simp] theorem Ctx.setStatus_ring (x : Ctx) (v : Word) : (x.setStatus v).ring = x.ring := rfl
@[simp] theorem Ctx.setStatus_caps (x : Ctx) (v : Word) : (x.setStatus v).caps = x.caps := rfl
@[simp] theorem Ctx.setStatus_vec (x : Ctx) (v : Word) : (x.setStatus v).vec = x.vec := rfl
@[simp] theorem Ctx.setStatus_preds (x : Ctx) (v : Word) : (x.setStatus v).preds = x.preds := rfl
@[simp] theorem Ctx.setStatus_csr (x : Ctx) (v : Word) : (x.setStatus v).csr = x.csr := rfl
@[simp] theorem Ctx.setStatus_resv (x : Ctx) (v : Word) : (x.setStatus v).resv = x.resv := rfl
@[simp] theorem Ctx.setStatus_flights (x : Ctx) (v : Word) : (x.setStatus v).flights = x.flights := rfl
@[simp] theorem Ctx.setStatus_wait (x : Ctx) (v : Word) : (x.setStatus v).wait = x.wait := rfl
@[simp] theorem Ctx.setStatus_reply (x : Ctx) (v : Word) : (x.setStatus v).reply = x.reply := rfl
@[simp] theorem Ctx.setStatus_kstatus (x : Ctx) (v : Word) : (x.setStatus v).kstatus = x.kstatus := rfl
@[simp] theorem Ctx.setStatus_waitElem (x : Ctx) (v : Word) : (x.setStatus v).waitElem = x.waitElem := rfl
@[simp] theorem Ctx.setStatus_tx (x : Ctx) (v : Word) : (x.setStatus v).tx = x.tx := rfl
@[simp] theorem Ctx.setStatus_serving (x : Ctx) (v : Word) : (x.setStatus v).serving = x.serving := rfl
@[simp] theorem Ctx.setStatus_first (x : Ctx) (v : Word) : (x.setStatus v).first = x.first := rfl
@[simp] theorem Ctx.setStatus_stopped (x : Ctx) (v : Word) : (x.setStatus v).stopped = x.stopped := rfl
@[simp] theorem Ctx.setStatus_due (x : Ctx) (v : Word) : (x.setStatus v).due = x.due := rfl
@[simp] theorem Ctx.setStatus_inRep (x : Ctx) (v : Word) : (x.setStatus v).inRep = x.inRep := rfl
@[simp] theorem Ctx.setStatus_progress (x : Ctx) (v : Word) : (x.setStatus v).progress = x.progress := rfl

end Sys2Proof.Machine
end

