-- ==== Sys2Proof/Laws/Cores.lean ====
section
/-! SUPPORT. Reading a core, a context, a register or a location after a write of one. -/

namespace Sys2Proof.Machine

open Sys2Proof

/-! ## Contexts in a core -/

@[simp] theorem Core.ctx_setCtx_self (c : Core) (k : Nat) (x : Ctx) : (c.setCtx k x).ctx k = x := by
  unfold Core.setCtx Core.ctx; split <;> rfl

@[simp] theorem Core.ctx_setCtx_other (c : Core) (k : Nat) (x : Ctx) : (c.setCtx k x).ctx (other k) = c.ctx (other k) := by
  unfold Core.setCtx Core.ctx other; split <;> simp

theorem Core.ctx_setBank (c : Core) (b k : Nat) (x : Bank) : (c.setBank b x).ctx k = c.ctx k := by
  unfold Core.setBank Core.ctx; split <;> split <;> rfl

theorem Core.bank_setCtx (c : Core) (b k : Nat) (x : Ctx) : (c.setCtx k x).bank b = c.bank b := by
  unfold Core.setCtx Core.bank; split <;> split <;> rfl

@[simp] theorem Core.bank_setBank_self (c : Core) (b : Nat) (x : Bank) : (c.setBank b x).bank b = x := by
  unfold Core.setBank Core.bank; split <;> simp

/-! ## Cores and contexts in the device -/

theorem State.coreWorld_setCore (s : State) (n m : Nat) (c : Core) : (s.setCore n c).coreWorld m = s.coreWorld m := rfl

@[simp] theorem State.core_setCore_self (s : State) (n : Nat) (c : Core) : (s.setCore n c).core n = c := by
  simp [State.core, State.setCore]

theorem State.core_setCore_ne (s : State) {n m : Nat} (c : Core) (h : m ≠ n) : (s.setCore n c).core m = s.core m := by
  simp only [State.core, State.setCore, tget_tset_ne _ _ _ h]; rfl

@[simp] theorem State.setCore_setCore_core (s : State) (n : Nat) (c d : Core) : ((s.setCore n c).setCore n d).core n = d := by simp

@[simp] theorem State.core_setCtx (s : State) (n k : Nat) (x : Ctx) : (s.setCtx n k x).core n = (s.core n).setCtx k x := by
  simp [State.setCtx]

theorem State.core_setCtx_ne (s : State) {n m : Nat} (k : Nat) (x : Ctx) (h : m ≠ n) : (s.setCtx n k x).core m = s.core m :=
  s.core_setCore_ne _ h

@[simp] theorem State.ctx_setCtx_self (s : State) (n k : Nat) (x : Ctx) : (s.setCtx n k x).ctx n k = x := by
  simp [State.ctx]

@[simp] theorem State.ctx_setCtx_other (s : State) (n k : Nat) (x : Ctx) : (s.setCtx n k x).ctx n (other k) = s.ctx n (other k) := by
  simp [State.ctx]

@[simp] theorem State.reg_setReg_self (s : State) (r : Reg) (v : Word) : (s.setReg r v).reg r = v := by
  simp [State.reg, State.setReg]

theorem State.reg_setReg_ne (s : State) {r q : Reg} (v : Word) (h : q ≠ r) : (s.setReg r v).reg q = s.reg q := by
  simp [State.reg, State.setReg, tget_tset_ne _ _ _ h]

@[simp] theorem State.reg_setCore (s : State) (n : Nat) (c : Core) (r : Reg) : (s.setCore n c).reg r = s.reg r := rfl

/-! ## Registers of a context -/

@[simp] theorem Ctx.cap_setCap_self (x : Ctx) (n : Nat) (c : Cap) : (x.setCap n c).cap n = c := by simp [Ctx.cap, Ctx.setCap]
theorem Ctx.cap_setCap_ne (x : Ctx) {n m : Nat} (c : Cap) (h : m ≠ n) : (x.setCap n c).cap m = x.cap m := by
  simp [Ctx.cap, Ctx.setCap, tget_tset_ne _ _ _ h]
@[simp] theorem Ctx.srv_setSr_self (x : Ctx) (n : Nat) (v : Word) : (x.setSr n v).srv n = v := by simp [Ctx.srv, Ctx.setSr]
theorem Ctx.srv_setSr_ne (x : Ctx) {n m : Nat} (v : Word) (h : m ≠ n) : (x.setSr n v).srv m = x.srv m := by
  simp [Ctx.srv, Ctx.setSr, tget_tset_ne _ _ _ h]
@[simp] theorem Ctx.csrv_setCsr_self (x : Ctx) (n : Nat) (c : Cap) : (x.setCsr n c).csrv n = c := by simp [Ctx.csrv, Ctx.setCsr]
theorem Ctx.csrv_setCsr_ne (x : Ctx) {n m : Nat} (c : Cap) (h : m ≠ n) : (x.setCsr n c).csrv m = x.csrv m := by
  simp [Ctx.csrv, Ctx.setCsr, tget_tset_ne _ _ _ h]

end Sys2Proof.Machine
end

