-- ==== Sys2Proof/Laws/Issue.lean ====
section
/-! SUPPORT. What the issue of an instruction answers once the instruction has reached its execution. -/

namespace Sys2Proof.Machine

open Sys2Proof

/-- What a pair compares lies beside its control store. -/
theorem State.csTrap_formIns (s : State) (E : Env) (l : Option (List Val)) (n : Nat) (r : Option Nat) :
    (s.formIns E l).csTrap n r = s.csTrap n r := by
  unfold State.formIns State.form
  cases l with
  | none => rfl
  | some l =>
    dsimp only
    split
    · by_cases h : n = E.n
      · subst h; simp [State.csTrap]
      · simp [State.csTrap, State.core_setCore_ne _ _ h]
    · rfl

/-- An instruction whose words are fetched starts. -/
theorem start_own {s s1 : State} {E : Env} (h : Fetches s E s1) : start s E = .own s1 := by
  obtain ⟨hi, hd, hf⟩ := h
  simp [start, hi, hd, hf]

/-- What becomes of the result of a meaning when the control store is sound: the far writes of a routine are acknowledged, and a wait reads
its own words. -/
def Res.settled (d : InsDef) (E : Env) (s1 : State) : Res → Res
  | .done u taken => .done (afterRoutine d E s1 u) taken
  | .hold u => .hold (u.waitFault E)
  | r => r

/-- The execution of an instruction that is reached is its own effect. -/
theorem execute_reached {s s1 : State} {h : Hdr} {d : InsDef} {E : Env} (hr : Reaches s h d E s1) :
    execute d E (guardHolds s1 E h) (badHeader h d) s1 = (d.run E (routineState d E s1)).settled d E s1 := by
  have hve : (d.vector && decide (fld (seeSr s1 E nVSTATE) 0 0 = 0)) = false := by
    cases hd : d.vector
    · rfl
    · simp [hr.vector hd]
  have hpr : (d.priv && !(seeSup s1 E && (s1.pcc E.n E.k).has pSYS)) = false := by
    cases hd : d.priv
    · rfl
    · simp [hr.level hd]
  simp only [execute, hr.guard, hr.noBreak hr.guard, hr.legal.1, hr.legal.2, hve, hpr, State.csTrap_formIns, hr.store, if_true,
    Bool.or_self, Bool.not_true, Bool.false_eq_true, if_false]
  change _ = Res.settled d E s1 (d.run E (if (d.routineAt E s1).isSome && decide (E.n < 48) then _ else _))
  cases d.run E _ <;> rfl

theorem issue_reached {s s1 : State} {h : Hdr} {d : InsDef} {E : Env} (hr : Reaches s h d E s1) :
    issue h d s = match (d.run E (routineState d E s1)).settled d E s1 with
      | .done s2 taken => .next (s2.finish E (s1.core E.n).resets taken)
      | .trap t s2 => .next (s2.fail E t)
      | .hold s2 => .next s2
      | .stall => .next s := by
  have he := execute_reached hr
  have hs := start_own hr.toFetches
  have hE := hr.env
  rw [hE] at he hs
  simp only [issue, hr.wf, ← hE] at *
  simp only [hs, he]
  rfl

/-- The issue of an instruction that is reached and completes. -/
theorem issue_done {s s1 t : State} {h : Hdr} {d : InsDef} {E : Env} {taken : Bool} (hr : Reaches s h d E s1)
    (hd : d.run E (routineState d E s1) = .done t taken) :
    issue h d s = .next ((afterRoutine d E s1 t).finish E (s1.core E.n).resets taken) := by
  rw [issue_reached hr, hd]; rfl

/-- The issue of an instruction that is reached and raises a cause. -/
theorem issue_trap {s s1 t : State} {h : Hdr} {d : InsDef} {E : Env} {c : Trap} (hr : Reaches s h d E s1)
    (hd : d.run E (routineState d E s1) = .trap c t) : issue h d s = .next (t.fail E c) := by
  rw [issue_reached hr, hd]; rfl

/-- The issue of an instruction that is reached and stays at its address, or has set where its context goes on itself. -/
theorem issue_hold {s s1 t : State} {h : Hdr} {d : InsDef} {E : Env} (hr : Reaches s h d E s1)
    (hd : d.run E (routineState d E s1) = .hold t) : issue h d s = .next (t.waitFault E) := by
  rw [issue_reached hr, hd]; rfl

/-- An instruction that runs no routine finds the machine as its fetch left it, but for what a pair compares. -/
theorem routineState_plain {d : InsDef} {E : Env} {s1 : State} (hr : d.routineAt E s1 = none) (hc : d.compared E s1 = none) :
    routineState d E s1 = s1 := by
  simp [routineState, InsDef.micro, hr, hc, State.formIns]

theorem afterRoutine_plain {d : InsDef} {E : Env} {s1 u : State} (hr : d.routineAt E s1 = none) : afterRoutine d E s1 u = u := by
  simp [afterRoutine, InsDef.micro, hr]

end Sys2Proof.Machine
end

