-- ==== Sys2Proof/Laws/Goes.lean ====
section
/-! SUPPORT. The end of an instruction that goes on to the next one: from what its execution wrote to what the statements say of the
whole instruction. -/

namespace Sys2Proof.Machine

open Sys2Proof

/-! ## The end of an instruction -/

theorem loopEnd_none {s : State} {E : Env} (h : NoLoopEnd s E) (ctx : Ctx) (n : Nat) (hn : n ≤ 4) :
    loopEnd s E E.endAddr ctx n = (E.endAddr + 4, ctx) := by
  induction n with
  | zero => rfl
  | succ n ih =>
    have := h n (by omega)
    simp only [loopEnd]
    rw [if_neg (by rintro ⟨h1, h2⟩; rcases this with h | h <;> contradiction)]
    exact ih (by omega)

/-- u is s after the execution of the instruction of E has written ws and nothing else; the status that decides on a handler capability
and the loops are as they were. -/
structure Wrote (s u : State) (E : Env) (ws : List (Loc × Val)) (div : Bool) : Prop where
  wrote  : ∀ w, w ∈ ws → u.held E.n E.k w.1 = w.2
  kept   : ∀ l : Loc, (∀ w, w ∈ ws → w.1.canon ≠ l.canon) → u.held E.n E.k l = s.held E.n E.k l
  ctx    : u.ctx E.n E.k = { s.ctx E.n E.k with
             g := (u.ctx E.n E.k).g, ring := (u.ctx E.n E.k).ring, caps := (u.ctx E.n E.k).caps, vec := (u.ctx E.n E.k).vec
             preds := (u.ctx E.n E.k).preds, sr := (u.ctx E.n E.k).sr, csr := (u.ctx E.n E.k).csr
             flights := (u.ctx E.n E.k).flights }
  other  : u.ctx E.n (other E.k) = s.ctx E.n (other E.k)
  core   : u.core E.n = { s.core E.n with
             c0 := (u.core E.n).c0, c1 := (u.core E.n).c1, bankE := (u.core E.n).bankE, bankD := (u.core E.n).bankD
             sr := (u.core E.n).sr, prefetch := (u.core E.n).prefetch, kept := (u.core E.n).kept, pace := (u.core E.n).pace
             btb := (u.core E.n).btb, divBusy := div }
  cores  : ∀ m, m ≠ E.n → u.core m = s.core m
  rest   : u.outside = s.outside
  loops  : NoLoopEnd s E → NoLoopEnd u E
  step   : NoStep s E → NoStep u E
  pcKept : ∀ w, w ∈ ws → w.1.canon ≠ .c 15

theorem nextPc_eq (E : Env) (h : 4 ≤ E.len) : (E.endAddr + 4) % 2 ^ 64 = nextPc E := by
  unfold Env.endAddr nextPc; congr 1; omega

theorem cur_setCursor (c : Cap) (a : Nat) : (c.setCursor a).cur = a % 2 ^ 64 := by
  simp [Cap.setCursor, Cap.cur, word]

/-- The bank in use of a core whose handler capability serves as the program-counter capability of a context. -/
theorem inUse_setBank (c : Core) (b : Nat) (x : Bank) : (c.setBank b x).inUse = c.inUse := by
  unfold Core.setBank; split <;> rfl

theorem inUse_setCtx (c : Core) (k : Nat) (x : Ctx) : (c.setCtx k x).inUse = c.inUse := by
  unfold Core.setCtx; split <;> rfl

theorem status_setCap (x : Ctx) (r : Nat) (p : Cap) : (x.setCap r p).status = x.status := rfl

theorem pcc_setPcc (s : State) (n k : Nat) (p : Cap) : (s.setPcc n k p).pcc n k = p := by
  unfold State.setPcc State.pcc
  dsimp only
  by_cases h : (stEXL ((s.core n).ctx k).status && decide ((s.core n).inUse ≠ 0)) = true
  · rw [if_pos h, State.core_setCore_self, Core.ctx_setBank, inUse_setBank, if_pos h, Core.bank_setBank_self]
  · rw [if_neg h, State.core_setCtx, Core.ctx_setCtx_self, inUse_setCtx, status_setCap, if_neg h, Ctx.cap_setCap_self]

theorem pc_setPc (s : State) (n k a : Nat) : (s.setPc n k a).pc n k = a % 2 ^ 64 := by
  rw [State.pc, State.setPc, pcc_setPcc, cur_setCursor]

/-! ## Steps that move the program counter and age the writes in flight -/

/-- v is s but for the program-counter capability, the writes in flight and the progress within an instruction of context k of core n, what
the fetch of the core holds, and the count of free values. -/
structure Moves (s v : State) (n k : Nat) : Prop where
  held  : ∀ l : Loc, l.canon ≠ .c 15 → v.held n k l = s.held n k l
  ctx   : v.ctx n k = { s.ctx n k with
            caps := (v.ctx n k).caps, flights := (v.ctx n k).flights, inRep := (v.ctx n k).inRep, progress := (v.ctx n k).progress }
  other : v.ctx n (other k) = s.ctx n (other k)
  core  : v.core n = { s.core n with
            c0 := (v.core n).c0, c1 := (v.core n).c1, bankE := (v.core n).bankE, bankD := (v.core n).bankD
            prefetch := (v.core n).prefetch, kept := (v.core n).kept, pace := (v.core n).pace }
  cores : ∀ m, m ≠ n → v.core m = s.core m
  rest  : v.outside = s.outside

theorem Moves.trans {s v w : State} {n k : Nat} (h1 : Moves s v n k) (h2 : Moves v w n k) : Moves s w n k where
  held l hl := (h2.held l hl).trans (h1.held l hl)
  ctx := by rw [h2.ctx, h1.ctx]
  other := h2.other.trans h1.other
  core := by rw [h2.core, h1.core]
  cores m hm := (h2.cores m hm).trans (h1.cores m hm)
  rest := h2.rest.trans h1.rest

theorem bank_cases (c : Core) (b b' : Nat) (x : Bank) :
    ((c.setBank b x).bank b') = if (b = 2 ↔ b' = 2) then x else c.bank b' := by
  unfold Core.setBank Core.bank
  by_cases h1 : b = 2 <;> by_cases h2 : b' = 2 <;> simp [h1, h2]

theorem bank_hcap (c : Core) (b b' : Nat) (p : Cap) :
    ((c.setBank b { c.bank b with hcap := p }).bank b').e = (c.bank b').e ∧
      ((c.setBank b { c.bank b with hcap := p }).bank b').br = (c.bank b').br := by
  rw [bank_cases]
  by_cases h1 : b = 2 <;> by_cases h2 : b' = 2 <;> simp [h1, h2, Core.bank]

theorem gloc_setCore_bank (s : State) (n k b r : Nat) (c : Core) :
    (s.setCore n c).gloc n k (.e b r) = tget (c.bank b).e r 0 := by
  simp [State.gloc]

theorem moves_setPcc (s : State) (n k : Nat) (p : Cap) : Moves s (s.setPcc n k p) n k := by
  unfold State.setPcc
  dsimp only
  split
  · refine ⟨?_, ?_, ?_, ?_, ?_, ?_⟩
    · intro l _
      cases l <;>
        simp [State.held, State.gloc, State.ctx, Core.ctx_setBank, Ctx.pred, Core.srv, Bank.r, (bank_hcap _ _ _ p).1,
          (bank_hcap _ _ _ p).2, inUse_setBank]
      · split <;> first | rfl | (unfold Core.setBank; split <;> rfl)
    · simp [State.ctx, Core.ctx_setBank]
    · simp [State.ctx, Core.ctx_setBank]
    · rw [State.core_setCore_self]; unfold Core.setBank; split <;> rfl
    · intro m hm; exact State.core_setCore_ne _ _ hm
    · rfl
  · refine ⟨?_, ?_, ?_, ?_, ?_, ?_⟩
    · intro l hl
      cases l with
      | c r =>
        simp only [State.held, State.ctx_setCtx_self]
        rw [Ctx.cap_setCap_ne]; · rfl
        intro h; apply hl; simp [Loc.canon, h]
      | core r =>
        simp only [State.held, State.core_setCtx, inUse_setCtx]
        split
        · rfl
        · congr 1; unfold Core.setCtx; split <;> rfl
      | e b r => simp [State.held, State.gloc, Core.bank_setCtx]
      | bank b r => simp [State.held, Core.bank_setCtx]
      | _ => simp [State.held, State.gloc, Ctx.pred, Ctx.vreg, Ctx.srv, Ctx.csrv]; rfl
    · simp [Ctx.setCap, State.ctx]
    · simp
    · rw [State.core_setCtx]; unfold Core.setCtx; split <;> rfl
    · intro m hm; exact State.core_setCtx_ne _ _ _ hm
    · rfl

theorem moves_setCore_self (s : State) (n k : Nat) : Moves s (s.setCore n (s.core n)) n k := by
  refine ⟨?_, ?_, ?_, ?_, ?_, ?_⟩
  · intro l _; cases l <;> simp [State.held, State.gloc, State.ctx]
  · simp [State.ctx]
  · simp [State.ctx]
  · simp
  · intro m hm; exact State.core_setCore_ne _ _ hm
  · rfl

theorem setCtx_self (c : Core) (k : Nat) : c.setCtx k (c.ctx k) = c := by
  unfold Core.setCtx Core.ctx; split <;> rfl

/-- c is the core of d but for what its fetch holds. -/
def FetchOnly (c d : Core) : Prop := c = { d with prefetch := c.prefetch, kept := c.kept, pace := c.pace }

theorem FetchOnly.refl (c : Core) : FetchOnly c c := rfl

theorem FetchOnly.trans {c d e : Core} (h1 : FetchOnly c d) (h2 : FetchOnly d e) : FetchOnly c e := by
  unfold FetchOnly at *; rw [h1, h2]

theorem FetchOnly.ctx {c d : Core} (h : FetchOnly c d) (k : Nat) : c.ctx k = d.ctx k := by
  unfold Core.ctx; split <;> rw [h]

theorem FetchOnly.bank {c d : Core} (h : FetchOnly c d) (b : Nat) : c.bank b = d.bank b := by
  unfold Core.bank; split <;> rw [h]

theorem FetchOnly.inUse {c d : Core} (h : FetchOnly c d) : c.inUse = d.inUse := by rw [h]

theorem FetchOnly.srv {c d : Core} (h : FetchOnly c d) (r : Nat) : c.srv r = d.srv r := by
  unfold Core.srv; rw [h]

theorem moves_fetch (s : State) (n k : Nat) (c : Core) (h : FetchOnly c (s.core n)) : Moves s (s.setCore n c) n k := by
  refine ⟨?_, ?_, ?_, ?_, ?_, ?_⟩
  · intro l _; cases l <;> simp [State.held, State.gloc, State.ctx, h.ctx, h.bank, h.inUse, h.srv]
  · simp [State.ctx, h.ctx]
  · simp [State.ctx, h.ctx]
  · rw [State.core_setCore_self]
    have e0 : c.c0 = (s.core n).c0 := by unfold FetchOnly at h; have e := congrArg Core.c0 h; exact e
    have e1 : c.c1 = (s.core n).c1 := by unfold FetchOnly at h; have e := congrArg Core.c1 h; exact e
    have e2 : c.bankE = (s.core n).bankE := by unfold FetchOnly at h; have e := congrArg Core.bankE h; exact e
    have e3 : c.bankD = (s.core n).bankD := by unfold FetchOnly at h; have e := congrArg Core.bankD h; exact e
    refine Eq.trans h ?_
    rw [e0, e1, e2, e3]
  · intro m hm; exact State.core_setCore_ne _ _ hm
  · rfl

theorem pcc_fetch (s : State) (n k : Nat) (c : Core) (h : FetchOnly c (s.core n)) : (s.setCore n c).pcc n k = s.pcc n k := by
  unfold State.pcc
  simp only [State.core_setCore_self, h.ctx, h.bank, h.inUse]

/-- The queue of a P-core after an instruction. -/
theorem queueOn_core (s : State) (E : Env) (a : Nat) : ∃ c, s.queueOn E a = s.setCore E.n c ∧ FetchOnly c (s.core E.n) ∨ s.queueOn E a = s := by
  unfold State.queueOn
  dsimp only
  repeat' split
  all_goals first
    | exact ⟨_, .inl ⟨rfl, rfl⟩⟩
    | exact ⟨s.core E.n, .inr rfl⟩

/-- What completion does to the fetch of its core. -/
theorem queue_moves (s : State) (E : Env) (a : Nat) (b : Bool) :
    Moves s ((s.queueOn E a).setOlder E.n b) E.n E.k ∧ ((s.queueOn E a).setOlder E.n b).pcc E.n E.k = s.pcc E.n E.k ∧
      ((s.queueOn E a).setOlder E.n b).free = s.free := by
  have h2 : ∀ u : State, FetchOnly { u.core E.n with pace := { (u.core E.n).pace with older := b } } (u.core E.n) := fun _ => rfl
  obtain ⟨c, ⟨h, hc⟩ | h⟩ := queueOn_core s E a
  · rw [h]
    refine ⟨(moves_fetch s _ _ c hc).trans (moves_fetch _ _ _ _ (h2 _)), ?_, rfl⟩
    exact (pcc_fetch _ _ _ _ (h2 _)).trans (pcc_fetch _ _ _ _ hc)
  · rw [h]
    exact ⟨moves_fetch _ _ _ _ (h2 _), pcc_fetch _ _ _ _ (h2 _), rfl⟩

theorem moves_free (s : State) (n k f : Nat) : Moves s { s with free := f } n k :=
  ⟨fun l _ => by cases l <;> rfl, rfl, rfl, rfl, fun _ _ => rfl, rfl⟩

theorem moves_age (s : State) (n k : Nat) (fl : List Flight) (b : Bool) (p : Option Word) :
    Moves s (s.setCtx n k { s.ctx n k with flights := fl, inRep := b, progress := p }) n k := by
  refine ⟨?_, ?_, ?_, ?_, ?_, ?_⟩
  · intro l _
    cases l with
    | core r =>
      simp only [State.held, State.core_setCtx, inUse_setCtx]
      split
      · rfl
      · congr 1; unfold Core.setCtx; split <;> rfl
    | e b r => simp [State.held, State.gloc, Core.bank_setCtx]
    | bank b r => simp [State.held, Core.bank_setCtx]
    | _ => simp [State.held, State.gloc, Ctx.pred, Ctx.vreg, Ctx.srv, Ctx.csrv, Ctx.cap]
  · simp
  · simp
  · rw [State.core_setCtx]; unfold Core.setCtx; split <;> rfl
  · intro m hm; exact State.core_setCtx_ne _ _ _ hm
  · rfl

theorem moves_slotDone (s : State) (n k : Nat) : Moves s (s.slotDone n k) n k :=
  (moves_age s n k _ _ _).trans (moves_free _ n k _)

theorem Moves.status {s v : State} {n k : Nat} (h : Moves s v n k) : (v.ctx n k).status = (s.ctx n k).status := by
  unfold Ctx.status Ctx.srv; rw [h.ctx]

theorem Moves.coreWorld {s v : State} {n k : Nat} (h : Moves s v n k) (m : Nat) : v.coreWorld m = s.coreWorld m :=
  (congrArg (fun u => State.coreWorld u m) h.rest : v.outside.coreWorld m = s.outside.coreWorld m)

theorem Moves.pcc {s v : State} {n k : Nat} (h : Moves s v n k) (hc : v.ctx n k = s.ctx n k)
    (hb : ∀ b, (v.core n).bank b = (s.core n).bank b) (hi : (v.core n).inUse = (s.core n).inUse) : v.pcc n k = s.pcc n k := by
  unfold State.pcc
  have hc' : (v.core n).ctx k = (s.core n).ctx k := hc
  simp only [hc', hb, hi]

theorem stepTrap_none {s : State} {E : Env} (h : NoStep s E) : s.stepTrap E.n E.k = s := by
  unfold State.stepTrap
  rcases h with h | h <;> simp [h]

theorem pcc_slotDone (s : State) (n k : Nat) : (s.slotDone n k).pcc n k = s.pcc n k := by
  change (s.setCtx n k _).pcc n k = _
  unfold State.pcc
  simp only [State.core_setCtx, Core.ctx_setCtx_self, inUse_setCtx, Core.bank_setCtx]
  rfl

/-- Completion without a loop end and without a single step moves only the program counter, what ages with a slot and the fetch; the next
instruction in sequence is the one that follows. -/
theorem moves_complete {s : State} {E : Env} (hl : NoLoopEnd s E) (hs : NoStep s E) (h4 : 4 ≤ E.len) :
    Moves s (s.complete E) E.n E.k ∧ (s.complete E).pc E.n E.k = nextPc E ∧ (s.complete E).free = s.free + 1 ∧
      ((s.complete E).ctx E.n E.k).inRep = false ∧ ((s.complete E).ctx E.n E.k).progress = none := by
  let a := s.setCtx E.n E.k (s.ctx E.n E.k)
  let b := a.setPc E.n E.k (E.endAddr + 4)
  have ha : Moves s a E.n E.k := by
    change Moves s (s.setCore E.n ((s.core E.n).setCtx E.k ((s.core E.n).ctx E.k))) _ _
    rw [setCtx_self]; exact moves_setCore_self _ _ _
  have hb : Moves s b E.n E.k := ha.trans (moves_setPcc _ _ _ _)
  have hbf : b.free = s.free := by unfold b State.setPc State.setPcc; dsimp only; split <;> rfl
  obtain ⟨c, hc, hcb, hcp, hcf⟩ : ∃ c, s.complete E = (c.slotDone E.n E.k).stepTrap E.n E.k ∧ Moves b c E.n E.k ∧
      c.pcc E.n E.k = b.pcc E.n E.k ∧ c.free = b.free := by
    unfold State.complete
    rw [loopEnd_none hl _ 4 (Nat.le_refl 4)]
    dsimp only
    split
    · exact ⟨_, rfl, queue_moves _ _ _ _⟩
    · exact ⟨b, rfl, ⟨fun _ _ => rfl, rfl, rfl, rfl, fun _ _ => rfl, rfl⟩, rfl, rfl⟩
  have hd : Moves s (c.slotDone E.n E.k) E.n E.k := (hb.trans hcb).trans (moves_slotDone _ _ _)
  have hst : NoStep (c.slotDone E.n E.k) E := by
    rcases hs with h | h
    · exact .inl (by rw [hd.status]; exact h)
    · exact .inr (by rw [hd.coreWorld]; exact h)
  rw [hc, stepTrap_none hst]
  refine ⟨hd, ?_, ?_, ?_, ?_⟩
  · unfold State.pc; rw [pcc_slotDone, hcp]
    change b.pc E.n E.k = _
    rw [pc_setPc, nextPc_eq E h4]
  · change c.free + 1 = s.free + 1
    rw [hcf, hbf]
  · change ((c.setCtx E.n E.k _).ctx E.n E.k).inRep = false; simp
  · change ((c.setCtx E.n E.k _).ctx E.n E.k).progress = none; simp

/-- What an execution has written is what the whole instruction has written. -/
theorem wrote_ends {s u : State} {E : Env} {ws : List (Loc × Val)} {div : Bool} (hw : Wrote s u E ws div) (hs : Straight s E)
    (h4 : 4 ≤ E.len) : Ends s (u.complete E) E ws (nextPc E) div := by
  obtain ⟨hm, hpc, hf, hrep, hprog⟩ := moves_complete (hw.loops hs.1) (hw.step hs.2) h4
  refine ⟨?_, ?_, hpc, ?_, hm.other.trans hw.other, ?_, fun m h => (hm.cores m h).trans (hw.cores m h), ?_⟩
  · intro w h
    rw [hm.held _ (hw.pcKept w h)]; exact hw.wrote w h
  · intro l hl hn
    rw [hm.held _ hl]; exact hw.kept l hn
  · have h := hm.ctx; rw [hw.ctx, hrep, hprog] at h; rw [h]
  · have h := hm.core; rw [hw.core] at h; rw [h]
  · exact hm.rest.trans hw.rest

/-! ## Writes of one register -/

theorem filter_push_ne (fl : List Flight) {loc l : Loc} (old new : Val) (d c : Nat) (h : loc ≠ l) :
    (pushFlight fl loc old new d c).filter (fun f => decide (f.loc = l)) = fl.filter (fun f => decide (f.loc = l)) := by
  unfold pushFlight
  dsimp only
  split <;> split <;> simp [List.filter_append, h]

/-- A read of a location does not see a write of another one. -/
theorem seeVal_push_ne (fl : List Flight) {loc l : Loc} (old new cur : Val) (d c : Nat) (p : Sight) (h : loc ≠ l) :
    seeVal (pushFlight fl loc old new d c) l cur p = seeVal fl l cur p := by
  unfold seeVal candidates; cases p <;> simp only [filter_push_ne fl old new d c h]

/-- What fly adds to the writes in flight of a context. -/
theorem fly_ctx (s : State) (E : Env) (loc : Loc) (old new : Val) (d : Nat) :
    ∃ fl, (s.fly E loc old new d).ctx E.n E.k = { s.ctx E.n E.k with flights := fl } ∧
      ∀ l cur p, loc ≠ l → seeVal fl l cur p = seeVal (s.ctx E.n E.k).flights l cur p := by
  unfold State.fly
  dsimp only
  split
  · exact ⟨(s.ctx E.n E.k).flights, rfl, fun _ _ _ _ => rfl⟩
  · exact ⟨_, State.ctx_setCtx_self _ _ _ _, fun l cur p h => seeVal_push_ne _ _ _ _ _ _ _ h⟩

theorem moves_fly (s : State) (E : Env) (loc : Loc) (old new : Val) (d : Nat) : Moves s (s.fly E loc old new d) E.n E.k := by
  unfold State.fly
  dsimp only
  split
  · exact ⟨fun _ _ => rfl, rfl, rfl, rfl, fun _ _ => rfl, rfl⟩
  · exact moves_age s E.n E.k _ (s.ctx E.n E.k).inRep (s.ctx E.n E.k).progress

theorem pace_setCtx (c : Core) (k : Nat) (x : Ctx) : (c.setCtx k x).pace = c.pace := by
  unfold Core.setCtx; split <;> rfl

theorem fly_core (s : State) (E : Env) (loc : Loc) (old new : Val) (d : Nat) :
    ∃ x, (s.fly E loc old new d).core E.n = (s.core E.n).setCtx E.k x := by
  unfold State.fly; dsimp only; split
  · exact ⟨(s.core E.n).ctx E.k, (setCtx_self _ _).symm⟩
  · exact ⟨_, State.core_setCtx _ _ _ _⟩

theorem fly_pace (s : State) (E : Env) (loc : Loc) (old new : Val) (d : Nat) :
    ((s.fly E loc old new d).core E.n).pace = (s.core E.n).pace := by
  obtain ⟨x, h⟩ := fly_core s E loc old new d
  rw [h, pace_setCtx]

theorem fly_free (s : State) (E : Env) (loc : Loc) (old new : Val) (d : Nat) : (s.fly E loc old new d).free = s.free := by
  unfold State.fly; dsimp only; split <;> rfl

/-- What leaves the state registers of a context and their writes in flight alone leaves its loops alone. -/
theorem noLoopEnd_of {s u : State} {E : Env} (hsr : (u.ctx E.n E.k).sr = (s.ctx E.n E.k).sr) (hfr : u.free = s.free)
    (hpc : (u.core E.n).pace = (s.core E.n).pace)
    (hfl : ∀ r cur p, seeVal (u.ctx E.n E.k).flights (.sr r) cur p = seeVal (s.ctx E.n E.k).flights (.sr r) cur p)
    (h : NoLoopEnd s E) : NoLoopEnd u E := by
  have hs : ∀ r, seeSr u E r = seeSr s E r := by
    intro r; unfold seeSr State.sight State.pick Ctx.srv; dsimp only; rw [hfl, hsr, hfr, hpc]
  intro i hi; rw [hs, hs]; exact h i hi

theorem noStep_of {s u : State} {E : Env} (hsr : (u.ctx E.n E.k).sr = (s.ctx E.n E.k).sr) (ho : u.outside = s.outside)
    (h : NoStep s E) : NoStep u E := by
  have hw : u.coreWorld E.n = s.coreWorld E.n :=
    (congrArg (fun w => State.coreWorld w E.n) ho : u.outside.coreWorld E.n = s.outside.coreWorld E.n)
  rcases h with h | h
  · exact .inl (by unfold Ctx.status Ctx.srv at *; rw [hsr]; exact h)
  · exact .inr (by rw [hw]; exact h)

/-- A write of a register held in the context: x is the context with the register replaced. -/
theorem wrote_ctx {s : State} {E : Env} {loc : Loc} {new old : Val} {d : Nat} (x : Ctx → Ctx)
    (hx : ∀ y : Ctx, x y = { y with g := (x y).g, ring := (x y).ring, caps := (x y).caps, vec := (x y).vec, preds := (x y).preds })
    (hheld : ((s.fly E loc old new d).setCtx E.n E.k (x ((s.fly E loc old new d).ctx E.n E.k))).held E.n E.k loc = new)
    (hkept : ∀ l : Loc, loc.canon ≠ l.canon →
      ((s.fly E loc old new d).setCtx E.n E.k (x ((s.fly E loc old new d).ctx E.n E.k))).held E.n E.k l =
        (s.fly E loc old new d).held E.n E.k l)
    (hsr : ∀ r, loc ≠ .sr r) (h15 : loc.canon ≠ .c 15) :
    Wrote s ((s.fly E loc old new d).setCtx E.n E.k (x ((s.fly E loc old new d).ctx E.n E.k))) E [(loc, new)]
      (s.core E.n).divBusy := by
  have hm := moves_fly s E loc old new d
  obtain ⟨fl, hfl, hsee⟩ := fly_ctx s E loc old new d
  have hf := fly_free s E loc old new d
  have hpace := fly_pace s E loc old new d
  have hk : ∀ l : Loc, (s.fly E loc old new d).held E.n E.k l = s.held E.n E.k l := by
    intro l
    by_cases h : l.canon = .c 15
    · cases l <;> simp [Loc.canon] at h <;> subst h
      simp only [State.held, hfl]; rfl
    · exact hm.held l h
  generalize s.fly E loc old new d = v at *
  have hX := hx (v.ctx E.n E.k)
  generalize hy : x (v.ctx E.n E.k) = y at *
  refine ⟨?_, ?_, ?_, ?_, ?_, ?_, hm.rest, ?_, ?_, ?_⟩
  · intro w hw; simp only [List.mem_singleton] at hw; subst hw; exact hheld
  · intro l hn; rw [hkept l (hn (loc, new) (by simp)), hk]
  · rw [State.ctx_setCtx_self, hX, hfl]
  · rw [State.ctx_setCtx_other]; exact hm.other
  · rw [State.core_setCtx]
    have h := hm.core
    unfold Core.setCtx
    split <;> rw [h]
  · intro m hmn; rw [State.core_setCtx_ne _ _ _ hmn]; exact hm.cores m hmn
  · refine noLoopEnd_of ?_ hf ?_ ?_
    · rw [State.ctx_setCtx_self, hX, hfl]
    · rw [State.core_setCtx, pace_setCtx, hpace]
    · intro r cur p
      rw [State.ctx_setCtx_self, hX, hfl]; exact hsee _ _ _ (hsr r)
  · exact noStep_of (by rw [State.ctx_setCtx_self, hX, hfl]) hm.rest
  · intro w hw; simp only [List.mem_singleton] at hw; subst hw; exact h15

theorem wrote_wrC (s : State) (E : Env) {c : Nat} (v : Cap) (d : Nat) (h : c ≠ 15) :
    Wrote s (wrC s E c v d) E [(.c c, .c v)] (s.core E.n).divBusy := by
  refine wrote_ctx (fun y => y.setCap c v) (fun _ => rfl) ?_ ?_ (fun _ => by simp) (by simpa [Loc.canon] using h)
  · simp [State.held]
  · intro l hl
    cases l with
    | c r =>
      have : r ≠ c := by intro hr; apply hl; rw [hr]
      simp only [State.held, State.ctx_setCtx_self]; rw [Ctx.cap_setCap_ne _ _ this]
    | core r =>
      simp only [State.held, State.core_setCtx, inUse_setCtx]
      split
      · rfl
      · congr 1; unfold Core.setCtx; split <;> rfl
    | e b r => simp [State.held, State.gloc, Core.bank_setCtx]
    | bank b r => simp [State.held, Core.bank_setCtx]
    | _ => simp [State.held, State.gloc, Ctx.pred, Ctx.vreg, Ctx.srv, Ctx.csrv]

theorem wrote_wrV (s : State) (E : Env) (r : Nat) (v : VReg) (d : Nat) :
    Wrote s (wrV s E r v d) E [(.v r, .v v)] (s.core E.n).divBusy := by
  refine wrote_ctx (fun y => { y with vec := tset y.vec r v }) (fun _ => rfl) ?_ ?_ (fun _ => by simp) (by simp [Loc.canon])
  · simp [State.held, Ctx.vreg]
  · intro l hl
    cases l with
    | v j =>
      have : j ≠ r := by intro hr; apply hl; rw [hr]
      simp only [State.held, State.ctx_setCtx_self, Ctx.vreg, tget_tset_ne _ _ _ this]
    | core r =>
      simp only [State.held, State.core_setCtx, inUse_setCtx]
      split
      · rfl
      · congr 1; unfold Core.setCtx; split <;> rfl
    | e b r => simp [State.held, State.gloc, Core.bank_setCtx]
    | bank b r => simp [State.held, Core.bank_setCtx]
    | _ => simp [State.held, State.gloc, Ctx.pred, Ctx.srv, Ctx.csrv, Ctx.cap]

/-- A write of p0 is discarded; a write of another predicate replaces it (R109). -/
theorem wrote_wrP (s : State) (E : Env) (p : Nat) (v : Bool) (d : Nat) :
    Wrote s (wrP s E p v d) E (if p = 0 then [] else [(.p p, .b v)]) (s.core E.n).divBusy := by
  unfold wrP
  by_cases h0 : p = 0
  · simp only [h0, if_true]
    exact ⟨by simp, fun _ _ => rfl, rfl, rfl, rfl, fun _ _ => rfl, rfl, id, id, by simp⟩
  · simp only [h0, if_false]
    refine wrote_ctx (fun y => { y with preds := tset y.preds p v }) (fun _ => rfl) ?_ ?_ (fun _ => by simp) (by simp [Loc.canon])
    · simp [State.held, Ctx.pred, h0]
    · intro l hl
      cases l with
      | p j =>
        have : j ≠ p := by intro hr; apply hl; rw [hr]
        simp only [State.held, State.ctx_setCtx_self, Ctx.pred, tget_tset_ne _ _ _ this]
      | core r =>
        simp only [State.held, State.core_setCtx, inUse_setCtx]
        split
        · rfl
        · congr 1; unfold Core.setCtx; split <;> rfl
      | e b r => simp [State.held, State.gloc, Core.bank_setCtx]
      | bank b r => simp [State.held, Core.bank_setCtx]
      | _ => simp [State.held, State.gloc, Ctx.vreg, Ctx.srv, Ctx.csrv, Ctx.cap]

theorem wrote_setGloc (s : State) (E : Env) {l : Loc} (v : Word) (old : Val) (d : Nat)
    (hl : (∃ r, l = .g r) ∨ (∃ i, l = .ring i) ∨ ∃ b r, l = .e b r) :
    Wrote s ((s.fly E l old (.w v) d).setGloc E.n E.k l v) E [(l, .w v)] (s.core E.n).divBusy := by
  rcases hl with ⟨r, rfl⟩ | ⟨i, rfl⟩ | ⟨b, r, rfl⟩
  · refine wrote_ctx (fun y => { y with g := tset y.g r v }) (fun _ => rfl) ?_ ?_ (fun _ => by simp) (by simp [Loc.canon])
    · simp [State.held, State.gloc]
    · intro l hl
      cases l with
      | g j =>
        have : j ≠ r := by intro hr; apply hl; rw [hr]
        simp only [State.held, State.gloc, State.ctx_setCtx_self, tget_tset_ne _ _ _ this]
      | core r =>
        simp only [State.held, State.core_setCtx, inUse_setCtx]
        split
        · rfl
        · congr 1; unfold Core.setCtx; split <;> rfl
      | e b r => simp [State.held, State.gloc, Core.bank_setCtx]
      | bank b r => simp [State.held, Core.bank_setCtx]
      | _ => simp [State.held, State.gloc, Ctx.vreg, Ctx.pred, Ctx.srv, Ctx.csrv, Ctx.cap]
  · refine wrote_ctx (fun y => { y with ring := tset y.ring i v }) (fun _ => rfl) ?_ ?_ (fun _ => by simp) (by simp [Loc.canon])
    · simp [State.held, State.gloc]
    · intro l hl
      cases l with
      | ring j =>
        have : j ≠ i := by intro hr; apply hl; rw [hr]
        simp only [State.held, State.gloc, State.ctx_setCtx_self, tget_tset_ne _ _ _ this]
      | core r =>
        simp only [State.held, State.core_setCtx, inUse_setCtx]
        split
        · rfl
        · congr 1; unfold Core.setCtx; split <;> rfl
      | e b r => simp [State.held, State.gloc, Core.bank_setCtx]
      | bank b r => simp [State.held, Core.bank_setCtx]
      | _ => simp [State.held, State.gloc, Ctx.vreg, Ctx.pred, Ctx.srv, Ctx.csrv, Ctx.cap]
  · have hm := moves_fly s E (.e b r) old (.w v) d
    obtain ⟨fl, hfl, hsee⟩ := fly_ctx s E (.e b r) old (.w v) d
    have hf := fly_free s E (.e b r) old (.w v) d
    have hpace := fly_pace s E (.e b r) old (.w v) d
    have hk : ∀ l : Loc, (s.fly E (.e b r) old (.w v) d).held E.n E.k l = s.held E.n E.k l := by
      intro l
      by_cases h : l.canon = .c 15
      · cases l with
        | c r => simp only [State.held, hfl]; rfl
        | _ => simp [Loc.canon] at h
      · exact hm.held l h
    simp only [State.setGloc]
    generalize s.fly E (.e b r) old (.w v) d = u at *
    have hctx : ∀ j, (u.setCore E.n ((u.core E.n).setBank b { (u.core E.n).bank b with e := tset ((u.core E.n).bank b).e r v })).ctx E.n j
        = u.ctx E.n j := by
      intro j; simp only [State.ctx, State.core_setCore_self, Core.ctx_setBank]
    refine ⟨?_, ?_, ?_, ?_, ?_, ?_, hm.rest, ?_, ?_, ?_⟩
    · intro w hw; simp only [List.mem_singleton] at hw; subst hw
      simp [State.held, State.gloc]
    · intro l hn
      rw [← hk]
      have hne := hn (.e b r, .w v) (by simp)
      cases l with
      | core r =>
        simp only [State.held, State.core_setCore_self, inUse_setBank]
        split
        · rfl
        · congr 1; unfold Core.setBank; split <;> rfl
      | e b' j =>
        simp only [State.held, State.gloc, State.core_setCore_self, bank_cases]
        split
        · rename_i hb
          have hj : j ≠ r := by
            intro hj; apply hne; subst hj; simp only [Loc.canon]; by_cases h2 : b' = 2
            · simp [h2, hb.2 h2]
            · have : ¬ b = 2 := fun h => h2 (hb.1 h)
              simp [h2, this]
          have e : ((u.core E.n).bank b) = (u.core E.n).bank b' := by
            unfold Core.bank; by_cases h2 : b' = 2
            · simp [h2, hb.2 h2]
            · have : ¬ b = 2 := fun h => h2 (hb.1 h)
              simp [h2, this]
          rw [e, tget_tset_ne _ _ _ hj]
        · rfl
      | bank b' j =>
        simp only [State.held, State.core_setCore_self, bank_cases]
        split
        · rename_i hb
          have e : ((u.core E.n).bank b) = (u.core E.n).bank b' := by
            unfold Core.bank; by_cases h2 : b' = 2
            · simp [h2, hb.2 h2]
            · have : ¬ b = 2 := fun h => h2 (hb.1 h)
              simp [h2, this]
          rw [e]; rfl
        · rfl
      | _ => simp only [State.held, State.gloc, hctx]
    · rw [hctx, hfl]
    · rw [hctx]; exact hm.other
    · rw [State.core_setCore_self]
      have h := hm.core
      unfold Core.setBank
      split <;> rw [h]
    · intro m hmn; rw [State.core_setCore_ne _ _ hmn]; exact hm.cores m hmn
    · refine noLoopEnd_of ?_ hf ?_ ?_
      · rw [hctx, hfl]
      · rw [State.core_setCore_self, ← hpace]; unfold Core.setBank; split <;> rfl
      · intro r cur p; rw [hctx, hfl]; exact hsee _ _ _ (by simp)
    · exact noStep_of (by rw [hctx, hfl]) hm.rest
    · intro w hw; simp only [List.mem_singleton] at hw; subst hw; simp [Loc.canon]

/-- A general specifier names a general location (R108). -/
theorem gprLoc_cases (s : State) (E : Env) (r : Nat) :
    (∃ j, gprLoc s E r = .g j) ∨ (∃ i, gprLoc s E r = .ring i) ∨ ∃ b j, gprLoc s E r = .e b j := by
  unfold gprLoc; dsimp only
  split
  · exact .inr (.inr ⟨_, _, rfl⟩)
  · split
    · exact .inl ⟨_, rfl⟩
    · exact .inr (.inl ⟨_, rfl⟩)

theorem wrote_wrG (s : State) (E : Env) (r : Nat) (v : Word) (d : Nat) :
    Wrote s (wrG s E r v d) E [(gprLoc s E r, .w v)] (s.core E.n).divBusy :=
  wrote_setGloc s E v _ d (gprLoc_cases s E r)

theorem Reaches.len {s s1 : State} {h : Hdr} {d : InsDef} {E : Env} (hr : Reaches s h d E s1) : 4 ≤ E.len := by
  rw [hr.env]; unfold mkEnv; dsimp only; split <;> omega

/-- An instruction that is reached, completes in sequence and has written ws on s2 goes on to the next one with exactly that written. -/
theorem issue_goes {s s1 s2 u : State} {h : Hdr} {d : InsDef} {E : Env} {ws : List (Loc × Val)} {div : Bool}
    (hr : Reaches s h d E s1) (hd : d.run E (routineState d E s1) = .done u false) (hw : Wrote s2 (afterRoutine d E s1 u) E ws div)
    (hs : Straight s2 E) (hg : (s2.core E.n).resets = (s1.core E.n).resets) :
    ∃ t, issue h d s = .next t ∧ Ends s2 t E ws (nextPc E) div := by
  refine ⟨_, issue_done hr hd, ?_⟩
  have hu : ((afterRoutine d E s1 u).core E.n).resets = (s1.core E.n).resets := by rw [← hg, hw.core]
  have : (afterRoutine d E s1 u).finish E (s1.core E.n).resets false = (afterRoutine d E s1 u).complete E := by simp [State.finish, hu]
  rw [this]
  exact wrote_ends hw hs hr.len

end Sys2Proof.Machine
end

