-- ==== Sys2Proof/Laws/Ing.lean ====
section
/-! SUPPORT. The words that a list of bytes spells. -/

namespace Sys2Proof.Machine

/-- The little-endian bytes of words below 2^64 spell the words. -/
theorem wordsLE_bytes (ws : List Nat) (h : ∀ w, w ∈ ws → w < 2 ^ 64) :
    wordsLE ((List.range (8 * ws.length)).map (fun i => byteOf (ws.getD (i / 8) 0) (i % 8))) ws.length = ws := by
  apply List.ext_getElem
  · simp [wordsLE]
  intro i h1 h2
  have hi : i < ws.length := h2
  have e : (((List.range (8 * ws.length)).map (fun i => byteOf (ws.getD (i / 8) 0) (i % 8))).drop (8 * i)).take 8 =
      (List.range 8).map (byteOf (ws.getD i 0)) := by
    apply List.ext_getElem
    · simp; omega
    · intro j hj _
      have : j < 8 := by simp at hj; omega
      simp only [List.getElem_take, List.getElem_drop, List.getElem_map, List.getElem_range]
      rw [show (8 * i + j) / 8 = i by omega, show (8 * i + j) % 8 = j by omega]
  simp only [wordsLE, List.getElem_map, List.getElem_range, e]
  have hw : ws[i] < 2 ^ 64 := h _ (List.getElem_mem _)
  have : ws.getD i 0 = ws[i] := by simp [hi]
  rw [this]
  generalize ws[i] = w at hw
  simp only [List.range, List.range.loop, List.map, ofBytes, byteOf, Nat.shiftRight_eq_div_pow]
  omega

end Sys2Proof.Machine
end

