-- ==== Sys2Proof/Laws/Mem.lean ====
section
/-! SUPPORT. Memory: every operation keeps the canonical form; a read after a write of the same byte gives what was written, and a write
leaves every other byte and tag alone. -/

namespace Sys2Proof.Machine

open Sys2Proof

variable {β : Type} [DecidableEq β]

theorem awf_mono {l : List (Nat × β)} {d : β} {lo lo' : Nat} (h : lo' ≤ lo) (hl : awf l d lo = true) : awf l d lo' = true := by
  cases l with
  | nil => rfl
  | cons e r =>
    simp only [awf, Bool.and_eq_true, decide_eq_true_eq] at hl ⊢
    exact ⟨⟨by omega, hl.1.2⟩, hl.2⟩

/-- Setting one address keeps a list in its canonical form. -/
theorem awf_aset {l : List (Nat × β)} {d : β} (a : Nat) (v : β) :
    ∀ {lo : Nat}, awf l d lo = true → lo ≤ a → awf (aset l a v d) d lo = true := by
  induction l with
  | nil =>
    intro lo _ h
    by_cases hv : v = d <;> simp [aset, awf, hv, h]
  | cons e r ih =>
    intro lo hl h
    obtain ⟨k, w⟩ := e
    simp only [awf, Bool.and_eq_true, decide_eq_true_eq] at hl
    obtain ⟨⟨h1, h2⟩, h3⟩ := hl
    simp only [aset]
    split
    · rename_i hk
      simp only [awf, Bool.and_eq_true, decide_eq_true_eq]
      exact ⟨⟨h1, h2⟩, ih h3 (by omega)⟩
    · split
      · rename_i hk
        subst hk
        split
        · exact awf_mono (by omega) h3
        · rename_i hv
          simp only [awf, Bool.and_eq_true, decide_eq_true_eq]
          exact ⟨⟨h1, hv⟩, h3⟩
      · split
        · simp only [awf, Bool.and_eq_true, decide_eq_true_eq]
          exact ⟨⟨h1, h2⟩, h3⟩
        · rename_i hk hk' hv
          simp only [awf, Bool.and_eq_true, decide_eq_true_eq]
          exact ⟨⟨h, hv⟩, ⟨by omega, h2⟩, h3⟩

theorem aget_of_awf {l : List (Nat × β)} {d : β} {lo a : Nat} (hl : awf l d lo = true) (h : a < lo) : aget l a d = d := by
  induction l generalizing lo with
  | nil => rfl
  | cons e r ih =>
    obtain ⟨k, w⟩ := e
    simp only [awf, Bool.and_eq_true, decide_eq_true_eq] at hl
    simp only [aget]
    rw [if_neg (by omega)]
    exact ih hl.2 (by omega)

/-- The address that was set reads as the value set. -/
theorem aget_aset_self {l : List (Nat × β)} {d : β} (a : Nat) (v : β) :
    ∀ {lo : Nat}, awf l d lo = true → aget (aset l a v d) a d = v := by
  induction l with
  | nil => intro lo _; by_cases hv : v = d <;> simp [aset, aget, hv]
  | cons e r ih =>
    intro lo hl
    obtain ⟨k, w⟩ := e
    simp only [awf, Bool.and_eq_true, decide_eq_true_eq] at hl
    simp only [aset]
    split
    · rename_i hk; simp only [aget]; rw [if_neg (by omega)]; exact ih hl.2
    · split
      · rename_i hk
        split
        · rename_i hv; rw [aget_of_awf hl.2 (by omega), hv]
        · simp [aget]
      · split
        · rename_i hk hk' hv
          simp only [aget]; rw [if_neg hk', aget_of_awf hl.2 (by omega), hv]
        · simp [aget]

/-- Every other address reads as before. -/
theorem aget_aset_ne (l : List (Nat × β)) {d : β} {a b : Nat} (v : β) (h : b ≠ a) : aget (aset l a v d) b d = aget l b d := by
  induction l with
  | nil => by_cases hv : v = d <;> simp [aset, aget, hv, Ne.symm h]
  | cons e r ih =>
    obtain ⟨k, w⟩ := e
    simp only [aset]
    split
    · simp only [aget, ih]
    · split
      · rename_i hk
        subst hk
        split
        · simp [aget, Ne.symm h]
        · simp [aget, Ne.symm h]
      · split
        · rfl
        · simp [aget, Ne.symm h]

/-! ## The canonical form -/

theorem Mem.wf_iff (m : Mem) : m.wf = true ↔ awf m.cells 0 0 = true ∧ awf m.tags tUNINIT 0 = true := by
  simp [Mem.wf]

theorem Mem.wf_putBytes (n : Nat) : ∀ (m : Mem) (a v : Nat), m.wf = true → (m.putBytes a v n).wf = true := by
  induction n with
  | zero => intro m a v h; exact h
  | succ n ih =>
    intro m a v h
    rw [Mem.wf_iff] at h
    refine ih _ _ _ ((Mem.wf_iff _).2 ⟨awf_aset _ _ h.1 (Nat.zero_le _), h.2⟩)

theorem Mem.wf_setWord {m : Mem} (a v t : Nat) (h : m.wf = true) : (m.setWord a v t).wf = true := by
  have := (Mem.wf_iff _).1 (Mem.wf_putBytes 8 m a v h)
  exact (Mem.wf_iff _).2 ⟨this.1, awf_aset _ _ this.2 (Nat.zero_le _)⟩

theorem Mem.wf_writeWord {m : Mem} (a v t : Nat) (h : m.wf = true) : (m.writeWord a v t).wf = true := by
  unfold Mem.writeWord
  apply Mem.wf_setWord
  split
  · exact h
  · split
    · exact Mem.wf_setWord _ _ _ h
    · exact h

theorem Mem.wf_applyOp {m : Mem} (o : WOp) (h : m.wf = true) : (m.applyOp o).1.wf = true := by
  unfold Mem.applyOp
  dsimp only
  split <;> (repeat' split) <;> first | exact h | exact Mem.wf_writeWord _ _ _ h

theorem Mem.wf_applyOps (os : List WOp) : ∀ m : Mem, m.wf = true → (m.applyOps os).wf = true := by
  induction os with
  | nil => intro m h; exact h
  | cons o os ih => intro m h; exact ih _ (Mem.wf_applyOp o h)

theorem Mem.wf_masterWrite {m : Mem} (a data mask : Nat) (h : m.wf = true) : (m.masterWrite a data mask).1.wf = true := by
  unfold Mem.masterWrite
  dsimp only
  (repeat' split) <;> first | exact h | exact Mem.wf_writeWord _ _ _ h

theorem Mem.wf_empty : Mem.empty.wf = true := rfl

/-! ## Reads after writes -/

theorem Mem.byte_putBytes_out (n : Nat) : ∀ (m : Mem) (a v b : Nat), (b < a ∨ a + n ≤ b) → (m.putBytes a v n).byte b = m.byte b := by
  induction n with
  | zero => intro m a v b _; rfl
  | succ n ih =>
    intro m a v b h
    simp only [Mem.putBytes]
    rw [ih _ _ _ _ (by omega)]
    exact aget_aset_ne _ _ (by omega)

theorem Mem.byte_putBytes_in (n : Nat) : ∀ (m : Mem) (a v i : Nat), m.wf = true → i < n →
    (m.putBytes a v n).byte (a + i) = BitVec.ofNat 8 (v / 256 ^ i) := by
  induction n with
  | zero => intro m a v i _ h; omega
  | succ n ih =>
    intro m a v i hm h
    have h' := (Mem.wf_iff _).1 hm
    have hw : ({ m with cells := aset m.cells a (BitVec.ofNat 8 v) 0 } : Mem).wf = true :=
      (Mem.wf_iff _).2 ⟨awf_aset _ _ h'.1 (Nat.zero_le _), h'.2⟩
    simp only [Mem.putBytes]
    cases i with
    | zero =>
      rw [Mem.byte_putBytes_out n _ _ _ _ (by omega)]
      simpa [Mem.byte] using aget_aset_self a (BitVec.ofNat 8 v) h'.1
    | succ i =>
      have := ih ({ m with cells := aset m.cells a (BitVec.ofNat 8 v) 0 }) (a + 1) (v / 256) i hw (by omega)
      rw [show a + (i + 1) = a + 1 + i by omega, this, Nat.div_div_eq_div_mul, Nat.pow_succ']

theorem Mem.tags_putBytes (n : Nat) : ∀ (m : Mem) (a v : Nat), (m.putBytes a v n).tags = m.tags := by
  induction n with
  | zero => intro m a v; rfl
  | succ n ih => intro m a v; simp only [Mem.putBytes]; rw [ih]

/-- A byte outside the word set is unchanged. -/
theorem Mem.byte_setWord_out {m : Mem} {a b : Nat} (v t : Nat) (h : b < a ∨ a + 8 ≤ b) : (m.setWord a v t).byte b = m.byte b :=
  Mem.byte_putBytes_out 8 m a v b h

/-- A byte of the word set is the byte of the value at its place (R184). -/
theorem Mem.byte_setWord_in {m : Mem} (a v t : Nat) {i : Nat} (hm : m.wf = true) (h : i < 8) :
    (m.setWord a v t).byte (a + i) = BitVec.ofNat 8 (v / 256 ^ i) :=
  Mem.byte_putBytes_in 8 m a v i hm h

theorem Mem.tag_setWord_self {m : Mem} {a : Nat} (v t : Nat) (hm : m.wf = true) (ha : a % 8 = 0) : (m.setWord a v t).tag a = t % 16 := by
  unfold Mem.tag Mem.setWord
  dsimp only
  have e : a / 8 * 8 = a := by omega
  rw [e, Mem.tags_putBytes]
  exact aget_aset_self a _ ((Mem.wf_iff _).1 hm).2

theorem Mem.tag_setWord_ne {m : Mem} {a b : Nat} (v t : Nat) (h : b / 8 * 8 ≠ a) : (m.setWord a v t).tag b = m.tag b := by
  unfold Mem.tag Mem.setWord
  dsimp only
  rw [Mem.tags_putBytes]
  exact aget_aset_ne _ _ h

end Sys2Proof.Machine
end

