-- ==== Sys2Proof/Laws/Ridge.lean ====
section
/-! SUPPORT. What an access that the Ridge table admits leaves: the memories, the registers and the cores, for the heat it counts lies in
fields of its own. -/

namespace Sys2Proof.Machine

/-- t is s but for the heat of frames and plots, what their counts call for, and the free values used. -/
structure HeatOnly (s t : State) : Prop where
  mem   : t.mem = s.mem
  tcms  : t.tcms = s.tcms
  cores : t.cores = s.cores
  regs  : t.regs = s.regs
  cfg   : t.cfg = s.cfg
  now   : t.now = s.now

theorem HeatOnly.refl (s : State) : HeatOnly s s := ⟨rfl, rfl, rfl, rfl, rfl, rfl⟩

theorem HeatOnly.trans {s t u : State} (a : HeatOnly s t) (b : HeatOnly t u) : HeatOnly s u :=
  ⟨b.1.trans a.1, b.2.trans a.2, b.3.trans a.3, b.4.trans a.4, b.5.trans a.5, b.6.trans a.6⟩

theorem State.considerFrame_heatOnly (s : State) (f : Nat) : HeatOnly s (s.considerFrame f) := by
  unfold State.considerFrame
  split <;> exact ⟨rfl, rfl, rfl, rfl, rfl, rfl⟩

theorem State.heatHit_heatOnly (s : State) (f die : Nat) : HeatOnly s (s.heatHit f die) := by
  unfold State.heatHit State.draw
  dsimp only
  split_ifs <;> first
    | exact ⟨rfl, rfl, rfl, rfl, rfl, rfl⟩
    | refine HeatOnly.trans ?_ (State.considerFrame_heatOnly _ _); exact ⟨rfl, rfl, rfl, rfl, rfl, rfl⟩

theorem State.considerPlot_heatOnly (s : State) (p : Nat) : HeatOnly s (s.considerPlot p) := by
  unfold State.considerPlot
  dsimp only
  split
  · split <;> exact ⟨rfl, rfl, rfl, rfl, rfl, rfl⟩
  · exact HeatOnly.refl s

theorem State.plotHitBy_heatOnly (s : State) (p : Nat) (node : Option Nat) : HeatOnly s (s.plotHitBy p node) := by
  unfold State.plotHitBy State.draw
  dsimp only
  split
  · exact ⟨rfl, rfl, rfl, rfl, rfl, rfl⟩
  · cases node with
    | none => exact ⟨rfl, rfl, rfl, rfl, rfl, rfl⟩
    | some d =>
      dsimp only
      split_ifs <;> first
        | exact ⟨rfl, rfl, rfl, rfl, rfl, rfl⟩
        | refine HeatOnly.trans ?_ (State.considerPlot_heatOnly _ _); exact ⟨rfl, rfl, rfl, rfl, rfl, rfl⟩

theorem State.touchMaster_heatOnly (s : State) (pa : Nat) : HeatOnly s (s.touchMaster pa) := by
  unfold State.touchMaster
  split
  · dsimp only
    split
    · exact State.heatHit_heatOnly _ _ _
    · exact (State.heatHit_heatOnly _ _ _).trans (State.plotHitBy_heatOnly _ _ _)
  · exact HeatOnly.refl s

/-- An access that the table admits changes nothing but heat. -/
theorem State.ridge_heatOnly {s : State} {m f a : Nat} {w se : Bool} (h : (s.ridge m f w a).1 = some se) : HeatOnly s (s.ridge m f w a).2 := by
  revert h
  unfold State.ridge
  generalize hp : (if s.rdgStale.isEmpty = true then (0, s) else (s.draw.1 % 2 ^ s.draw.2.rdgStale.length, s.draw.2)) = p
  have g : HeatOnly s p.2 := by
    subst hp
    split
    · exact HeatOnly.refl s
    · exact ⟨rfl, rfl, rfl, rfl, rfl, rfl⟩
  obtain ⟨k, u⟩ := p
  dsimp only
  split
  · exact fun _ => g.trans (State.touchMaster_heatOnly _ _)
  · exact fun z => nomatch z

/-- A remote access that the table admits changes nothing but heat. -/
theorem State.ridgeRemote_heatOnly {s : State} {pa src plot : Nat} {w : Bool} (h : (s.ridgeRemote w pa src plot).1 = true) :
    HeatOnly s (s.ridgeRemote w pa src plot).2 := by
  revert h
  unfold State.ridgeRemote
  generalize hp : (if s.rdgStale.isEmpty = true then (0, s) else (s.draw.1 % 2 ^ s.draw.2.rdgStale.length, s.draw.2)) = p
  have g : HeatOnly s p.2 := by
    subst hp
    split
    · exact HeatOnly.refl s
    · exact ⟨rfl, rfl, rfl, rfl, rfl, rfl⟩
  obtain ⟨k, u⟩ := p
  dsimp only
  split
  · exact fun z => nomatch z
  · intro _
    dsimp only
    refine g.trans (HeatOnly.trans ?_ (State.plotHitBy_heatOnly _ _ _))
    split
    · exact State.heatHit_heatOnly _ _ _
    · exact HeatOnly.refl _

/-- A walk's read that the table admits, of backed words without POISON or a reserved tag, gives the entry that memory holds. -/
theorem probe_ok {s : State} {E : Env} {i n : Nat} (h : (s.ridge mWALK 0 false (iptBase s E + 32 * i)).1 = some false)
    (b : backed (iptBase s E + 32 * i) = true)
    (t : ([0, 8, 16, 24].any (fun j => let w := iptBase s E + 32 * i + j; decide (s.mem.tag w = tPOISON) || decide (7 ≤ s.mem.tag w))) = false) :
    (probe s E i n).1 = .ok (readIpt s.mem (iptBase s E + 32 * i)) := by
  have g := (State.ridge_heatOnly h).mem
  unfold probe
  dsimp only
  rw [h]
  simp only [g]
  simp_all [List.any_cons]
  rw [if_neg (by omega)]

/-- An admitted access to the system area, which has no heat, leaves the machine as it is while no stale entry is in use. -/
theorem State.ridge_system {s : State} {m f a : Nat} {w se : Bool} (h : (s.ridge m f w a).1 = some se) (q : s.rdgStale = [])
    (b : 0x1800000000 ≤ a) : (s.ridge m f w a).2 = s := by
  revert h
  have g : s.touchMaster a = s := by simp [State.touchMaster, Nat.not_lt.2 b]
  unfold State.ridge
  simp only [q, List.isEmpty_nil, if_true]
  split
  · exact fun _ => g
  · exact fun z => nomatch z

/-- A master's read of whole lines of the system area, each admitted and backed, gives the bytes that memory answers and changes nothing. -/
theorem State.masterReadBytes_lines (s : State) (m f : Nat) (q : s.rdgStale = []) (k : Nat) : ∀ (a fuel : Nat), k < fuel → a % 64 = 0 →
    (∀ i, i < k → (s.ridge m f false (a + 64 * i)).1.isSome = true ∧ backedDram (a + 64 * i) = true ∧ 0x1800000000 ≤ a + 64 * i) →
    (∀ i, i < 64 * k → (s.mem.masterRead ((a + i) / 8 * 8)).2 = true) →
    s.masterReadBytes m f a (64 * k) fuel =
      ((List.range (64 * k)).map (fun i => byteOf (s.mem.masterRead ((a + i) / 8 * 8)).1 ((a + i) % 8)), true, s) := by
  induction k with
  | zero =>
    intro a fuel hf _ _ _
    cases fuel with
    | zero => omega
    | succ n => simp [State.masterReadBytes]
  | succ k ih =>
    intro a fuel hf ha hr hm
    cases fuel with
    | zero => omega
    | succ n =>
      obtain ⟨r0, b0, c0⟩ := hr 0 (by omega)
      simp only [Nat.mul_zero, Nat.add_zero] at r0 b0 c0
      obtain ⟨se, e⟩ := Option.isSome_iff_exists.1 r0
      have e2 : s.ridge m f false a = (some se, s) := Prod.ext e (State.ridge_system e q c0)
      have hc : min (64 * (k + 1)) (64 - a % 64) = 64 := by omega
      have hn : 64 * (k + 1) - 64 = 64 * k := by omega
      have ih' := ih (a + 64) n (by omega) (by omega)
        (fun i hi => by have := hr (i + 1) (by omega); rwa [Nat.mul_add, Nat.mul_one, Nat.add_comm (64 * i), ← Nat.add_assoc] at this)
        (fun i hi => by have := hm (i + 64) (by omega); rwa [Nat.add_comm i, ← Nat.add_assoc] at this)
      have hall : ((List.range 64).all fun i => (s.mem.masterRead ((a + i) / 8 * 8)).2) = true := by
        rw [List.all_eq_true]; intro i hi; exact hm i (by have := List.mem_range.1 hi; omega)
      unfold State.masterReadBytes
      rw [if_neg (by omega)]
      simp only [hc, hn, e2, b0, ih', hall, if_true]
      rw [show 64 * (k + 1) = 64 + 64 * k from by omega, List.range_add, List.map_append, List.map_map]
      simp [Function.comp_def, Nat.add_assoc]

end Sys2Proof.Machine
end

