-- ==== Sys2Proof/Machine/Package.lean ====
section
/-! DEFINITION. The package and its pins: the names of the balls, the signal or net at each, the rails, the levels of the output pins
as the state gives them, and what the test access port honours ("Signals, package and electrical characteristics", R604-R610, R612,
R621, R622). Rows are numbered 1 to 70 from the marked edge and columns 1 to 70. -/

namespace Sys2Proof.Machine

open Sys2Proof

/-- A ball: its row index and its column. -/
structure Ball where
  row : Nat
  col : Nat
  deriving DecidableEq, Repr

/-- row_name of R605. -/
def rowName (i : Nat) : List Char :=
  let letters := "ABCDEFGHJKLMNPTUVWY".toList
  if i ≤ 19 then [letters.getD (i - 1) 'A'] else [letters.getD ((i - 20) / 19) 'A', letters.getD ((i - 20) % 19) 'A']

/-- The name of a ball (R605). -/
def Ball.name (b : Ball) : List Char := rowName b.row ++ Nat.toDigits 10 b.col

/-- The array holds a ball there: the four corners carry none (R604). -/
def Ball.exists' (b : Ball) : Bool :=
  decide (1 ≤ b.row ∧ b.row ≤ 70 ∧ 1 ≤ b.col ∧ b.col ≤ 70) && !((b.row == 1 || b.row == 70) && (b.col == 1 || b.col == 70))

/-- A pin of a high-speed lane: sent or received, P or N. -/
structure LanePin where
  tx : Bool
  p  : Bool
  deriving DecidableEq, Repr

/-- The high-speed signals (R606): a fabric lane, a lane of the host link, and a lane of a cartridge port. -/
inductive Serial where
  | fab (link lane : Nat)
  | host (lane : Nat)
  | cart (slot lane : Nat)
  deriving DecidableEq, Repr

/-- The ball of a pin of a high-speed lane (R606). -/
def Serial.ball (x : Serial) (w : LanePin) : Ball :=
  match x with
  | .fab l n =>
    let off := (if w.tx then 0 else 3) + (if w.p then 0 else 1)
    if l < 6 then ⟨6 + 10 * l + 2 * n, 2 + off⟩ else ⟨6 + 10 * (l - 6) + 2 * n, 69 - off⟩
  | .host n => ⟨if w.tx then 69 else 66, 12 + 3 * n + (if w.p then 0 else 1)⟩
  | .cart j n => ⟨if w.tx then 2 else 5, 20 + 12 * j + 3 * n + (if w.p then 0 else 1)⟩

/-- Every high-speed signal. -/
def serials : List Serial :=
  (List.range 12).flatMap (fun l => (List.range 4).map (fun n => Serial.fab l n)) ++ (List.range 16).map Serial.host ++
    (List.range 2).flatMap (fun j => (List.range 4).map (fun n => Serial.cart j n))

/-- Every ball of a high-speed lane. -/
def serialBalls : List Ball :=
  serials.flatMap (fun x => [x.ball ⟨true, true⟩, x.ball ⟨true, false⟩, x.ball ⟨false, true⟩, x.ball ⟨false, false⟩])

/-- The other signals (R607). -/
inductive Pin where
  | flClk | flCsN | flIo (k : Nat) | flRstN
  | smbScl | smbSda | smbAlertN
  | uartTxd | uartRxd
  | tck | tms | tdi | tdo | trstN
  | porN | wrstN | thermtripN | lockdownN
  | avsClk | avsMdata | avsSdata
  | tamp (k : Nat)
  | xtal25In | xtal25Out | xtal32kIn | xtal32kOut
  | hrefP | hrefN | srefP | srefN
  | cartRefclkP (j : Nat) | cartRefclkN (j : Nat)
  | pePerstN | peWakeN | peClkreqN
  | cartPrsntN (j : Nat) | cartPerstN (j : Nat) | cartPwren (j : Nat)
  | vsenseCoreP | vsenseCoreN | vsenseSramP | vsenseSramN | vsenseSerdesP | vsenseSerdesN | vsenseIoP | vsenseIoN
  deriving DecidableEq, Repr

/-- The ball of such a signal (R607): rows C to H are 3 to 8. -/
def Pin.ball : Pin → Ball
  | .flClk => ⟨3, 46⟩ | .flCsN => ⟨3, 47⟩ | .flIo k => ⟨3, 48 + k⟩ | .flRstN => ⟨3, 52⟩
  | .smbScl => ⟨3, 54⟩ | .smbSda => ⟨3, 55⟩ | .smbAlertN => ⟨3, 56⟩
  | .uartTxd => ⟨3, 58⟩ | .uartRxd => ⟨3, 59⟩
  | .tck => ⟨4, 46⟩ | .tms => ⟨4, 47⟩ | .tdi => ⟨4, 48⟩ | .tdo => ⟨4, 49⟩ | .trstN => ⟨4, 50⟩
  | .porN => ⟨4, 52⟩ | .wrstN => ⟨4, 53⟩ | .thermtripN => ⟨4, 55⟩ | .lockdownN => ⟨4, 56⟩
  | .avsClk => ⟨4, 58⟩ | .avsMdata => ⟨4, 59⟩ | .avsSdata => ⟨4, 60⟩
  | .tamp k => ⟨5, 46 + k⟩
  | .xtal25In => ⟨5, 55⟩ | .xtal25Out => ⟨5, 56⟩ | .xtal32kIn => ⟨5, 58⟩ | .xtal32kOut => ⟨5, 59⟩
  | .hrefP => ⟨6, 46⟩ | .hrefN => ⟨6, 47⟩ | .srefP => ⟨6, 49⟩ | .srefN => ⟨6, 50⟩
  | .cartRefclkP j => ⟨6, 52 + 3 * j⟩ | .cartRefclkN j => ⟨6, 53 + 3 * j⟩
  | .pePerstN => ⟨7, 46⟩ | .peWakeN => ⟨7, 47⟩ | .peClkreqN => ⟨7, 48⟩
  | .cartPrsntN j => ⟨7, 50 + j⟩ | .cartPerstN j => ⟨7, 52 + j⟩ | .cartPwren j => ⟨7, 54 + j⟩
  | .vsenseCoreP => ⟨8, 46⟩ | .vsenseCoreN => ⟨8, 47⟩ | .vsenseSramP => ⟨8, 49⟩ | .vsenseSramN => ⟨8, 50⟩
  | .vsenseSerdesP => ⟨8, 52⟩ | .vsenseSerdesN => ⟨8, 53⟩ | .vsenseIoP => ⟨8, 55⟩ | .vsenseIoN => ⟨8, 56⟩

/-- Every signal of R607. -/
def pins : List Pin :=
  [.flClk, .flCsN] ++ (List.range 4).map .flIo ++ [.flRstN, .smbScl, .smbSda, .smbAlertN, .uartTxd, .uartRxd, .tck, .tms, .tdi, .tdo, .trstN,
    .porN, .wrstN, .thermtripN, .lockdownN, .avsClk, .avsMdata, .avsSdata] ++ (List.range 8).map .tamp ++
  [.xtal25In, .xtal25Out, .xtal32kIn, .xtal32kOut, .hrefP, .hrefN, .srefP, .srefN, .cartRefclkP 0, .cartRefclkN 0, .cartRefclkP 1,
    .cartRefclkN 1, .pePerstN, .peWakeN, .peClkreqN, .cartPrsntN 0, .cartPrsntN 1, .cartPerstN 0, .cartPerstN 1, .cartPwren 0, .cartPwren 1,
    .vsenseCoreP, .vsenseCoreN, .vsenseSramP, .vsenseSramN, .vsenseSerdesP, .vsenseSerdesN, .vsenseIoP, .vsenseIoN]

/-- The reserved balls (R608). -/
def reservedBall (b : Ball) : Bool :=
  (b.row == 3 && decide (60 ≤ b.col ∧ b.col ≤ 70)) || (b.row == 4 && decide (61 ≤ b.col ∧ b.col ≤ 70)) ||
    (b.row == 5 && decide (61 ≤ b.col ∧ b.col ≤ 66))

/-- The rails and ground. -/
inductive Net where
  | vss | vddAon | vddSerdes | vddIo | vddSram | vddCore
  deriving DecidableEq, Repr

/-- The net of a ball that no signal takes and that is not reserved: the first line of R609 that matches. -/
def Ball.net (b : Ball) : Net :=
  if (b.row + b.col) % 2 = 0 then .vss
  else if b.row ≤ 9 ∧ 44 ≤ b.col ∧ b.col ≤ 61 then .vddAon
  else if b.row ≤ 9 ∨ 62 ≤ b.row ∨ b.col ≤ 9 ∨ 62 ≤ b.col then .vddSerdes
  else if (10 ≤ b.col ∧ b.col ≤ 17) ∨ (54 ≤ b.col ∧ b.col ≤ 61) then .vddIo
  else if 10 ≤ b.row ∧ b.row ≤ 17 then .vddSram
  else .vddCore

/-- A ball is a supply or ground ball (R609). -/
def Ball.supply (b : Ball) : Bool := b.exists' && !(serialBalls.contains b) && !((pins.map Pin.ball).contains b) && !(reservedBall b)

/-- What R610 gives of a rail: its nominal voltage in mV (the lowest and the highest it is set to), its tolerance in tenths of a percent,
and its maximum current in A; none for ground. -/
def Net.limits : Net → Option (Nat × Nat × Nat × Nat)
  | .vss => none
  | .vddCore => some (600, 1100, 20, 420)
  | .vddSram => some (850, 850, 20, 70)
  | .vddSerdes => some (850, 850, 15, 60)
  | .vddIo => some (1200, 1200, 25, 80)
  | .vddAon => some (1800, 1800, 50, 3)

/-- The order in which the integrator brings up the rails, and its reverse to remove them (R612). -/
def railOrder : List Net := [.vddAon, .vddCore, .vddSram, .vddIo, .vddSerdes]

/-! ## Output pins -/

/-- The output pins whose level a rule gives as a function of the state (R607, R614, R618, R622): true for high, none for a pin that
carries a clock or data. -/
def State.pinLevel (s : State) : Pin → Option Bool
  | .flRstN => some (!s.porLow)
  | .smbAlertN => some (!(decide (s.rf .mgtMctl mgtMctl_TXBUSY = 1)))
  | .lockdownN => some (!s.pinLockdown)
  | .thermtripN => some (!s.pinThermtrip)
  | .cartPwren j => some (decide ((tfind s.carts j).isSome))
  | .cartPerstN j => some (decide ((tfind s.carts j).isSome) && s.portsRun j && decide ((s.jrun j).heldTo ≤ s.now))
  | _ => none

/-! ## The test access port (R621) -/

/-- The instructions of the test access port. -/
inductive TapIns where
  | idcode | bypass | sample | extest | extestPulse | extestTrain | dbgport
  deriving DecidableEq, Repr

/-- What IDCODE returns. -/
def State.idcode (s : State) : Nat := s.rf .sysId sysId_REV % 16 * 2 ^ 28 + 0x9412 * 2 ^ 12 + 0x4A3 * 2 + 1

/-- The instruction that acts when one is given: itself when it is honoured, otherwise BYPASS. -/
def State.tapActs (s : State) (i : TapIns) : TapIns :=
  match i with
  | .idcode | .bypass | .sample => i
  | .extest | .extestPulse | .extestTrain => if s.porLow then i else .bypass
  | .dbgport => if s.mode = mdSELFTEST then .bypass else i

end Sys2Proof.Machine
end

