-- ==== Sys2Proof/WellFormed.lean ====
section
/-! DEFINITION. Well-formedness of a command: every operand lies in the range its field has, so that a term
that is not well formed spells no command of the device. Values that a field can hold and that the spec calls
reserved are NOT refused here: the meaning of the command treats them as the spec says. -/

namespace Sys2Proof

/-- Every operand field of the command lies in its range. -/
def Instr.wf : Instr → Bool
  | .add h rd ra rb => h.wf && decide (rd < 32) && decide (ra < 32) && decide (rb < 32)
  | .sub h rd ra rb => h.wf && decide (rd < 32) && decide (ra < 32) && decide (rb < 32)
  | .and h rd ra rb => h.wf && decide (rd < 32) && decide (ra < 32) && decide (rb < 32)
  | .or h rd ra rb => h.wf && decide (rd < 32) && decide (ra < 32) && decide (rb < 32)
  | .xor h rd ra rb => h.wf && decide (rd < 32) && decide (ra < 32) && decide (rb < 32)
  | .andn h rd ra rb => h.wf && decide (rd < 32) && decide (ra < 32) && decide (rb < 32)
  | .sll h rd ra rb => h.wf && decide (rd < 32) && decide (ra < 32) && decide (rb < 32)
  | .srl h rd ra rb => h.wf && decide (rd < 32) && decide (ra < 32) && decide (rb < 32)
  | .sra h rd ra rb => h.wf && decide (rd < 32) && decide (ra < 32) && decide (rb < 32)
  | .ror h rd ra rb => h.wf && decide (rd < 32) && decide (ra < 32) && decide (rb < 32)
  | .min h rd ra rb => h.wf && decide (rd < 32) && decide (ra < 32) && decide (rb < 32)
  | .max h rd ra rb => h.wf && decide (rd < 32) && decide (ra < 32) && decide (rb < 32)
  | .minu h rd ra rb => h.wf && decide (rd < 32) && decide (ra < 32) && decide (rb < 32)
  | .maxu h rd ra rb => h.wf && decide (rd < 32) && decide (ra < 32) && decide (rb < 32)
  | .clz h rd ra => h.wf && decide (rd < 32) && decide (ra < 32)
  | .ctz h rd ra => h.wf && decide (rd < 32) && decide (ra < 32)
  | .popc h rd ra => h.wf && decide (rd < 32) && decide (ra < 32)
  | .bswap h rd ra => h.wf && decide (rd < 32) && decide (ra < 32)
  | .sext h rd ra sel => h.wf && decide (rd < 32) && decide (ra < 32) && decide (sel < 32)
  | .zext h rd ra sel => h.wf && decide (rd < 32) && decide (ra < 32) && decide (sel < 32)
  | .slli h rd ra sh => h.wf && decide (rd < 32) && decide (ra < 32) && decide (sh < 64)
  | .srli h rd ra sh => h.wf && decide (rd < 32) && decide (ra < 32) && decide (sh < 64)
  | .srai h rd ra sh => h.wf && decide (rd < 32) && decide (ra < 32) && decide (sh < 64)
  | .rori h rd ra sh => h.wf && decide (rd < 32) && decide (ra < 32) && decide (sh < 64)
  | .addi h rd ra imm => h.wf && decide (rd < 32) && decide (ra < 32) && decide (imm < 1024)
  | .andi h rd ra imm => h.wf && decide (rd < 32) && decide (ra < 32) && decide (imm < 1024)
  | .ori h rd ra imm => h.wf && decide (rd < 32) && decide (ra < 32) && decide (imm < 1024)
  | .xori h rd ra imm => h.wf && decide (rd < 32) && decide (ra < 32) && decide (imm < 1024)
  | .movi h rd imm => h.wf && decide (rd < 32) && decide (imm < 65536)
  | .movs h rd imm => h.wf && decide (rd < 32) && decide (imm < 65536)
  | .ceq h pd ra rb => h.wf && decide (pd < 8) && decide (ra < 32) && decide (rb < 32)
  | .cne h pd ra rb => h.wf && decide (pd < 8) && decide (ra < 32) && decide (rb < 32)
  | .clt h pd ra rb => h.wf && decide (pd < 8) && decide (ra < 32) && decide (rb < 32)
  | .cge h pd ra rb => h.wf && decide (pd < 8) && decide (ra < 32) && decide (rb < 32)
  | .cltu h pd ra rb => h.wf && decide (pd < 8) && decide (ra < 32) && decide (rb < 32)
  | .cgeu h pd ra rb => h.wf && decide (pd < 8) && decide (ra < 32) && decide (rb < 32)
  | .ctst h pd ra rb => h.wf && decide (pd < 8) && decide (ra < 32) && decide (rb < 32)
  | .ceqi h pd ra imm => h.wf && decide (pd < 8) && decide (ra < 32) && decide (imm < 1024)
  | .cnei h pd ra imm => h.wf && decide (pd < 8) && decide (ra < 32) && decide (imm < 1024)
  | .clti h pd ra imm => h.wf && decide (pd < 8) && decide (ra < 32) && decide (imm < 1024)
  | .cgei h pd ra imm => h.wf && decide (pd < 8) && decide (ra < 32) && decide (imm < 1024)
  | .pand h pd pa pb => h.wf && decide (pd < 8) && decide (pa < 8) && decide (pb < 8)
  | .por h pd pa pb => h.wf && decide (pd < 8) && decide (pa < 8) && decide (pb < 8)
  | .pxor h pd pa pb => h.wf && decide (pd < 8) && decide (pa < 8) && decide (pb < 8)
  | .pandn h pd pa pb => h.wf && decide (pd < 8) && decide (pa < 8) && decide (pb < 8)
  | .pnot h pd pa => h.wf && decide (pd < 8) && decide (pa < 8)
  | .mul h rd ra rb => h.wf && decide (rd < 32) && decide (ra < 32) && decide (rb < 32)
  | .mulh h rd ra rb => h.wf && decide (rd < 32) && decide (ra < 32) && decide (rb < 32)
  | .mulhu h rd ra rb => h.wf && decide (rd < 32) && decide (ra < 32) && decide (rb < 32)
  | .mulhsu h rd ra rb => h.wf && decide (rd < 32) && decide (ra < 32) && decide (rb < 32)
  | .div h rd ra rb => h.wf && decide (rd < 32) && decide (ra < 32) && decide (rb < 32)
  | .divu h rd ra rb => h.wf && decide (rd < 32) && decide (ra < 32) && decide (rb < 32)
  | .rem h rd ra rb => h.wf && decide (rd < 32) && decide (ra < 32) && decide (rb < 32)
  | .remu h rd ra rb => h.wf && decide (rd < 32) && decide (ra < 32) && decide (rb < 32)
  | .dividerResult core => decide (core < 112)
  | .fadd h _ rd ra rb => h.wf && decide (rd < 32) && decide (ra < 32) && decide (rb < 32)
  | .fsub h _ rd ra rb => h.wf && decide (rd < 32) && decide (ra < 32) && decide (rb < 32)
  | .fmul h _ rd ra rb => h.wf && decide (rd < 32) && decide (ra < 32) && decide (rb < 32)
  | .fdiv h _ rd ra rb => h.wf && decide (rd < 32) && decide (ra < 32) && decide (rb < 32)
  | .fsqrt h _ rd ra => h.wf && decide (rd < 32) && decide (ra < 32)
  | .fmin h _ rd ra rb => h.wf && decide (rd < 32) && decide (ra < 32) && decide (rb < 32)
  | .fmax h _ rd ra rb => h.wf && decide (rd < 32) && decide (ra < 32) && decide (rb < 32)
  | .fmac h _ rd ra rb => h.wf && decide (rd < 32) && decide (ra < 32) && decide (rb < 32)
  | .fceq h _ pd ra rb => h.wf && decide (pd < 8) && decide (ra < 32) && decide (rb < 32)
  | .fclt h _ pd ra rb => h.wf && decide (pd < 8) && decide (ra < 32) && decide (rb < 32)
  | .fcle h _ pd ra rb => h.wf && decide (pd < 8) && decide (ra < 32) && decide (rb < 32)
  | .fcun h _ pd ra rb => h.wf && decide (pd < 8) && decide (ra < 32) && decide (rb < 32)
  | .fneg h _ rd ra => h.wf && decide (rd < 32) && decide (ra < 32)
  | .fabs h _ rd ra => h.wf && decide (rd < 32) && decide (ra < 32)
  | .fclass h _ rd ra => h.wf && decide (rd < 32) && decide (ra < 32)
  | .fcvtif h _ rd ra => h.wf && decide (rd < 32) && decide (ra < 32)
  | .fcvtuf h _ rd ra => h.wf && decide (rd < 32) && decide (ra < 32)
  | .fcvtfi h _ rd ra => h.wf && decide (rd < 32) && decide (ra < 32)
  | .fcvtfir h _ rd ra => h.wf && decide (rd < 32) && decide (ra < 32)
  | .fcvtfu h _ rd ra => h.wf && decide (rd < 32) && decide (ra < 32)
  | .fcvtff h _ rd ra => h.wf && decide (rd < 32) && decide (ra < 32)
  | .ldb h t m => h.wf && decide (t < 32) && m.wf
  | .ldh h t m => h.wf && decide (t < 32) && m.wf
  | .ldw h t m => h.wf && decide (t < 32) && m.wf
  | .ld h t m => h.wf && decide (t < 32) && m.wf
  | .ldbu h t m => h.wf && decide (t < 32) && m.wf
  | .ldhu h t m => h.wf && decide (t < 32) && m.wf
  | .ldwu h t m => h.wf && decide (t < 32) && m.wf
  | .stb h t m => h.wf && decide (t < 32) && m.wf
  | .sth h t m => h.wf && decide (t < 32) && m.wf
  | .stw h t m => h.wf && decide (t < 32) && m.wf
  | .st h t m => h.wf && decide (t < 32) && m.wf
  | .ldf32 h t m => h.wf && decide (t < 32) && m.wf
  | .ldf64 h t m => h.wf && decide (t < 32) && m.wf
  | .stf32 h t m => h.wf && decide (t < 32) && m.wf
  | .stf64 h t m => h.wf && decide (t < 32) && m.wf
  | .ldc h t m => h.wf && decide (t < 16) && m.wf
  | .stc h t m => h.wf && decide (t < 16) && m.wf
  | .ldres h t cb => h.wf && decide (t < 32) && decide (cb < 16)
  | .stcond h t cb pd => h.wf && decide (t < 32) && decide (cb < 16) && decide (pd < 8)
  | .ldresc h t cb => h.wf && decide (t < 16) && decide (cb < 16)
  | .stcondc h t cb pd => h.wf && decide (t < 16) && decide (cb < 16) && decide (pd < 8)
  | .gettag h t m => h.wf && decide (t < 32) && m.wf
  | .cleartag h t cb => h.wf && decide (t < 32) && decide (cb < 16)
  | .cleartagp h t cb => h.wf && decide (t < 32) && decide (cb < 16)
  | .cpyt h _ cs cb => h.wf && decide (cs < 16) && decide (cb < 16)
  | .br h off => h.wf && decide (off < 4194304)
  | .call h off => h.wf && decide (off < 4194304)
  | .jmp h ca => h.wf && decide (ca < 16)
  | .callc h ca => h.wf && decide (ca < 16)
  | .ret h => h.wf
  | .jmpx h src => h.wf && decide (src < 32)
  | .mfs h num rd rn => h.wf && decide (num < 128) && decide (rd < 32) && decide (rn < 32)
  | .mts h num src rn => h.wf && decide (num < 128) && decide (src < 32) && decide (rn < 32)
  | .mfsc h num cd => h.wf && decide (num < 128) && decide (cd < 16)
  | .mtsc h num ca => h.wf && decide (num < 128) && decide (ca < 16)
  | .loop h lvl _ len count => h.wf && decide (lvl < 4) && decide (len < 1024) && decide (count < 512)
  | .repElement h i => h.wf && i.wf
  | .cstep h cd ca gs => h.wf && decide (cd < 16) && decide (ca < 16) && decide (gs < 32)
  | .caim h cd ca gs => h.wf && decide (cd < 16) && decide (ca < 16) && decide (gs < 32)
  | .ctrim h cd ca gs => h.wf && decide (cd < 16) && decide (ca < 16) && decide (gs < 32)
  | .ctrimx h cd ca gs => h.wf && decide (cd < 16) && decide (ca < 16) && decide (gs < 32)
  | .cstrip h cd ca gs => h.wf && decide (cd < 16) && decide (ca < 16) && decide (gs < 32)
  | .ctether h cd ca => h.wf && decide (cd < 16) && decide (ca < 16)
  | .ccopy h cd ca => h.wf && decide (cd < 16) && decide (ca < 16)
  | .cvoid h cd ca => h.wf && decide (cd < 16) && decide (ca < 16)
  | .crdcur h ca gd => h.wf && decide (ca < 16) && decide (gd < 32)
  | .crdbase h ca gd => h.wf && decide (ca < 16) && decide (gd < 32)
  | .crdlen h ca gd => h.wf && decide (ca < 16) && decide (gd < 32)
  | .crdperm h ca gd => h.wf && decide (ca < 16) && decide (gd < 32)
  | .crdtype h ca gd => h.wf && decide (ca < 16) && decide (gd < 32)
  | .crdflag h ca gd => h.wf && decide (ca < 16) && decide (gd < 32)
  | .crdhi h ca gd => h.wf && decide (ca < 16) && decide (gd < 32)
  | .cclose h cd ca cs => h.wf && decide (cd < 16) && decide (ca < 16) && decide (cs < 16)
  | .copen h cd ca cs => h.wf && decide (cd < 16) && decide (ca < 16) && decide (cs < 16)
  | .ckdrop h cd ca gs => h.wf && decide (cd < 16) && decide (ca < 16) && decide (gs < 32)
  | .pass h ca => h.wf && decide (ca < 16)
  | .passr h ca => h.wf && decide (ca < 16)
  | .cross h ca => h.wf && decide (ca < 16)
  | .xreply h => h.wf
  | .ascend h => h.wf
  | .descend h => h.wf
  | .eret h => h.wf
  | .fence h => h.wf
  | .fencesl h => h.wf
  | .isync h => h.wf
  | .tlbiv h gs => h.wf && decide (gs < 32)
  | .tlbivs h gs => h.wf && decide (gs < 32)
  | .tlbivd h gs => h.wf && decide (gs < 32)
  | .tlbivsd h gs => h.wf && decide (gs < 32)
  | .tlbiall h => h.wf
  | .tlbialld h => h.wf
  | .handlerEnd h ca gs => h.wf && decide (ca < 16) && decide (gs < 32)
  | .savel h => h.wf
  | .saveh h => h.wf
  | .loadl h => h.wf
  | .loadh h => h.wf
  | .vspill h => h.wf
  | .vfill h => h.wf
  | .kcmd h cd ca gd => h.wf && decide (cd < 16) && decide (ca < 16) && decide (gd < 32)
  | .kcmdStatus => true
  | .vadd h es vd va vb => h.wf && decide (es < 4) && decide (vd < 32) && decide (va < 32) && decide (vb < 32)
  | .vsub h es vd va vb => h.wf && decide (es < 4) && decide (vd < 32) && decide (va < 32) && decide (vb < 32)
  | .vand h es vd va vb => h.wf && decide (es < 4) && decide (vd < 32) && decide (va < 32) && decide (vb < 32)
  | .vor h es vd va vb => h.wf && decide (es < 4) && decide (vd < 32) && decide (va < 32) && decide (vb < 32)
  | .vxor h es vd va vb => h.wf && decide (es < 4) && decide (vd < 32) && decide (va < 32) && decide (vb < 32)
  | .vandn h es vd va vb => h.wf && decide (es < 4) && decide (vd < 32) && decide (va < 32) && decide (vb < 32)
  | .vsll h es vd va vb => h.wf && decide (es < 4) && decide (vd < 32) && decide (va < 32) && decide (vb < 32)
  | .vsrl h es vd va vb => h.wf && decide (es < 4) && decide (vd < 32) && decide (va < 32) && decide (vb < 32)
  | .vsra h es vd va vb => h.wf && decide (es < 4) && decide (vd < 32) && decide (va < 32) && decide (vb < 32)
  | .vmin h es vd va vb => h.wf && decide (es < 4) && decide (vd < 32) && decide (va < 32) && decide (vb < 32)
  | .vmax h es vd va vb => h.wf && decide (es < 4) && decide (vd < 32) && decide (va < 32) && decide (vb < 32)
  | .vminu h es vd va vb => h.wf && decide (es < 4) && decide (vd < 32) && decide (va < 32) && decide (vb < 32)
  | .vmaxu h es vd va vb => h.wf && decide (es < 4) && decide (vd < 32) && decide (va < 32) && decide (vb < 32)
  | .vadds h es vd va vb => h.wf && decide (es < 4) && decide (vd < 32) && decide (va < 32) && decide (vb < 32)
  | .vaddsu h es vd va vb => h.wf && decide (es < 4) && decide (vd < 32) && decide (va < 32) && decide (vb < 32)
  | .vsubs h es vd va vb => h.wf && decide (es < 4) && decide (vd < 32) && decide (va < 32) && decide (vb < 32)
  | .vsubsu h es vd va vb => h.wf && decide (es < 4) && decide (vd < 32) && decide (va < 32) && decide (vb < 32)
  | .vabsd h es vd va vb => h.wf && decide (es < 4) && decide (vd < 32) && decide (va < 32) && decide (vb < 32)
  | .vmul h es vd va vb => h.wf && decide (es < 4) && decide (vd < 32) && decide (va < 32) && decide (vb < 32)
  | .vmulh h es vd va vb => h.wf && decide (es < 4) && decide (vd < 32) && decide (va < 32) && decide (vb < 32)
  | .vbcast h es vd ra => h.wf && decide (es < 4) && decide (vd < 32) && decide (ra < 32)
  | .vfadd h _ vd va vb => h.wf && decide (vd < 32) && decide (va < 32) && decide (vb < 32)
  | .vfsub h _ vd va vb => h.wf && decide (vd < 32) && decide (va < 32) && decide (vb < 32)
  | .vfmul h _ vd va vb => h.wf && decide (vd < 32) && decide (va < 32) && decide (vb < 32)
  | .vfmac h _ vd va vb => h.wf && decide (vd < 32) && decide (va < 32) && decide (vb < 32)
  | .vfmin h _ vd va vb => h.wf && decide (vd < 32) && decide (va < 32) && decide (vb < 32)
  | .vfmax h _ vd va vb => h.wf && decide (vd < 32) && decide (va < 32) && decide (vb < 32)
  | .vfneg h _ vd va => h.wf && decide (vd < 32) && decide (va < 32)
  | .vfabs h _ vd va => h.wf && decide (vd < 32) && decide (va < 32)
  | .vfcvtif h _ vd va => h.wf && decide (vd < 32) && decide (va < 32)
  | .vfcvtfi h _ vd va => h.wf && decide (vd < 32) && decide (va < 32)
  | .vfcvtfir h _ vd va => h.wf && decide (vd < 32) && decide (va < 32)
  | .vdot8 h vd va vb => h.wf && decide (vd < 32) && decide (va < 32) && decide (vb < 32)
  | .vdot8us h vd va vb => h.wf && decide (vd < 32) && decide (va < 32) && decide (vb < 32)
  | .vdot16 h vd va vb => h.wf && decide (vd < 32) && decide (va < 32) && decide (vb < 32)
  | .vmac h es vd va vb => h.wf && decide (es < 4) && decide (vd < 32) && decide (va < 32) && decide (vb < 32)
  | .vperm h vd va vb => h.wf && decide (vd < 32) && decide (va < 32) && decide (vb < 32)
  | .vredadd h es rd va => h.wf && decide (es < 4) && decide (rd < 32) && decide (va < 32)
  | .vredmin h es rd va => h.wf && decide (es < 4) && decide (rd < 32) && decide (va < 32)
  | .vredmax h es rd va => h.wf && decide (es < 4) && decide (rd < 32) && decide (va < 32)
  | .vredminu h es rd va => h.wf && decide (es < 4) && decide (rd < 32) && decide (va < 32)
  | .vredmaxu h es rd va => h.wf && decide (es < 4) && decide (rd < 32) && decide (va < 32)
  | .vfredadd h _ rd va => h.wf && decide (rd < 32) && decide (va < 32)
  | .vext h es rd va rb => h.wf && decide (es < 4) && decide (rd < 32) && decide (va < 32) && decide (rb < 32)
  | .vins h es vd ra rb => h.wf && decide (es < 4) && decide (vd < 32) && decide (ra < 32) && decide (rb < 32)
  | .vceq h es vd va vb => h.wf && decide (es < 4) && decide (vd < 32) && decide (va < 32) && decide (vb < 32)
  | .vclt h es vd va vb => h.wf && decide (es < 4) && decide (vd < 32) && decide (va < 32) && decide (vb < 32)
  | .vcltu h es vd va vb => h.wf && decide (es < 4) && decide (vd < 32) && decide (va < 32) && decide (vb < 32)
  | .vfceq h _ vd va vb => h.wf && decide (vd < 32) && decide (va < 32) && decide (vb < 32)
  | .vfclt h _ vd va vb => h.wf && decide (vd < 32) && decide (va < 32) && decide (vb < 32)
  | .vsel h es vd va vb => h.wf && decide (es < 4) && decide (vd < 32) && decide (va < 32) && decide (vb < 32)
  | .vany h pd va => h.wf && decide (pd < 8) && decide (va < 32)
  | .vall h pd va => h.wf && decide (pd < 8) && decide (va < 32)
  | .vsetvl h es rd ra => h.wf && decide (es < 4) && decide (rd < 32) && decide (ra < 32)
  | .vld h t m => h.wf && decide (t < 32) && m.wf
  | .vst h t m => h.wf && decide (t < 32) && m.wf
  | .vstf h t m => h.wf && decide (t < 32) && m.wf
  | .gather h _ sc _ _ vd va cb => h.wf && decide (sc < 8) && decide (vd < 32) && decide (va < 32) && decide (cb < 16)
  | .scatter h _ sc _ _ vd va cb => h.wf && decide (sc < 8) && decide (vd < 32) && decide (va < 32) && decide (cb < 16)
  | .mvReread n k => decide (n < 112) && decide (k < 2)
  | .mvWaitTimeout n k => decide (n < 112) && decide (k < 2)
  | .interruptReport n => decide (n < 640)
  | .holdEnd n => decide (n < 640)
  | .interruptAccept n k => decide (n < 112) && decide (k < 2)
  | .eoi q t _ => q.wf && decide (t < 224)
  | .cntsub q n _ => q.wf && decide (n < 640)
  | .pendWithdraw q n _ => q.wf && decide (n < 640)
  | .doorbell q _ => q.wf
  | .timerCompare k => decide (k < 16)
  | .masklimitExpiry n => decide (n < 112)
  | .buserrAsync n k => decide (n < 112) && decide (k < 2)
  | .handlerWatchdog n k => decide (n < 112) && decide (k < 2)
  | .farDataArrival n => decide (n < 48)
  | .prefetchRead n => decide (n < 48)
  | .storeBufferWrite n => decide (n < 112)
  | .tcmWriteFromOutside n _ _ mask => decide (n < 48) && decide (mask < 256)
  | .pairSelfTest p _ => decide (p < 24)
  | .pairTcmReload p => decide (p < 24)
  | .csParityCorrection core micro nano _ _ _ => decide (core < 112) && decide (micro < 8192) && decide (nano < 1024)
  | .mcsLoadreq q _ => q.wf
  | .mcsLoadComplete _ => true
  | .heatDecay => true
  | .placementMove _ => true
  | .give q _ => q.wf
  | .take q t => q.wf && decide (t < 4)
  | .ovfRead q => q.wf
  | .ceWriteback _ _ => true
  | .scrubRead pc f => decide (pc < 128) && decide (f ≤ 80)
  | .rowSparing pc _ => decide (pc < 128)
  | .retraining pc fin => decide (pc < 128) && decide (fin < 3)
  | .calnow q _ => q.wf
  | .retire q _ => q.wf
  | .drainingCopy pc => decide (pc < 128)
  | .retdone pc => decide (pc < 128)
  | .adv q _ => q.wf
  | .epochAdvanceComplete => true
  | .dbgAccess _ _ _ mask => decide (mask < 256)
  | .halt q n _ => q.wf && decide (n < 112)
  | .step q n _ => q.wf && decide (n < 112)
  | .coreHalted n => decide (n < 112)
  | .laneDoorbell f l _ => decide (f < 16) && decide (l < 16)
  | .ringDescriptorRead l => decide (l < 16)
  | .frameLanding l => decide (l < 16)
  | .laneStall l => decide (l < 16)
  | .formatFetch => true
  | .fload q _ => q.wf
  | .parse => true
  | .handlerStart => true
  | .deadline _ => true
  | .abortRedispatch n k => decide (n < 112) && decide (k < 2)
  | .abortEnd n k => decide (n < 112) && decide (k < 2)
  | .abortRelease n k => decide (n < 112) && decide (k < 2)
  | .recordSealing => true
  | .append => true
  | .cartridgeAck j _ => decide (j < 2)
  | .journalStall => true
  | .slotUnanswered j => decide (j < 2)
  | .mediaError j => decide (j < 2)
  | .responseRelease l => decide (l < 16)
  | .postBuffer f l _ => decide (f < 16) && decide (l < 16)
  | .responseBufferWait l => decide (l < 16)
  | .cartridgeInsert j _ => decide (j < 2)
  | .cartridgeRemove j => decide (j < 2)
  | .attestation j => decide (j < 2)
  | .attestationTimeout j => decide (j < 2)
  | .wearRead => true
  | .release q j _ => q.wf && decide (j < 2)
  | .resilver j => decide (j < 2)
  | .resilverComplete j => decide (j < 2)
  | .labelRewrite j => decide (j < 2)
  | .relseq q _ => q.wf
  | .go q _ => q.wf
  | .readOutComplete => true
  | .linkTraining l work => decide (l < 12) && decide (work < 16)
  | .admission l _ chain _ node _ _ => decide (l < 12) && decide (chain < 3) && decide (node < 1024)
  | .rekey l => decide (l < 12)
  | .heartbeat l => decide (l < 12)
  | .linkSilent l => decide (l < 12)
  | .flitReceive l fate lane => decide (l < 12) && decide (fate < 3) && decide (lane < 4)
  | .packetForward l p => decide (l < 12) && (p.wf)
  | .loadPacket l p => decide (l < 13) && (p.wf)
  | .storePacket l p => decide (l < 13) && (p.wf)
  | .passPacket l p => decide (l < 13) && (p.wf)
  | .lookup l p => decide (l < 13) && (p.wf)
  | .reg l p => decide (l < 13) && (p.wf)
  | .offer l p => decide (l < 13) && (p.wf)
  | .physrd l p => decide (l < 13) && (p.wf)
  | .physwr l p => decide (l < 13) && (p.wf)
  | .dataPacket l p => decide (l < 13) && (p.wf)
  | .ackPacket l p => decide (l < 13) && (p.wf)
  | .nack l p => decide (l < 13) && (p.wf)
  | .passreply l p => decide (l < 13) && (p.wf)
  | .lookreply l p => decide (l < 13) && (p.wf)
  | .mdata l p => decide (l < 13) && (p.wf)
  | .frame l p => decide (l < 13) && (p.wf)
  | .fresp l p => decide (l < 13) && (p.wf)
  | .lost l p => decide (l < 13) && (p.wf)
  | .join l p => decide (l < 13) && (p.wf)
  | .echo l p => decide (l < 13) && (p.wf)
  | .echoTimeout n => decide (n < 1024)
  | .remoteTimeout _ => true
  | .plotCacheExpiry _ => true
  | .forwardingExpiry _ => true
  | .claim q _ => q.wf
  | .plotRelease q _ => q.wf
  | .plotMigration => true
  | .remotePassServiceStart => true
  | .crossServiceStart q => decide (q < 64)
  | .crossTimeout n k => decide (n < 112) && decide (k < 2)
  | .eventReport _ => true
  | .depHoldEnd r => decide (r < 1024)
  | .retireNow q _ => q.wf
  | .readmit q _ => q.wf
  | .recordFree q r _ => q.wf && decide (r < 1024)
  | .recordAcknowledge q r _ => q.wf && decide (r < 1024)
  | .ageMeasurement d slack => decide (d < 96) && decide (slack < 65536)
  | .monitorSample m _ _ => decide (m < 32)
  | .snap q _ => q.wf
  | .clear q _ => q.wf
  | .selftest _ => true
  | .configure => true
  | .check q _ _ => q.wf
  | .checkComplete => true
  | .rctlGo q _ => q.wf
  | .sliceQuiesced => true
  | .quiesceTimeout => true
  | .fuseRoot _ => true
  | .warmReset => true
  | .readReg _ => true
  | .getId => true
  | .lock q _ => q.wf
  | .svncommit q _ => q.wf
  | .tamperCause _ _ => true
  | .lockdownClear => true
  | .ldcountProgram => true
  | .domainSwitchOn q d _ => q.wf && decide (d < 96)
  | .domainSwitchOff q d _ => q.wf && decide (d < 96)
  | .switchOnComplete d => decide (d < 96)
  | .dvfsRequest q j _ => q.wf && decide (j < 32)
  | .powerControl w => decide (w < 512)
  | .thermalLimit d t _ => decide (d < 96) && decide (t < 256)
  | .pllUnlock n => decide (n < 13)
  | .warmDeviceReset q _ => q.wf
  | .domainReset q _ => q.wf
  | .pairReset q _ => q.wf
  | .coreReset q _ => q.wf
  | .linkBlockReset q _ => q.wf
  | .slotBlockReset q _ => q.wf
  | .keyUnitReset q _ => q.wf
  | .monitorReset q _ => q.wf
  | .laneReset q _ => q.wf
  | .porN _ => true
  | .wrstN => true
  | .pePerstN _ => true
  | .thermtrip d => decide (d < 96)
  | .avsAckTimeout => true
  | .erase q _ => q.wf
  | .program q _ => q.wf
  | .flashRead q _ => q.wf
  | .flashOperationDone _ => true
  | .txgo q _ => q.wf
  | .mctpTransmissionDone => true
  | .mctpMessageReceived _ => true
  | .rxfull q _ => q.wf
  | .uartTransmit q _ => q.wf
  | .uartReceive b => decide (b < 256)
  | .uartRead q => q.wf
  | .rng _ flaw => decide (flaw < 3)
  | .hash _ flaw => decide (flaw < 3)
  | .pkverify _ flaw => decide (flaw < 3)
  | .enc _ flaw => decide (flaw < 3)
  | .dec _ flaw => decide (flaw < 3)
  | .macgen _ flaw => decide (flaw < 3)
  | .macver _ flaw => decide (flaw < 3)
  | .pinxlate _ flaw => decide (flaw < 3)
  | .arqc _ flaw => decide (flaw < 3)
  | .cvv _ flaw => decide (flaw < 3)
  | .sign _ flaw => decide (flaw < 3)
  | .verify _ flaw => decide (flaw < 3)
  | .rsadec _ flaw => decide (flaw < 3)
  | .kinfo _ flaw => decide (flaw < 3)
  | .kgen _ flaw => decide (flaw < 3)
  | .kimport _ flaw => decide (flaw < 3)
  | .kexport _ flaw => decide (flaw < 3)
  | .kdelete _ flaw => decide (flaw < 3)
  | .kagree _ flaw => decide (flaw < 3)
  | .reseed _ flaw => decide (flaw < 3)
  | .drbgReseed _ => true
  | .entropyHealthFail i => decide (i < 2)
  | .registerWrite q _ _ => q.wf
  | .pllLockRegained n => decide (n < 13)
  | .referenceClockLost => true
  | .referenceClockRestored => true
  | .avsAcknowledgement => true
  | .wrstNRise => true
  | .uartTransmitterEmpty => true
  | .flashOperationTimeout => true
  | .noEligiblePair => true
  | .oldKeyExpiry l => decide (l < 12)

end Sys2Proof
end

