-- ==== Sys2Proof/Tests/Slice0.lean ====
section
/-! SUPPORT. The model's own tests: one witness for each statement and clause that has hypotheses, the worked examples of the
specification, and terms that WellFormed refuses. -/

namespace Sys2Proof.Tests

open Sys2Proof Sys2Proof.Machine

set_option maxRecDepth 100000
set_option Elab.async false

/-! ## Small states -/

/-- The header of an unguarded instruction of context 0 of core 0. -/
def h0 : Hdr := ⟨0, 0, 0, false, none⟩

/-- s with the words of an instruction, with or without a REP prefix, at the program counter: in the prefetch queue of a P-core, in memory for
a W-core. -/
def codedAs (rep : Bool) (h : Hdr) (d : InsDef) (s : State) : State :=
  let E := mkEnv s h d rep
  let w := if E.pfx = 0 then E.ins else E.pfx + E.ins * 2 ^ 32
  if h.core < 48 then s.setCore h.core { s.core h.core with prefetch := [⟨E.pc, w, tINT, 0⟩] }
  else { s with mem := s.mem.setWord E.pc w tINT }

def coded (rep : Bool) (i : Instr) (s : State) : State :=
  match insOf i with
  | none => s
  | some (h, d) => codedAs rep h d s

/-- What an instruction knows of itself in s, whether or not it is an element of a REP. -/
def envAt (rep : Bool) (i : Instr) (s : State) : Env :=
  match insOf i with
  | some (h, d) => mkEnv (coded rep i s) h d rep
  | none => ⟨0, 0, 0, 4, 0, 0, false⟩

/-- The machine after the fetch of an instruction. -/
def fetchedAt (rep : Bool) (i : Instr) (s : State) : State :=
  (fetch ((coded rep i s).beginIssue (envAt rep i s).n) (envAt rep i s)).2

def ready (i : Instr) (s : State) : State := coded false i s
def envOf (i : Instr) (s : State) : Env := envAt false i s
def at1 (i : Instr) (s : State) : State := fetchedAt false i s

/-- The conditions of Fetches, computed. -/
def fetchesB (s : State) (E : Env) : Bool :=
  s.canIssue E.n E.k && decide ((s.ctx E.n E.k).due = none) && decide ((fetch (s.beginIssue E.n) E).1 = .word E.pfx E.ins)

theorem fetches_of {s : State} {E : Env} (w : fetchesB s E = true) : Fetches s E (fetch (s.beginIssue E.n) E).2 := by
  simp only [fetchesB, Bool.and_eq_true, decide_eq_true_eq] at w
  exact ⟨w.1.1, w.1.2, Prod.ext w.2 rfl⟩

/-- The conditions of Decodes, computed, but those of its fetch. -/
def decodesB (h : Hdr) (d : InsDef) (E : Env) (s1 : State) : Bool :=
  h.wf && (!(guardHolds s1 E h) || decide (s1.breakAt E.n 0 E.pc E.len = none)) && !d.reserved && !(badHeader h d)

/-- The further conditions of Reaches, computed. -/
def reachesB (h : Hdr) (d : InsDef) (E : Env) (s1 : State) : Bool :=
  guardHolds s1 E h && (!d.vector || decide (fld (seeSr s1 E nVSTATE) 0 0 = 1)) &&
  (!d.priv || (seeSup s1 E && (s1.pcc E.n E.k).has pSYS)) && decide (s1.csTrap E.n (d.routineAt E s1) = none)

/-- The conditions of Decoded and of Issued, computed. -/
def decodedB (i : Instr) (s : State) : Bool :=
  match insOf i with
  | some (h, d) => fetchesB (ready i s) (envOf i s) && decodesB h d (envOf i s) (at1 i s)
  | none => false

def issuedB (i : Instr) (s : State) : Bool :=
  match insOf i with
  | some (h, d) => fetchesB (ready i s) (envOf i s) && decodesB h d (envOf i s) (at1 i s) && reachesB h d (envOf i s) (at1 i s)
  | none => false

theorem decodes_of {h : Hdr} {d : InsDef} {s s1 : State} {E : Env} (f : Fetches s E s1) (e : E = mkEnv s h d false)
    (w : decodesB h d E s1 = true) : Decodes s h d E s1 := by
  simp only [decodesB, Bool.and_eq_true, Bool.or_eq_true, decide_eq_true_eq, Bool.not_eq_true'] at w
  obtain ⟨⟨⟨a, b⟩, c⟩, g⟩ := w
  refine ⟨f, a, e, fun z => ?_, c, g⟩
  rcases b with b | b
  · rw [z] at b; cases b
  · exact b

theorem reaches_of {h : Hdr} {d : InsDef} {s s1 : State} {E : Env} (w : Decodes s h d E s1) (r : reachesB h d E s1 = true) :
    Reaches s h d E s1 := by
  simp only [reachesB, Bool.and_eq_true, Bool.or_eq_true, decide_eq_true_eq, Bool.not_eq_true'] at r
  obtain ⟨⟨⟨a, b⟩, c⟩, e⟩ := r
  refine ⟨w, a, fun z => ?_, fun z => ?_, e⟩
  · simpa [z] using b
  · simpa [z] using c

theorem decoded_of {i : Instr} {s : State} (w : decodedB i s = true) : Decoded (ready i s) i (envOf i s) (at1 i s) := by
  unfold decodedB at w
  split at w
  · next h d e =>
    rw [Bool.and_eq_true] at w
    exact ⟨h, d, e, decodes_of (fetches_of w.1) (by simp [envOf, envAt, e, ready]) w.2⟩
  · cases w

theorem issued_of {i : Instr} {s : State} (w : issuedB i s = true) : Issued (ready i s) i (envOf i s) (at1 i s) := by
  unfold issuedB at w
  split at w
  · next h d e =>
    rw [Bool.and_eq_true, Bool.and_eq_true] at w
    exact ⟨h, d, e, reaches_of (decodes_of (fetches_of w.1.1) (by simp [envOf, envAt, e, ready]) w.1.2) w.2⟩
  · cases w

def noLoopEndB (s : State) (E : Env) : Bool :=
  (List.range 4).all (fun i => decide (fld (seeSr s E (nLCOUNT + i)) 31 0 = 0) || decide (fld (seeSr s E (nLEND + i)) 63 2 * 4 ≠ E.endAddr))

def noStepB (s : State) (E : Env) : Bool := !stSS (s.ctx E.n E.k).status || s.coreWorld E.n

theorem noLoopEnd_of {s : State} {E : Env} (h : noLoopEndB s E = true) : NoLoopEnd s E := by
  intro i hi
  have := List.all_eq_true.1 h i (List.mem_range.2 hi)
  simpa using this

theorem noStep_of {s : State} {E : Env} (h : noStepB s E = true) : NoStep s E := by
  simpa [noStepB, NoStep] using h

def straightB (s : State) (E : Env) : Bool := noLoopEndB s E && noStepB s E

theorem straight_of {s : State} {E : Env} (h : straightB s E = true) : Straight s E :=
  have h := (Bool.and_eq_true _ _).mp h
  ⟨noLoopEnd_of h.1, noStep_of h.2⟩

/-- Instruction i issues in s, reaches its execution, and nothing but itself says where the program goes on. -/
def goB (i : Instr) (s : State) : Bool := issuedB i s && straightB (at1 i s) (envOf i s)

theorem go_of {i : Instr} {s : State} (h : goB i s = true) :
    Issued (ready i s) i (envOf i s) (at1 i s) ∧ Straight (at1 i s) (envOf i s) :=
  have h := (Bool.and_eq_true _ _).mp h
  ⟨issued_of h.1, straight_of h.2⟩

/-- Where a routine finds the machine in which it goes on. -/
theorem pair_of {α β : Type} {r : α × β} {a : α} (h : r.1 = a) : r = (a, r.2) := by
  subst h; rfl

/-- The program of the tests, and their data. -/
def codeAt : Nat := 0x300000
def dataAt : Nat := 0x400000

/-- Context 0 at supervisor level, with a program counter at the program, c1 and c2 on data, and values in its registers. -/
def ctx0 : Ctx :=
  { Ctx.reset 0 0 false 0 with
      caps := [(1, rootMemory false (word dataAt)), (2, rootMemory false (word (dataAt + 0x100))), (15, rootMemory false (word codeAt))]
      g := [(1, 5), (2, 7), (3, 8)] }

/-- Core 0 with context x. -/
def core0 (x : Ctx) : Core := { Core.reset 0 false 0 with held := false, c0 := x }

/-- A device in OPERATE with core c, a pair of the open world, and m in its TCM, which holds the data. -/
def dev (c : Core) (m : Mem) : State :=
  { State.reset with
      regs := [(.sysMode, 2), (.rdgBase 1, 0), (.rdgLimit 1, 0x1800000000), (.rdgAttr 1, word (0xFFFF * 2 ^ 32 + 0xBD * 2 ^ 16 + 7))]
      cores := [(0, c)], mem := Mem.empty.setWord codeAt 0 tINT, tcms := [(0, m)]
      cfg := { ImgCfg.empty with pairs := [0], tcmRange := [(0, (dataAt, 2 ^ 19))] } }

/-- A data word. -/
def mem0 : Mem := Mem.empty.setWord dataAt 0x1122334455667788 tINT

def s0 : State := dev (core0 ctx0) mem0

/-- An ADD in s0: what it knows of itself, and the machine as it finds it. -/
def envAdd : Env := envOf (.add h0 3 1 2) s0
def atAdd : State := at1 (.add h0 3 1 2) s0

/-! ## Register instructions -/

theorem witness_immediates :
    (Claims.regImm.all (fun p => goB (p.1 h0 3 1 1023) s0) && goB (.movi h0 3 65535) s0 && goB (.movs h0 3 65535) s0 &&
      goB (.movs ⟨0, 0, 0, false, some 0xFFFFF⟩ 3 65535) s0) = true := by decide +kernel

theorem witness_compares :
    (Claims.cmp2.all (fun p => goB (p.1 h0 0 1 2) s0) && Claims.cmpImm.all (fun p => goB (p.1 h0 7 1 1023) s0) &&
      Claims.predLogic.all (fun p => goB (p.1 h0 7 1 2) s0)) = true := by decide +kernel

theorem witness_integer :
    (Claims.reg2.all (fun p => goB (p.1 h0 3 1 2) s0) && Claims.reg1.all (fun p => goB (p.1 h0 3 1) s0) &&
      Claims.shiftImm.all (fun p => goB (p.1 h0 3 1 63) s0)) = true := by
  decide +kernel

/-- A core whose divider is busy. -/
def sDiv : State := dev { core0 ctx0 with divBusy := true } mem0

theorem witness_divider : (sDiv.core (sDiv.unit 0)).divBusy = true ∧
    Claims.divide.all (fun p => goB (p.1 h0 3 1 2) sDiv && ((at1 (p.1 h0 3 1 2) sDiv).core 0).divBusy &&
      goB (p.1 h0 3 1 2) s0 && !((at1 (p.1 h0 3 1 2) s0).core 0).divBusy) = true := by decide +kernel

theorem witness_float :
    (Claims.float2.all (fun p => goB (p.1 h0 true 3 1 2) s0) && Claims.float1.all (fun p => goB (p.1 h0 false 3 1) s0) &&
      Claims.floatCmp.all (fun p => goB (p.1 h0 true 7 1 2) s0) && goB (.fmac h0 true 3 1 2) s0 && goB (.fdiv h0 true 3 1 2) s0 &&
      goB (.fsqrt h0 false 3 1) s0 && !((at1 (.fdiv h0 true 3 1 2) s0).core 0).divBusy && !((at1 (.fsqrt h0 false 3 1) s0).core 0).divBusy) = true := by decide +kernel

theorem witness_nan : (fmtOf true).isNan 0x7FC00001 = true ∧ (fmtOf true).isNan 0x7F800000 = false ∧ 0x7F800000 < 2 ^ (fmtOf true).width := by
  decide +kernel

/-! ## Loads and stores -/

/-- r answers a value for which f holds. -/
def okThen {α : Type} (r : Did α) (f : α → State → Bool) : Bool :=
  match r with
  | .ok v s => f v s
  | _ => false

/-- r answers a place and a state for which f holds. -/
def placed (r : Resolved × State) (f : List Chunk → State → Bool) : Bool :=
  match r.1 with
  | .ok cs => f cs r.2
  | _ => false

/-- r is one chunk of memory for which f holds. -/
def inMem (r : Resolved × State) (f : Chunk → Tgt → Nat → Bool → State → Bool) : Bool :=
  match r.1 with
  | .ok [⟨va, len, .mem t pa, se⟩] => f ⟨va, len, .mem t pa, se⟩ t pa se r.2
  | _ => false

/-- The instruction's end leaves the context in place. -/
def sameCore (s t : State) (E : Env) : Bool := decide ((t.core E.n).resets = (s.core E.n).resets)

/-- The access of a plain load. -/
def ldAcc : Acc := ⟨rootMemory false (word dataAt), 1, dataAt, 8, kLOAD, pm pLOAD, 0, 0, false, true, true⟩

theorem witness_load :
    let s := at1 (.add h0 3 1 2) s0
    let E := envOf (.add h0 3 1 2) s0
    inMem (resolve s E ldAcc) (fun c t pa _ s1 => decide (c.va = dataAt ∧ c.len = 8 ∧ E.n < 48) &&
      decide (∀ w, w ∈ wordsOf pa 8 → (s1.ctxMem E.n E.k t).tag w = tINT ∨ (s1.ctxMem E.n E.k t).tag w = tFLT) &&
      decide (s1.breakAt E.n 1 dataAt 8 = none)) = true := by decide +kernel

theorem witness_load_instructions :
    (Claims.loads.all (fun p => [0, 1, 2, 3].all (fun am =>
      let i := p.1 h0 3 ⟨1, am, 0⟩
      let s := dev (core0 { ctx0 with caps := [(1, rootMemory false (word (dataAt + if am = 3 then p.2.1 else 0))), (15, rootMemory false (word codeAt))]
                                      g := [] }) mem0
      let E := envOf i s
      issuedB i s && okThen (loadData (at1 i s) E (Claims.loadAcc ⟨1, am, 0⟩ (memOperand (at1 i s) E h0 ⟨1, am, 0⟩ p.2.1) p.2.1))
        (fun _ s2 => straightB s2 E && sameCore (at1 i s) s2 E)))) = true := by decide +kernel

theorem witness_store_instructions :
    (Claims.stores.all (fun p => [0, 2].all (fun am =>
      let i := p.1 h0 3 ⟨1, am, 0⟩
      let E := envOf i s0
      let s1 := at1 i s0
      issuedB i s0 && okThen (storeData s1 E (Claims.storeAcc ⟨1, am, 0⟩ (memOperand s1 E h0 ⟨1, am, 0⟩ p.2.1) p.2.1)
        ((rdG s1 E 0 3).toNat % 256 ^ p.2.1) p.2.2) (fun _ s2 => straightB s2 E && sameCore s1 s2 E)))) = true := by decide +kernel

/-- The access of a plain store. -/
def stAcc : Acc := { ldAcc with kind := kSTORE, perms := pm pSTORE }

theorem witness_stored :
    let s := at1 (.add h0 3 1 2) s0
    let E := envOf (.add h0 3 1 2) s0
    inMem (resolve s E stAcc) (fun c t pa _ s1 => decide (c.va = dataAt ∧ c.len = 8 ∧ (s1.ctx E.n E.k).tx.state = .none ∧ s1.cbOps E.n E.k t = []) &&
      (s1.viewMem E.n E.k t).wf && decide (storeTags s1 E 1 dataAt 9 tINT [c] = none ∧ s1.breakAt E.n 2 dataAt 8 = none ∧ pa = dataAt)) = true := by
  decide +kernel

/-- Memory that holds a capability at the data. -/
def memC : Mem := (Mem.empty.setWord dataAt 0x123 tCAPLO).setWord (dataAt + 8) 0x456 tCAPHI

def sC : State := dev (core0 ctx0) memC

theorem witness_capability_memory :
    (let i : Instr := .ldc h0 3 ⟨1, 0, 0⟩
      let s1 := at1 i sC
      let E := envOf i sC
      issuedB i sC && okThen (loadCap s1 E (Claims.loadCapAcc ⟨1, 0, 0⟩ (memOperand s1 E h0 ⟨1, 0, 0⟩ 16)))
        (fun _ s2 => straightB s2 E && sameCore s1 s2 E)) = true ∧
    (let i : Instr := .stc h0 1 ⟨1, 0, 0⟩
      let s1 := at1 i sC
      let E := envOf i sC
      issuedB i sC && okThen (storeCap s1 E (Claims.storeCapAcc ⟨1, 0, 0⟩ (memOperand s1 E h0 ⟨1, 0, 0⟩ 16) (rdC s1 E 0 1)) (rdC s1 E 0 1))
        (fun _ s2 => straightB s2 E && sameCore s1 s2 E)) = true := by decide +kernel

/-- The access of a capability load. -/
def capAcc : Acc := { ldAcc with size := 16, perms := pm pLOAD + pm pLOADCAP, align := 16 }

/-- A capability load of two words with tags a and b finds them. -/
def tagsRead (a b : Nat) : Bool :=
  let s := dev (core0 ctx0) ((Mem.empty.setWord dataAt 1 a).setWord (dataAt + 8) 2 b)
  let E := envOf (.add h0 3 1 2) s
  inMem (resolve (at1 (.add h0 3 1 2) s) E capAcc) (fun c t pa _ s1 => decide (c.va = dataAt ∧ c.len = 16 ∧ s1.breakAt E.n 1 dataAt 16 = none ∧
    (s1.ctxMem E.n E.k t).tag pa = a ∧ (s1.ctxMem E.n E.k t).tag (pa + 8) = b))

theorem witness_capability_tags :
    (tagsRead tCAPLO tCAPHI && tagsRead tINT tFLT && tagsRead tUNINIT tCAPHI && tagsRead tCAPHI tINT) = true := by decide +kernel

/-! ## Reservations -/

theorem witness_load_reserved :
    (let i : Instr := .ldres h0 3 1
      let s1 := at1 i s0
      let E := envOf i s0
      let a : Acc := ⟨rdC s1 E 8 1, 1, (rdC s1 E 8 1).cur, 8, kLOAD, pm pLOAD, 0, 8, true, false, false⟩
      issuedB i s0 && okThen (loadData s1 E a) (fun _ s2 => straightB s2 E && sameCore s1 s2 E) && (atomPlace s1 E a).isSome) = true ∧
    (let i : Instr := .ldresc h0 3 1
      let s1 := at1 i sC
      let E := envOf i sC
      let a : Acc := ⟨rdC s1 E 8 1, 1, (rdC s1 E 8 1).cur, 16, kLOAD, pm pLOAD + pm pLOADCAP, 0, 16, true, false, false⟩
      issuedB i sC && okThen (loadCap s1 E a) (fun _ s2 => straightB s2 E && sameCore s1 s2 E) && (atomPlace s1 E a).isSome) = true := by
  decide +kernel

/-- A device whose context 0 has reserved n bytes at the data. -/
def sRes (n : Nat) (cap : Bool) : State :=
  dev (core0 { ctx0 with resv := some ⟨dataAt, n, cap, .tcm 0, dataAt⟩ }) (if cap then memC else mem0)

/-- The conditions of a conditional store of a word, and whether the reservation covers it. -/
def condB (s : State) (covered : Bool) : Bool :=
  let i : Instr := .stcond h0 3 1 2
  let s1 := at1 i s
  let E := envOf i s
  let c := rdC s1 E 8 1
  issuedB i s && inMem (resolve s1 E ⟨c, 1, c.cur, 8, kSTORE, pm pSTORE, 0, 8, true, false, false⟩) (fun ch tg _ se s2 =>
    let s3 := (s2.drain E.n).maDue E.n E.k
    let put : Put := ⟨c.cur, tg, se, ch.dataOps c.cur (rdG s1 E 0 3).toNat tINT⟩
    decide (storeTags s2 E 1 c.cur (rdG s1 E 0 3).toNat tINT [ch] = none ∧ s2.breakAt E.n 2 c.cur 8 = none ∧
      (s2.ctx E.n E.k).tx.state = .none ∧ (s2.ctx E.n E.k).covers c.cur 8 false = covered) &&
    (if covered then straightB ((s3.perform E [put]).drain E.n) E else straightB s3 E))

/-- The same of a conditional store of a capability. -/
def condCapB (s : State) (covered : Bool) : Bool :=
  let i : Instr := .stcondc h0 2 1 3
  let s1 := at1 i s
  let E := envOf i s
  let c := rdC s1 E 8 1
  let v := rdC s1 E 0 2
  issuedB i s && inMem (resolve s1 E ⟨c, 1, c.cur, 16, kSTORE, storePerms v, storedRules c v, 16, true, false, false⟩) (fun _ tg pa se s2 =>
    let s3 := (s2.drain E.n).maDue E.n E.k
    let put : Put := ⟨c.cur, tg, se, capOps pa v⟩
    decide (capStoreTrap ((s2.checkMem E.n E.k tg).tag pa) ((s2.checkMem E.n E.k tg).tag (pa + 8)) 1 c.cur = none ∧
      s2.breakAt E.n 2 c.cur 16 = none ∧ (s2.ctx E.n E.k).tx.state = .none ∧ (s2.ctx E.n E.k).covers c.cur 16 true = covered) &&
    (if covered then straightB ((s3.perform E [put]).drain E.n) E else straightB s3 E))

theorem witness_store_conditional :
    (condB (sRes 8 false) true && condB s0 false && condB (sRes 4 false) false && condCapB (sRes 16 true) true && condCapB sC false) = true := by
  decide +kernel

/-! ## Addresses, views, tags -/

theorem witness_addresses : (⟨1, 3, 255⟩ : MemOp).payload < 256 ∧ (16 : Nat) ∈ [1, 2, 4, 8, 16] := by decide

/-- A write of a word at the data. -/
def putW : Put := ⟨dataAt, .tcm 0, false, [⟨dataAt, 0xFF, 5, .raw tINT⟩]⟩

theorem witness_view : s0.fate (envOf (.add h0 3 1 2) s0) putW.va putW.tgt putW.se putW.pa = .direct ∧
    (∀ o, o ∈ putW.ops → o.addr % 8 = 0 ∧ o.addr / 16 ≠ (dataAt + 16) / 16) := by decide +kernel

/-- The conditions of CLEARTAG and CLEARTAGP of count bytes: c1 on the data, w3 the count. -/
def clearB (p : (Hdr → Nat → Nat → Instr) × (Nat → Nat → InsDef) × Nat × Nat) (count : Nat) : Bool :=
  let s := dev (core0 { ctx0 with g := [(3, word count)] }) mem0
  let i := p.1 h0 3 1
  let s1 := at1 i s
  let E := envOf i s
  let s2 := routineState (p.2.1 3 1) E s1
  let after := afterRoutine (p.2.1 3 1) E s1
  let c := rdC s2 E 8 1
  let a := Claims.clearAcc c 1 count p.2.2.2
  issuedB i s && decide ((rdG s2 E 0 3).toNat = count ∧ resumePoint s2 E p.2.2.1 = 0 ∧ capCheck s2 E a = none ∧ c.cur % 8 = 0 ∧ count % 8 = 0) &&
  seeSup s2 E &&
  (if count = 0 then straightB (after (s2.progressEnd E)) E
   else decide (c.cur / 64 = (c.cur + count - 1) / 64 ∧ boundsCheck c 1 c.cur count = none ∧ (s2.ctx E.n E.k).tx.state = .none) &&
    inMem (chunkAt (s2.patience E).2 E a c.cur count) (fun ch tg pa se s3 =>
      decide (∀ w, w ∈ wordsOf pa count → (s3.checkMem E.n E.k tg).tag w < 7 ∧ (s3.checkMem E.n E.k tg).tag w ≠ tRETREC) && decide (s3.breakAt E.n 2 c.cur count = none) &&
      straightB (after (((s3.perform E [⟨c.cur, tg, se, (wordsOf pa count).map (fun w => ⟨w, 0xFF, 0, .raw p.2.2.2⟩)⟩]).sampleFar E (s3.farStores E [ch])).progressEnd
        E)) E))

theorem witness_tags :
    (let i : Instr := .gettag h0 3 ⟨1, 0, 0⟩
      let s1 := at1 i s0
      let E := envOf i s0
      let o := memOperand s1 E h0 ⟨1, 0, 0⟩ 8
      issuedB i s0 && inMem (resolve s1 E ⟨o.cap, 1, o.ea, 8, kLOAD, pm pLOAD, 0, 8, false, false, true⟩) (fun ch tg pa _ s2 =>
        decide ((s2.ctxMem E.n E.k tg).tag pa < 7 ∧ s2.breakAt E.n 1 o.ea 8 = none) && straightB ((s2.beforeLoad E [ch]).noteFar E [ch]) E)) = true ∧
    (Claims.clears.all (fun p => clearB p 0 && clearB p 8 && clearB p 64)) = true := by decide +kernel

/-! ## REP -/

/-- A state with an element of a REP at its program counter, what the issue knows of it, and the machine after its fetch. -/
def repS (h : Hdr) (d : InsDef) (s : State) : State := codedAs true h d s
def repE (h : Hdr) (d : InsDef) (s : State) : Env := mkEnv (repS h d s) h d true
def repF (h : Hdr) (d : InsDef) (s : State) : State := (fetch ((repS h d s).beginIssue h.core) (repE h d s)).2

/-- The conditions of RepReaches, computed. -/
def repB (h : Hdr) (d : InsDef) (s : State) : Bool :=
  let E := repE h d s
  let s1 := repF h d s
  fetchesB (repS h d s) E && h.wf && h.wide.isNone && decide (s1.breakAt E.n 0 E.pc E.len = none) && !d.reserved && !(badHeader h d) && d.repOk &&
  decide (fld (seeSr s1 E nRPT) 31 0 ≠ 0) && ((s1.ctx E.n E.k).inRep || guardHolds s1 E h) &&
  (!d.vector || decide (fld (seeSr s1 E nVSTATE) 0 0 = 1)) && (!d.priv || (seeSup s1 E && (s1.pcc E.n E.k).has pSYS)) &&
  decide (s1.csTrap E.n (d.element.routineAt E s1) = none)

theorem repReaches_of {h : Hdr} {d : InsDef} {s : State} (w : repB h d s = true) : RepReaches (repS h d s) h d (repE h d s) (repF h d s) := by
  simp only [repB, Bool.and_eq_true, Bool.or_eq_true, decide_eq_true_eq, Bool.not_eq_true', Option.isNone_iff_eq_none] at w
  obtain ⟨⟨⟨⟨⟨⟨⟨⟨⟨⟨⟨a, b⟩, c⟩, e⟩, f⟩, g⟩, i⟩, j⟩, k⟩, l⟩, m⟩, n⟩ := w
  refine ⟨fetches_of a, ⟨b, c⟩, rfl, e, ⟨f, g, i⟩, j, k, fun z => ?_, fun z => ?_, n⟩
  · simpa [z] using l
  · simpa [z] using m

/-- Context 0 with count elements of a REP to do. -/
def ctxRep (count : Nat) : Ctx := { ctx0 with sr := (nRPT, word count) :: ctx0.sr }

def sRep (count : Nat) : State := dev (core0 (ctxRep count)) mem0

/-- The conditions of a REP element that is completed by its own execution. -/
def elementB (h : Hdr) (d : InsDef) (s : State) : Bool :=
  let E := repE h d s
  let s1 := repF h d s
  repB h d s && (match d.run E (elementState d E s1) with
    | .done u false =>
      let v := afterElement d E s1 u
      sameCore s1 v E && decide (v.pc E.n E.k = E.pc ∧ seeSr v E nRPT = seeSr s1 E nRPT) && straightB v E
    | _ => false)

theorem witness_rep_element :
    (elementB h0 (insStb h0 3 ⟨1, 2, 0⟩) (sRep 1) && elementB h0 (insLd h0 3 ⟨1, 2, 0⟩) (sRep 2) &&
      elementB h0 (insStb h0 3 ⟨1, 2, 0⟩) (sRep 0xFFFFFFFF)) = true := by decide +kernel

/-- The conditions of a REP element that runs nothing: its count is zero, or its guard is false. -/
def idleElementB (h : Hdr) (d : InsDef) (s : State) : Bool :=
  let E := repE h d s
  let s1 := repF h d s
  fetchesB (repS h d s) E && h.wf && h.wide.isNone && decide (s1.breakAt E.n 0 E.pc E.len = none) && !d.reserved && d.repOk &&
  (decide (h.pred ≠ 0) || !h.inv) && straightB s1 E &&
  (((rdP s1 E 63 h.pred == h.inv) && !(s1.ctx E.n E.k).inRep) || decide (fld (seeSr s1 E nRPT) 31 0 = 0))

theorem witness_rep_idle :
    (idleElementB h0 (insStb h0 3 ⟨1, 2, 0⟩) (sRep 0) && idleElementB ⟨0, 0, 1, false, none⟩ (insStb h0 3 ⟨1, 2, 0⟩) (sRep 2)) = true := by
  decide +kernel

/-- The conditions of CPYT of a data word from c1 to c2, with count elements to do. -/
def cpytB (count : Nat) : Bool :=
  let s := sRep count
  let d := insCpyt 1 2
  let E := repE h0 d s
  let s1 := repF h0 d s
  let s2 := elementState d E s1
  let src := rdC s2 E 0 1
  let dst := rdC s2 E 8 2
  let a : Acc := ⟨src, 1, src.cur, 8 * count, kLOAD, pm pLOAD, 0, 0, false, false, false⟩
  let b : Acc := ⟨dst, 2, dst.cur, 8 * count, kSTORE, pm pSTORE, 0, 0, false, false, false⟩
  repB h0 d s && decide (fld (seeSr s2 E nRPT) 31 0 = count ∧ fld (seeSr s1 E nRPT) 31 0 = count ∧ capCheck s2 E a = none ∧
    capCheck s2 E b = none ∧ src.cur % 8 = 0 ∧ dst.cur % 8 = 0 ∧ src.cur % 16 = dst.cur % 16 ∧ rdC s1 E 0 1 = src ∧
    boundsCheck src 1 src.cur (8 * count) = none ∧ boundsCheck dst 2 dst.cur (8 * count) = none) &&
  inMem (chunkAt s2 E { a with size := 8 } src.cur 8) (fun c t pa se s3 =>
    inMem (chunkAt s3 E { b with size := 8 } dst.cur 8) (fun c' dt dpa de s4 =>
      let ops : List WOp := [⟨dpa, 0xFF, (s4.ctxMem E.n E.k t).word pa, .raw ((s4.ctxMem E.n E.k t).tag pa)⟩]
      let s5 := afterElement d E s1 (((s4.noteFar E [c]).perform E [⟨dst.cur, dt, de, ops⟩]).sampleFar E (s4.farStores E [c']))
      inMem (chunkAt s1 E { a with size := 8 } src.cur 8) (fun _ t' pa' se' _ => decide (t' = t ∧ pa' = pa ∧ se' = se)) &&
      decide ((s4.ctxMem E.n E.k t).tag pa = tINT ∧ (s1.ctxMem E.n E.k t).tag pa = (s4.ctxMem E.n E.k t).tag pa ∧
        (s4.checkMem E.n E.k dt).tag dpa < 7 ∧ (s4.checkMem E.n E.k dt).tag dpa ≠ tRETREC ∧ s4.breakAt E.n 1 src.cur 8 = none ∧
        s4.breakAt E.n 2 dst.cur 8 = none ∧ (s4.ctx E.n E.k).tx.state = .none ∧ s5.pc E.n E.k = E.pc ∧ seeSr s5 E nRPT = seeSr s2 E nRPT) &&
      straightB s5 E))

theorem witness_cpyt : (cpytB 1 && cpytB 2) = true := by decide +kernel

/-! ## Issue, exceptions, control transfers -/

/-- An instruction is decoded and its guard is false, or holds. -/
def guardB (v : Bool) (i : Instr) (s : State) : Bool :=
  match insOf i with
  | some (h, _) => decodedB i s && (rdP (at1 i s) (envOf i s) 63 h.pred == (if v then !h.inv else h.inv))
  | none => false

theorem witness_guard :
    (guardB false (.add ⟨0, 0, 1, false, none⟩ 3 1 2) s0 && guardB false (.tlbiall ⟨0, 0, 1, false, none⟩) s0 &&
      straightB (at1 (.add ⟨0, 0, 1, false, none⟩ 3 1 2) s0) (envOf (.add ⟨0, 0, 1, false, none⟩ 3 1 2) s0)) = true := by decide +kernel

/-- An instruction is fetched and its encoding is reserved. -/
def reservedB (i : Instr) (s : State) : Bool :=
  match insOf i with
  | some (h, d) =>
    let E := envOf i s
    h.wf && fetchesB (ready i s) E && decide ((at1 i s).breakAt E.n 0 E.pc E.len = none) &&
      (d.reserved || (decide (h.pred = 0) && h.inv) || (h.wide.isSome && !d.wideOk))
  | none => false

theorem witness_reserved :
    (reservedB (.ldc h0 15 ⟨1, 0, 0⟩) s0 && reservedB (.add ⟨0, 0, 0, true, none⟩ 3 1 2) s0 &&
      reservedB (.add ⟨0, 0, 0, false, some 0⟩ 3 1 2) s0) = true := by decide +kernel

/-- Context 0 at user level. -/
def ctxUser : Ctx := { ctx0 with sr := (nSTATUS, 8) :: ctx0.sr.tail }

def sUser : State := dev (core0 ctxUser) mem0

theorem witness_vlazy_priv :
    (guardB true (.vadd h0 2 3 1 2) s0 && (insVadd 2 3 1 2).vector &&
      decide (fld (seeSr (at1 (.vadd h0 2 3 1 2) s0) (envOf (.vadd h0 2 3 1 2) s0) nVSTATE) 0 0 = 0) &&
      guardB true (.tlbiall h0) sUser && insTlbiall.priv && !seeSup (at1 (.tlbiall h0) sUser) (envOf (.tlbiall h0) sUser)) = true := by
  decide +kernel

/-- The conditions of Enters, computed. -/
def entersB (s : State) (E : Env) : Bool :=
  !stEXL (s.seenStatus E.n E.k) && !stEXL (s.ctx E.n (other E.k)).status && stGM (s.seenStatus E.n E.k) &&
  decide (s.csTrap E.n (some rtENTRY) = none)

theorem witness_entry : (entersB atAdd envAdd && decide (envAdd.k < 2)) = true := by decide +kernel

/-- A device whose context 0 has status v. -/
def sStatus (v : Word) : State := dev (core0 { ctx0 with sr := (nSTATUS, v) :: ctx0.sr.tail }) mem0

theorem witness_single_step :
    let i : Instr := .add h0 3 1 2
    let s := sStatus 0x49
    let s1 := at1 i s
    let E := envOf i s
    (issuedB i s && noLoopEndB s1 E && stSS (s1.ctx E.n E.k).status && !s1.coreWorld E.n &&
      decide (s1.csTrap E.n (some rtENTRY) = none ∧ (s1.ctx E.n E.k).flights = []) &&
      !stEXL (s1.ctx E.n E.k).status && !stEXL (s1.ctx E.n (other E.k)).status) = true := by decide +kernel

/-- The instruction reaches its execution and the context does not single-step. -/
def runB (i : Instr) (s : State) : Bool := issuedB i s && noStepB (at1 i s) (envOf i s)

/-- The conditions of Target, computed. -/
def targetB (s : State) (E : Env) (c : Cap) : Bool :=
  c.valid && !c.isSealed && c.has pEXEC && (!c.world || (s.ctx E.n E.k).world) && decide (c.cur % 4 = 0)

/-- Context 0 with RSTK at the end of a stack of 256 bytes in the data. -/
def ctxStk (depth : Nat) : Ctx :=
  { ctx0 with csr := [(nRSTK, rootMemory false (word (dataAt + 0x200)))], sr := (nWDEPTH, word depth) :: ctx0.sr }

def sStk (depth : Nat) : State := dev (core0 (ctxStk depth)) mem0

/-- The push of a record passes its checks. -/
def pushB (i : Instr) (s : State) : Bool :=
  match pushCheck (at1 i s) (envOf i s) 16 with
  | .ok _ s2 => noStepB s2 (envOf i s)
  | _ => false

theorem witness_jumps :
    (runB (.br h0 0x3FFFFF) s0 && runB (.jmpx h0 1) s0 && decide (codeAt % 4 = 0) &&
      runB (.jmp h0 1) s0 && targetB (at1 (.jmp h0 1) s0) (envOf (.jmp h0 1) s0) (rdC (at1 (.jmp h0 1) s0) (envOf (.jmp h0 1) s0) 0 1) &&
      issuedB (.call h0 5) (sStk 15) && decide (seeDepth (at1 (.call h0 5) (sStk 15)) (envOf (.call h0 5) (sStk 15)) < 16) && pushB (.call h0 5) (sStk 15) &&
      issuedB (.callc h0 1) (sStk 0) && targetB (at1 (.callc h0 1) (sStk 0)) (envOf (.callc h0 1) (sStk 0)) (rdC (at1 (.callc h0 1) (sStk 0)) (envOf (.callc h0 1) (sStk 0)) 0 1) &&
      pushB (.callc h0 1) (sStk 0)) = true := by decide +kernel

theorem witness_push : mem0.wf = true ∧ (0x400200 : Nat) % 16 = 0 ∧
    ((s0.viewMem 0 0 (.tcm 0)).wf = true ∧ ∀ w, w ∈ [(0x100000001 : Nat), 0x300004] → w < 2 ^ 64) := by decide +kernel

/-- The TCM with the words ws, tagged RETREC, at RSTK. -/
def memRec (ws : List Nat) : Mem :=
  (List.range ws.length).foldl (fun m i => m.setWord (dataAt + 0x200 + 8 * i) (ws.getD i 0) tRETREC) Mem.empty

/-- The conditions of a return through a record of n words and kind k. -/
def returnB (ws : List Nat) (k : Nat) : Bool :=
  let s := dev (core0 (ctxStk 1)) (memRec ws)
  let i : Instr := .ret h0
  let s1 := at1 i s
  let E := envOf i s
  let s2 := routineState insRet E s1
  let d := seeDepth s2 E
  let r := seeCsr s2 E nRSTK
  let acc := fun (size kind perm : Nat) => routineAcc r 0 r.cur size kind (pm perm)
  let n := 8 * ws.length
  issuedB i s && decide (0 < d ∧ r.base ≤ r.cur ∧ r.cur + n ≤ r.top) && !rstkBad r &&
  placed (resolve s2 E (acc 16 kLOAD pLOAD)) (fun c1 s3 => placed (resolve s3 E (acc n kLOAD pLOAD)) (fun c2 s4 =>
    placed (resolve s4 E (acc n kSTORE pSTORE)) (fun _ s5 =>
      (match rawWords s3 E 0 r.cur c1 with
        | .ok l => decide (l = (ws.take 2).map (fun w => (w, tRETREC)))
        | _ => false) &&
      (match rawWords s4 E 0 r.cur c2 with
        | .ok l => decide (l = ws.map (fun w => (w, tRETREC)))
        | _ => false) &&
      decide (bits (ws.getD 0 0) 1 0 = k ∧ bits (ws.getD 0 0) 47 32 = fld (seeSr s4 E nCTXID) 15 0 ∧ bits (ws.getD 0 0) 20 16 = d - 1 ∧
        (k = 2 → ws.getD 7 0 = r.cur)) && noStepB s5 E)))

theorem witness_returns :
    (returnB [1, 0x300004] 1 && returnB [2, 0x300004, (rootMemory false 0).hi.toNat, 0, 0, 0, 0, dataAt + 0x200] 2) = true := by decide +kernel

/-- A gate at the data: code and data capability, and the word of its options. -/
def memGate (opts : Nat) : Mem :=
  let r := rootMemory false (word codeAt)
  ((((Mem.empty.setWord dataAt codeAt tCAPLO).setWord (dataAt + 8) r.hi.toNat tCAPHI).setWord (dataAt + 16) dataAt tCAPLO).setWord
    (dataAt + 24) r.hi.toNat tCAPHI).setWord (dataAt + 32) opts tINT

/-- A device whose context 0 holds a capability of the gate in c1. -/
def sGate (opts : Nat) : State :=
  dev (core0 { ctxStk 15 with caps := (1, (rootMemory false (word dataAt)).withFld 49 34 otGATE) :: ctx0.caps.tail }) (memGate opts)

/-- The conditions of PASS and PASSR through the gate in c1. -/
def passB (ro : Bool) (opts : Nat) : Bool :=
  let s := sGate opts
  let i : Instr := if ro then .passr h0 1 else .pass h0 1
  let s1 := at1 i s
  let E := envOf i s
  let s2 := routineState (insPass 1) E s1
  let g := rdC s2 E 0 1
  issuedB i s && g.valid && decide (g.otype = otGATE) && g.has pPASS && !g.has pDEVICE && (!g.world || (s2.ctx E.n E.k).world) &&
  decide (g.cur % 64 = 0 ∧ boundsCheck g 1 g.cur 64 = none) &&
  inMem (chunkAt s2 E ⟨g, 1, g.cur, 16, kLOAD, 0, 0, 0, false, false, true⟩ g.cur 64) (fun c _ _ _ s3 =>
    match ctxWords s3 E 1 g.cur [c] with
    | .ok ws =>
      decide (gateTags ws 1 g.cur = none ∧ seeDepth s3 E < 16) &&
      (match gateOf ws 1 g.cur ((s3.ctx E.n E.k).world) with
        | .ok d => (!ro || d.ro) && decide (d.code.cur % 4 = 0)
        | _ => false) &&
      (match pushCheck (s3.noteFar E [c]) E 64 with
        | .ok _ s4 => noStepB s4 E
        | _ => false)
    | _ => false)

theorem witness_pass : (passB false 0 && passB false 3 && passB true 2) = true := by decide +kernel

/-- A device whose context 0 has the loop registers of level 0 at the instruction, with a count. -/
def sLoop (count : Nat) : State :=
  dev (core0 { ctx0 with sr := [(nLSTART, word codeAt), (nLEND, word codeAt), (nLCOUNT, word count)] ++ ctx0.sr }) mem0

theorem witness_loops :
    (goB (.loop h0 3 true 1023 0) s0 && goB (.loop h0 0 false 0 16) s0 && decide (((at1 (.loop h0 3 true 1023 0) s0).ctx 0 0).flights = []) &&
      runB (.add h0 3 1 2) (sLoop 1) && runB (.add h0 3 1 2) (sLoop 2) && runB (.add h0 3 1 2) (sLoop 0) &&
      decide (((at1 (.add h0 3 1 2) (sLoop 2)).ctx 0 0).flights = [])) = true := by decide +kernel

/-- Core 0 in a handler on bank E, whose saved status and ceiling are given. -/
def sHandler (es ceil : Word) : State :=
  dev { core0 { ctx0 with sr := (nSTATUS, 0xD) :: ctx0.sr.tail } with
    inUse := 1, bankE := { Bank.reset with hcap := rootMemory false (word codeAt), e := [(1, 1)], br := [(nEPC, word codeAt), (nESTATUS, es), (nECEIL, ceil)] } } mem0

/-- The conditions of ERET. -/
def eretB (s : State) : Bool :=
  let i : Instr := .eret h0
  let s1 := at1 i s
  let E := envOf i s
  let es := s1.seenBank E.n E.k 1 nESTATUS
  let ceil := (s1.core E.n).bankE.r nECEIL
  runB i s && stSUP (s1.seenStatus E.n E.k) && stEXL (s1.seenStatus E.n E.k) && decide (s1.seenInUse E.n E.k ≠ 2) &&
  (!stSUP es || ceil.getLsbD 0) && (stWORLD es == ceil.getLsbD 1)

theorem witness_eret : (eretB (sHandler 8 0) && eretB (sHandler 9 1)) = true := by decide +kernel

/-- A device whose context 0, with a status, has c in ASC.ENTRY and ASC.RET. -/
def sAsc (st : Word) : State :=
  dev (core0 { ctx0 with sr := (nSTATUS, st) :: ctx0.sr.tail, csr := [(nASCENTRY, rootMemory false (word codeAt)), (nASCRET, rootMemory false (word codeAt))] }) mem0

/-- The conditions of ASCEND and DESCEND through the capability register that they go through. -/
def levelB (i : Instr) (s : State) (sup : Bool) (reg : Nat) : Bool :=
  let s1 := at1 i s
  let E := envOf i s
  let e := seeCsr s1 E reg
  runB i s && (seeSup s1 E == sup) && e.valid && e.has pEXEC && (e.world == (s1.ctx E.n E.k).world) && decide (e.cur % 4 = 0)

theorem witness_levels :
    (levelB (.ascend h0) (sAsc 8) false nASCENTRY && levelB (.descend h0) (sAsc 9) true nASCRET) = true := by decide +kernel

/-! ## State registers -/

/-- Supervisor level with SYS, computed. -/
def privB (s : State) (E : Env) : Bool := seeSup s E && (s.pcc E.n E.k).has pSYS

/-- The conditions of MFS by number, and by a register that holds the number. -/
def mfsB (s : State) (n : Nat) : Bool :=
  let i : Instr := .mfs h0 n 3 0
  goB i s && decide (stateNum (at1 i s) (envOf i s) n 0 = some n) && privB (at1 i s) (envOf i s)

/-- A value that each state register takes. -/
def srValue (n : Nat) : Word := if n = nVSTATE then 0x4000 else if n = nIPTSIZE then 128 else if n = nECAUSE then 1 else 0x10

/-- No loop ends at the instruction, whatever the counts. -/
def endsElsewhereB (s : State) (E : Env) : Bool :=
  (List.range 4).all (fun i => decide (fld (seeSr s E (nLEND + i)) 63 2 * 4 ≠ E.endAddr))

theorem noLoopEnd_of_ends {s : State} {E : Env} (h : endsElsewhereB s E = true) : NoLoopEnd s E := by
  intro i hi
  have := List.all_eq_true.1 h i (List.mem_range.2 hi)
  exact .inr (by simpa using this)

/-- The conditions of MTS of w1. -/
def mtsB (s : State) (n : Nat) : Bool :=
  let i : Instr := .mts h0 n 1 0
  let s := s.setCtx 0 0 { s.ctx 0 0 with g := [(1, srValue n)] }
  let s1 := at1 i s
  let E := envOf i s
  goB i s && decide (stateNum s1 E n 0 = some n) && !srReserved n (rdG s1 E 0 1) && privB s1 E &&
  (match writeSr s1 E n (rdG s1 E 0 1) with
    | .ok u => (if nLCOUNT ≤ n then endsElsewhereB u E else noLoopEndB u E) && noStepB u E
    | _ => true)

theorem witness_state_registers :
    ((nSTATUS :: Claims.contextSr.map Prod.fst).all (mfsB s0) && (Claims.coreSr.map Prod.fst).all (mfsB s0) &&
      (Claims.bankSr.map Prod.fst).all (mfsB (sHandler 8 0)) && stEXL (seeStatus (sHandler 8 0) envAdd) &&
      goB (.mfsc h0 nRSTK 3) sUser && goB (.mfsc h0 nVAREA 3) s0 && privB atAdd envAdd) = true := by decide +kernel

theorem witness_state_register_writes :
    ((Claims.contextSr.map Prod.fst).all (mtsB s0) && (Claims.coreSr.map Prod.fst).all (mtsB s0) &&
      (Claims.bankSr.map Prod.fst).all (mtsB (sHandler 8 0)) && mtsB s0 nSTATUS && goB (.mtsc h0 nVAREA 1) s0 && goB (.mts h0 nRPT 1 0) sUser) = true := by
  decide +kernel

/-! ## Capabilities -/

/-- An instruction runs straight on, and its source in c1 is valid and unsealed. -/
def deriveB (i : Instr) : Bool :=
  let c := rdC (at1 i s0) (envOf i s0) 0 1
  goB i s0 && c.valid && !c.isSealed

/-- CTRIM and CTRIMX of c1 to the length in w1. -/
def trimB (exact : Bool) : Bool :=
  let i : Instr := if exact then .ctrimx h0 4 1 1 else .ctrim h0 4 1 1
  deriveB i && ((rdC (at1 i s0) (envOf i s0) 0 1).trim (rdG (at1 i s0) (envOf i s0) 1 1).toNat exact).isSome

theorem witness_derivation :
    (Claims.derive.all (fun p => deriveB (p.1 h0 4 1 2)) && trimB true && trimB false && goB (.ccopy h0 4 1) s0 && goB (.cvoid h0 4 1) s0 &&
      Claims.field.all (fun p => goB (p.1 h0 1 3) s0)) = true := by decide +kernel

theorem witness_bounds :
    let c := rootMemory false (word dataAt)
    (c.valid && decide (c.otype ≠ otKEY) && (c.trim 5 true).isSome && (c.trim (2 ^ 40) false).isSome) = true := by decide +kernel

/-- A device whose context 0 holds a in c1 and b in c2. -/
def sCaps (a b : Cap) : State := dev (core0 { ctx0 with caps := (1, a) :: (2, b) :: ctx0.caps.tail.tail }) mem0

/-- A sealing authority that points at an object type. -/
def authority (t : Nat) : Cap := { rootSealing false with cursor := word t }

/-- The conditions of CCLOSE of c1 with the authority of a type in c2. -/
def closeB (ot : Nat) : Bool :=
  let s := sCaps (rootMemory false (word dataAt)) (authority ot)
  let i : Instr := .cclose h0 4 1 2
  let s1 := at1 i s
  let E := envOf i s
  let t := rdC s1 E 0 1
  let a := rdC s1 E 1 2
  goB i s && t.valid && !t.isSealed && a.valid && !a.isSealed && a.has pSEAL && a.has pSYS && seeSup s1 E &&
  decide (a.base ≤ a.cur ∧ a.cur < a.top ∧ 0 < a.cur ∧ a.cur ≤ 0xFFF4 ∧ a.cur ∉ [0xFFF1, 0xFFF2, 0xFFF3])

/-- The conditions of COPEN of a capability of a type in c1. -/
def openB (ot : Nat) : Bool :=
  let s := sCaps ((rootMemory false (word dataAt)).withFld 49 34 ot) (authority ot)
  let i : Instr := .copen h0 4 1 2
  let s1 := at1 i s
  let E := envOf i s
  let t := rdC s1 E 0 1
  let a := rdC s1 E 1 2
  goB i s && t.valid && a.valid && !a.isSealed && a.has pUNSEAL &&
  decide (0 < t.otype ∧ t.otype < 0xFFF0 ∧ a.cur = t.otype ∧ a.base ≤ a.cur ∧ a.cur < a.top)

/-- The conditions of CKDROP of a key object in c1. -/
def dropB : Bool :=
  let s := sCaps ⟨7, word (2 ^ 60 + otKEY * 2 ^ 34), true⟩ Cap.null
  let i : Instr := .ckdrop h0 4 1 1
  let k := rdC (at1 i s) (envOf i s) 0 1
  goB i s && k.valid && decide (k.otype = otKEY)

theorem witness_sealing : (closeB 1 && closeB 0xFFEF && closeB 0xFFF0 && closeB 0xFFF4 && openB 1 && openB 0xFFEF && dropB) = true := by
  decide +kernel

/-! ## Barriers, TLB, save areas, vector areas -/

/-- The conditions of FENCE and FENCESL. -/
def fenceB (sl : Bool) : Bool :=
  let i : Instr := if sl then .fencesl h0 else .fence h0
  issuedB i s0 && straightB (((at1 i s0).drain 0).maDue 0 0) (envOf i s0)

/-- A device whose pair 0 is of the sealed world, with its program in the sealed region, above the key store. -/
def sSealed : State :=
  { s0 with
      cores := [(0, core0 { ctx0 with caps := [(15, rootMemory true (word 0x5000000))], sr := (nSTATUS, 0xB) :: ctx0.sr.tail })]
      cfg := { s0.cfg with sealedPairs := [0], sealedSize := 2 ^ 28 }
      regs := (.rdgAttr 1, word (0xFFFF * 2 ^ 32 + 0xBD * 2 ^ 16 + 0xFF)) :: s0.regs }

/-- ISYNC runs on from the machine in which its core has drained and forgotten old words of memory. -/
def isyncB : Bool :=
  let s2 := (at1 (.isync h0) s0).drain 0
  issuedB (.isync h0) s0 && straightB (s2.setCore 0 { s2.core 0 with oldCode := [] }) (envOf (.isync h0) s0)

theorem witness_barriers :
    (fenceB true && fenceB false && isyncB && goB (.tlbivs h0 1) sSealed && goB (.tlbivsd h0 1) sSealed &&
      ((at1 (.tlbivs h0 1) sSealed).ctx 0 0).world &&
      goB (.tlbiall h0) s0 && goB (.tlbialld h0) s0 && goB (.tlbiv h0 1) s0 && goB (.tlbivd h0 1) s0) = true := by decide +kernel

/-- A save area at the data that is its own link, all its words tagged INT and of format 1. -/
def memChain : Mem :=
  let r := rootMemory false (word dataAt)
  ((⟨[(dataAt, 1)], (List.range 30).map (fun i => (dataAt + 8 * i, tINT))⟩ : Mem).setWord (dataAt + 0xF0) dataAt tCAPLO).setWord
    (dataAt + 0xF8) r.hi.toNat tCAPHI

/-- A device whose SAREA is the chain, with a status. -/
def sArea (st : Word) : State :=
  dev { core0 { ctx0 with csr := [(nSAREA, rootMemory false (word dataAt))], sr := (nSTATUS, st) :: ctx0.sr.tail } with
    inUse := if stEXL st then 1 else 0, bankE := { Bank.reset with hcap := rootMemory false (word codeAt) } } memChain

/-- The conditions of Whole, computed. -/
def wholeB (s : State) (E : Env) (routine : Nat) : Bool :=
  decide (resumePoint s E routine = 0 ∧ (s.ctx E.n E.k).flights = []) && !s.acceptable E.n E.k

/-- The chain of an instruction is accepted. -/
def chained (r : StackDid (List Area)) (f : List Area → State → Bool) : Bool :=
  match r with
  | .ok as s => f as s
  | _ => false

/-- Every area is one run of memory. -/
def backedB (as : List Area) : Bool :=
  as.all (fun a => match a.cs with
    | [⟨va, len, .mem _ _, _⟩] => decide (va = a.cap.cur ∧ len = 256)
    | _ => false)

/-- The conditions of a save. -/
def saveB (p : (Hdr → Instr) × InsDef × Nat × Nat × Nat) : Bool :=
  let i := p.1 h0
  let s := sArea 9
  let E := envOf i s
  let s2 := routineState p.2.1 E (at1 i s)
  issuedB i s && chained (chain s2 E true p.2.2.2.1 (p.2.2.2.2 + 1) 0 (seeCsr s2 E nSAREA) none) (fun as s3 =>
    let ws := as.filter (fun a => decide (p.2.2.2.1 ≤ a.no))
    decide (linkBreak s3 E as = none) && backedB as && wholeB s3 E p.2.2.1 &&
    ws.all (fun a => decide (saveTagTrap s3 E a = none ∧ s3.breakAt E.n 2 a.cap.cur 240 = none)) &&
    straightB (afterRoutine p.2.1 E (at1 i s) (Claims.saveAreas s3 E ws s3)) E)

/-- The words of an area are read and accepted. -/
def areaB (s : State) (E : Env) (a : Area) : Bool :=
  match rawWords s E 0xE a.cap.cur a.cs with
  | .ok ws => decide (areaTags a.no a.cap.cur ws = none ∧ areaFormat s E a.no a.cap.cur ws = none ∧
      s.breakAt E.n 1 a.cap.cur (8 * wordsRead a.no) = none)
  | _ => false

/-- The conditions of LOADL and LOADH over n areas. -/
def loadB (i : Instr) (d : InsDef) (routine n : Nat) (st : Word) : Bool :=
  let s := sArea st
  let E := envOf i s
  let s2 := routineState d E (at1 i s)
  issuedB i s && chained (chain s2 E false (if n = 3 then 0 else 3) n 0 (seeCsr s2 E nSAREA) none) (fun as s3 =>
    let used := if n = 3 then as else as.filter (fun a => decide (3 ≤ a.no))
    let s4 := afterRoutine d E (at1 i s) (used.foldl (fun s a => s.noteFar E a.cs) s3)
    decide (as.length = n ∧ linkBreak s3 E as = none) && wholeB s3 E routine && used.all (areaB s3 E) && straightB s4 E)

theorem witness_saves : (saveB (.savel, insSavel, rtSAVEL, 0, 2) && saveB (.saveh, insSaveh, rtSAVEH, 3, 12)) = true := by decide +kernel

theorem witness_save_words : dataAt % 256 = 0 ∧ (12 : Nat) < 13 ∧ ((sArea 9).viewMem 0 0 (.tcm 0)).wf = true := by decide +kernel

theorem witness_loads_of_areas :
    (loadB (.loadl h0) insLoadl rtLOADL 3 9 && loadB (.loadl h0) insLoadl rtLOADL 3 0xD && loadB (.loadh h0) insLoadh rtLOADH 13 9) = true := by
  decide +kernel

/-- A device with a vector area at the data in VAREA, and in VHOLD when held. -/
def sVec (vstate : Word) (held : Bool) (m : Mem) : State :=
  dev (core0 { ctx0 with sr := (nVSTATE, vstate) :: ctx0.sr
                         csr := [(nVAREA, rootMemory false (word dataAt)), (nVHOLD, { rootMemory false (word dataAt) with tag := held })] }) m

/-- A TCM with a vector area at the data. -/
def memVec : Mem := ⟨[(dataAt, 1)], (List.range 256).map (fun i => (dataAt + 8 * i, tINT))⟩

/-- The conditions of VSPILL of a held area and of none, and of VFILL of a filled area and of an empty one. -/
def vareaB (i : Instr) (d : InsDef) (routine : Nat) (s : State) (reg : Nat) (wr access : Bool) : Bool :=
  let E := envOf i s
  let s1 := at1 i s
  let s2 := routineState d E s1
  let c := seeCsr s2 E reg
  issuedB i s && decide ((s2.ctx E.n E.k).flights = []) &&
  (if access then (match vecArea s2 E c 0 wr with
    | .ok [⟨va, 2048, .mem tg pa, se⟩] s3 => decide (va = c.cur ∧ pa % 64 = 0) && wholeB s3 E routine && straightB s3 E &&
        straightB (afterRoutine d E s1 (s3.noteFar E [⟨c.cur, 2048, .mem tg pa, se⟩])) E &&
        (List.range 32).all (fun i => decide (s3.breakAt E.n (if wr then 2 else 1) (c.cur + 64 * i) 64 = none)) &&
        (if wr then (s3.viewMem E.n E.k tg).wf && decide ((s3.viewMem E.n E.k tg).tags = [(pa, tINT)])
          else decide ((s3.viewMem E.n E.k tg).tags = (List.range 256).map (fun i => (pa + 8 * i, tINT))))
    | _ => false)
   else wholeB s2 E routine && straightB (afterRoutine d E s1 s2) E)

theorem witness_vector_areas :
    (vareaB (.vspill h0) insVspill rtVSPILL (sVec 1 true mem0) nVHOLD true true && (seeCsr (sVec 1 true mem0) envAdd nVHOLD).tag &&
      vareaB (.vspill h0) insVspill rtVSPILL (sVec 1 false mem0) nVHOLD true false && !(seeCsr (sVec 1 false mem0) envAdd nVHOLD).tag &&
      vareaB (.vfill h0) insVfill rtVFILL (sVec 2 false memVec) nVAREA false true && flag (seeSr (sVec 2 false memVec) envAdd nVSTATE) 1 &&
      vareaB (.vfill h0) insVfill rtVFILL (sVec 0 false mem0) nVAREA false false && !flag (seeSr (sVec 0 false mem0) envAdd nVSTATE) 1) = true := by
  decide +kernel

/-! ## Vectors -/

/-- A device whose vector unit is on, with an active length of 64 bytes and values in its registers. -/
def sV : State :=
  dev (core0 { ctx0 with sr := (nVSTATE, 0x4003) :: ctx0.sr, vec := [(1, 0x0102030405060708), (2, 8)] }) mem0

theorem witness_vectors :
    (Claims.vec2.all (fun p => goB (p.1 h0 3 3 1 2) sV) && goB (.vadd h0 0 3 1 2) sV && Claims.vecF.all (fun p => goB (p.1 h0 true 3 1 2) sV) &&
      Claims.vecCvt.all (fun p => goB (p.1 h0 false 3 1) sV) && Claims.dots.all (fun p => goB (p.1 h0 3 1 2) sV) && goB (.vbcast h0 3 3 1) sV &&
      goB (.vperm h0 3 1 2) sV && goB (.vins h0 3 3 1 2) sV) = true := by decide +kernel

theorem witness_vector_results :
    (Claims.reductions.all (fun p => goB (p.1 h0 3 3 1) sV) && goB (.vfredadd h0 true 3 1) sV && goB (.vext h0 0 3 1 2) sV &&
      goB (.vany h0 1 1) sV && goB (.vall h0 0 1) sV && goB (.vsetvl h0 3 3 1) sV &&
      decide (((at1 (.vsetvl h0 3 3 1) sV).ctx 0 0).flights = [] ∧ min (rdG (at1 (.vsetvl h0 3 3 1) sV) (envOf (.vsetvl h0 3 3 1) sV) 0 1).toNat 8 ≠ 0)) = true := by
  decide +kernel

/-- A device whose active length is vl bytes, with data in the TCM and the indices in v1. -/
def sVm (vl : Nat) : State :=
  dev (core0 { ctx0 with sr := (nVSTATE, word (3 + 256 * vl)) :: ctx0.sr, vec := [(1, 0x0000000800000000)] })
    ⟨[(dataAt, 1)], (List.range 64).map (fun i => (dataAt + 8 * i, tINT))⟩

/-- What every element of a gather or scatter of two words finds; the addresses of its elements. -/
def elementsB (wr : Bool) : Bool :=
  let i : Instr := if wr then .scatter h0 false 0 false false 3 1 1 else .gather h0 false 0 false false 3 1 1
  let s := sVm 8
  let s1 := at1 i s
  let E := envOf i s
  let c := rdC s1 E 8 1
  let at' := Claims.elemAddr c 32 0 false (rdV s1 E 0 1)
  issuedB i s && (match gatherAddrs s1 E (fun j => Claims.elemAccess c 1 32 (if wr then kSTORE else kLOAD) (if wr then pSTORE else pLOAD) (at' j))
      (List.range (seeVL s1 E / 4)) with
    | .ok [(0, [⟨a0, 4, .mem t0 p0, e0⟩]), (1, [⟨a1, 4, .mem t1 p1, e1⟩])] s2 =>
      let ch := fun (j : Nat) => [if j = 0 then (⟨a0, 4, .mem t0 p0, e0⟩ : Chunk) else ⟨a1, 4, .mem t1 p1, e1⟩]
      decide (a0 = (at' 0).toNat ∧ a1 = (at' 1).toNat) &&
      (if wr then
        decide ((s2.ctx E.n E.k).tx.state = .none) && [0, 1].all (fun j =>
          decide (storeTags s2 E 1 (at' j).toNat (Claims.el 32 (rdV s1 E 1 3) j).toNat tINT (ch j) = none ∧ s2.breakAt E.n 2 (at' j).toNat 4 = none)) &&
        straightB ((List.range 2).foldl (fun s j => (s.perform E (dataPuts (ch j) (at' j).toNat (Claims.el 32 (rdV s1 E 1 3) j).toNat tINT)).sampleFar E
          (s.farStores E (ch j))) s2) E
       else
        [0, 1].all (fun j => decide (s2.breakAt E.n 1 (at' j).toNat 4 = none)) &&
        (wordsOf p0 4).all (fun w => decide ((s2.ctxMem E.n E.k t0).tag w = tINT)) &&
        (wordsOf p1 4).all (fun w => decide ((s2.ctxMem E.n E.k t1).tag w = tINT)) &&
        straightB ((List.range 2).foldl (fun s j => s.farLoad E (ch j)) (s2.beforeLoad E ((List.range 2).flatMap ch))) E)
    | _ => false)

theorem witness_gather_scatter : (elementsB false && elementsB true) = true := by decide +kernel

theorem witness_vector_memory :
    (let i : Instr := .vld h0 3 ⟨1, 2, 0⟩
      let s := sVm 64
      let s1 := at1 i s
      let E := envOf i s
      let vl := seeVL s1 E
      issuedB i s && okThen (loadData s1 E (Claims.vecAccess ⟨1, 2, 0⟩ (memOperand s1 E h0 ⟨1, 2, 0⟩ vl) vl kLOAD pLOAD))
        (fun _ s2 => straightB s2 E && sameCore s1 s2 E)) = true ∧
    ([false, true].all (fun f =>
      let i : Instr := if f then .vstf h0 3 ⟨1, 0, 0⟩ else .vst h0 3 ⟨1, 0, 0⟩
      let s := sVm 64
      let s1 := at1 i s
      let E := envOf i s
      let vl := seeVL s1 E
      issuedB i s && okThen (storeData s1 E (Claims.vecAccess ⟨1, 0, 0⟩ (memOperand s1 E h0 ⟨1, 0, 0⟩ vl) vl kSTORE pSTORE)
        ((rdV s1 E 0 3).toNat % 256 ^ vl) (if f then tFLT else tINT)) (fun _ s2 => straightB s2 E && sameCore s1 s2 E))) = true := by
  decide +kernel

theorem witness_distance :
    (Claims.classed.all (fun c => goB (c.1 h0 3 1 2) { sV with cores := [(0, core0 { (sV.ctx 0 0) with preds := [] })] })) = true ∧
    (∀ f, f ∈ ([⟨.g 1, .w 4, 1, 0⟩] : List Flight) → f.loc ≠ .p 2) ∧
    (rdC (at1 (.caim h0 3 1 2) sV) (envOf (.caim h0 3 1 2) sV) 0 1).valid = true ∧
    (rdC (at1 (.caim h0 3 1 2) sV) (envOf (.caim h0 3 1 2) sV) 0 1).isSealed = false := by decide +kernel

/-! ## Services -/

/-- A capability of a CROSS queue. -/
def queueCap (q : Nat) : Cap := (rootMemory (decide (q < 32)) (word q)).withFld 49 34 otCROSS

/-- A device whose context 0 holds the capability of queue q, enabled, in c1, and x beside. -/
def sCross (q : Nat) (f : Ctx → Ctx) : State :=
  (dev (core0 (f { ctx0 with caps := (1, queueCap q) :: ctx0.caps.tail })) mem0).setRf (.xqcfg q) xqcfg_EN 1

/-- The conditions of CROSS that both its cases share. -/
def crossB (q : Nat) (s : State) (f : Env → State → Bool) : Bool :=
  let i : Instr := .cross h0 1
  let E := envOf i s
  let s2 := routineState (insCross 1) E (at1 i s)
  let c := rdC s2 E 0 1
  issuedB i s && c.valid && decide (c.otype = otCROSS ∧ c.cur = q ∧ q < 64 ∧ (s2.ctx E.n E.k).tx.service ≠ 3 ∧ s2.csTrap E.n (some rtCROSS) = none) &&
  (c.world == decide (q < 32)) && ((s2.ctx E.n E.k).world == !c.world) && f E s2

/-- MPROG of a CROSS that waits for the answer to request req. -/
def crossProg (req : Nat) : Word := BitVec.ofNat 64 (rtCROSS * 2 ^ 56 + 2 ^ 48 + codeAt / 4 % 2 ^ 16 * 2 ^ 32 + req)

theorem witness_cross :
    (crossB 0 (sCross 0 id) (fun E s2 => decide (fld (seeSr s2 E nMPROG) 63 56 ≠ rtCROSS ∧ (s2.ctx E.n E.k).reply = none ∧ s2.rf (.xqcfg 0) xqcfg_EN = 1)) &&
      crossB 31 (sCross 31 id) (fun E s2 => decide (fld (seeSr s2 E nMPROG) 63 56 ≠ rtCROSS ∧ (s2.ctx E.n E.k).reply = none ∧ s2.rf (.xqcfg 31) xqcfg_EN = 1)) &&
      crossB 0 (sCross 0 (fun x => { x with sr := (nMPROG, crossProg 5) :: x.sr, reply := some (5, [], List.replicate 4 Cap.null) })) (fun E s2 =>
        decide ((s2.ctx E.n E.k).flights = [] ∧ seeSr s2 E nMPROG = crossProg 5 ∧ (s2.ctx E.n E.k).reply = some (5, [], List.replicate 4 Cap.null)) &&
        !stEXL (s2.ctx E.n E.k).status && straightB s2 E)) = true := by decide +kernel

/-- A context of core 0 serves the request 5 of a context of core 2. -/
def sServe : State :=
  let s := dev (core0 { ctx0 with tx := { Tx.none with service := 1, queue := 32, req := 5 } }) mem0
  { s with
      cores := s.cores ++ [(2, { Core.reset 2 false 0 with held := false, c0 := { Ctx.reset 2 0 false 0 with st := .wait, wait := .cross 32 5 100 } })]
      cfg := { s.cfg with pairs := [0, 1] }
      xout := [(5, ⟨2, 0, 32, 100⟩)] }

theorem witness_xreply :
    let s2 := routineState insXreply (envOf (.xreply h0) sServe) (at1 (.xreply h0) sServe)
    issuedB (.xreply h0) sServe = true ∧ (s2.ctx 0 0).tx.service = 1 ∧ tfind s2.xout (s2.ctx 0 0).tx.req = some ⟨2, 0, 32, 100⟩ ∧
      (s2.ctx 2 0).wait = .cross 32 (s2.ctx 0 0).tx.req 100 ∧ (s2.ctx 0 0).tx.queue = 32 ∧ stSS (s2.ctx 2 0).status = false := by decide +kernel

/-- A TCM with a gate at the data and a context capability after it. -/
def memDesc : Mem :=
  let r := rootMemory false 0
  ((memGate 0).setWord (dataAt + 0x80 + 48) 0 tCAPLO).setWord (dataAt + 0x80 + 56) r.hi.toNat tCAPHI

/-- A device with a request in queue 32, whose descriptors are at the data. -/
def sQueue : State :=
  let s := dev (core0 ctx0) memDesc
  { ((s.setReg (.xqentry 32) (word dataAt)).setReg (.xqctx 32) (word (dataAt + 0x80))).setRf (.xqcfg 32) xqcfg_SERVERS 1 with
      xq := [(32, [⟨5, 2, 0, [1, 2, 3, 4, 5, 6, 7, 8], List.replicate 4 Cap.null, 100⟩])] }

theorem witness_service_start :
    let E := startEnv 0 ((sQueue.idleCtx 0).getD 0)
    (sQueue.serving && decide (sQueue.choosePair (64 + 32) (sQueue.rf (.xqcfg 32) xqcfg_SERVERS) (crossWorld 32) none none = some 0) &&
      decide (sQueue.startWaits 96 E [(crossWorld 32, fld (sQueue.reg (.xqentry 32)) 63 6 * 64, 64), (crossWorld 32, fld (sQueue.reg (.xqctx 32)) 63 7 * 128, 128)] = none) &&
      (match crossStart ({ sQueue.startGoes 96 with xq := tset sQueue.xq 32 [], lastPick := tset sQueue.lastPick (64 + 32) 0 }.xqOcc 32) 32
        ⟨5, 2, 0, [1, 2, 3, 4, 5, 6, 7, 8], List.replicate 4 Cap.null, 100⟩ 0 ((sQueue.idleCtx 0).getD 0) with
        | (some u, _) => decide (u.csTrap 0 (some rtXSTART) = none)
        | _ => false)) = true := by decide +kernel

theorem witness_cross_timeout :
    (sServe.ctx 2 0).wait = .cross 32 5 100 ∧ stEXL (sServe.ctx 2 (other 0)).status = false ∧ sServe.xlost.contains 5 = false := by decide +kernel

/-! ## Handlers -/

/-- A frame of class 0 in slot 3, whose descriptor is at the data. -/
def frame0 : Frame := ⟨0, 3, 64, 7, 0, 0, 0, 0, 0, [], 0, 0, 0, 0, dataAt, 1000000, 0, none⟩

/-- The transaction of frame0. -/
def tx0 : Tx := { Tx.none with state := .active, frame := some frame0, wdog := some 1000 }

/-- A device whose context 0 has a capability in c1 and a length of 64 in w1, and runs a transaction. -/
def sTx (c : Cap) : State :=
  dev (core0 { ctx0 with caps := (1, c) :: ctx0.caps.tail, g := [(1, 64)], tx := tx0 }) ⟨[(dataAt, 1)], (List.range 8).map (fun i => (dataAt + 8 * i, tINT))⟩

/-- The conditions of HANDLER_END. -/
def endB (s : State) (tagged : Bool) : Bool :=
  let i : Instr := .handlerEnd h0 1 1
  let E := envOf i s
  let s2 := routineState (insHandlerEnd 1 1) E (at1 i s)
  let c := rdC s2 E 0 1
  issuedB i s && decide ((s2.ctx E.n E.k).tx.state = .active ∧ (s2.ctx E.n E.k).tx.service = 0 ∧ (s2.ctx E.n E.k).tx.frame = some frame0 ∧
    (rdG s2 E 1 1).toNat = 64) && (c.tag == tagged) &&
  (if tagged then placed (recordCheck s2 E c 1 64) (fun _ s3 => (({ s3 with free := s3.free + 1 } : State).commitTx E.n E.k).isSome)
   else (({ s2 with free := s2.free + 1 } : State).commitTx E.n E.k).isSome)

/-- A capability of the 64 bytes at the data. -/
def record64 : Cap := ((rootMemory false (word dataAt)).trim 64 true).getD Cap.null

theorem witness_handler_end : (endB (sTx Cap.null) false && endB (sTx record64) true) = true := by decide +kernel

/-- A TCM with a handler descriptor at the data. -/
def memHandler : Mem :=
  let r := rootMemory false 0
  let ing := ((rootMemory false 0).trim 0x4000000 true).getD Cap.null
  let put := fun (m : Mem) (i : Nat) (c : Cap) => (m.setWord (dataAt + 8 * i) c.cursor.toNat tCAPLO).setWord (dataAt + 8 * i + 8) c.hi.toNat tCAPHI
  (put (put (((put Mem.empty 0 { r with cursor := word codeAt }).setWord (dataAt + 16) 0 tINT).setWord (dataAt + 24) 0 tINT) 4 ing) 6 r).setWord
    (dataAt + 64) 1 tINT

/-- A device with frame0 in the queue of its class. -/
def sFrame : State :=
  { ((dev (core0 ctx0) memHandler).setRf (.ingClass 0) ingClass_PAIRS 1) with queues := [(0, [frame0])] }

theorem witness_handler_start :
    (sFrame.ingOn && sFrame.stagingRoom && decide (sFrame.nextClass = some 0 ∧ sFrame.framePair frame0 = some 0) &&
      decide (sFrame.startWaits 0 (startEnv 0 ((sFrame.idleCtx 0).getD 0)) [(sFrame.classWorld 0, dataAt, 128)] = none) &&
      (match readDesc sFrame (startEnv 0 1) (sFrame.classWorld 0) dataAt 128 with
        | (some ws, u) => (handlerDesc u (sFrame.classWorld 0) ws).isSome && decide (u.csTrap 0 (some rtHSTART) = none)
        | _ => false)) = true := by decide +kernel

/-- A device whose context 0 runs a transaction while its other context holds the exception level. -/
def sHeldTx : State :=
  dev { core0 { ctx0 with tx := tx0 } with c1 := { Ctx.reset 0 1 false 0 with sr := [(nSTATUS, 13)] }, inUse := 1 } mem0

theorem witness_deadline_abort :
    decide (sFrame.queues.findSome? (fun e => (e.2.find? (fun f => decide (f.slot = 3))).map (fun f => (e.1, f))) = some (0, frame0)) = true ∧
    frame0.deadline < 2 ^ 64 - 1 ∧ (sTx Cap.null).canAbort 0 0 = true ∧ ((sTx Cap.null).ctx 0 0).tx.state = .active ∧ (sTx Cap.null).now ≤ frame0.deadline ∧
    frame0.attempt < ((sTx Cap.null).setRf .ingCfg ingCfg_RETRY 1).rf .ingCfg ingCfg_RETRY ∧ ((sTx Cap.null).ctx 0 0).tx.wdog = some 1000 ∧
    ((sTx Cap.null).commitTx 0 0).isSome = true ∧
    takeWatchdog sHeldTx 0 0 = none ∧ takeWatchdog ((sHeldTx.advanceTo 1000).watchdogFires 0 0) 0 0 = none ∧
      (sHeldTx.ctx 0 0).tx.wdog = some 1000 := by decide +kernel
/-! ## The key engine -/

/-- A device whose c1 points at a command block of code at the data, in the TCM. -/
def sBlock (code : Nat) : State :=
  dev (core0 ctx0) ⟨(dataAt, code) :: [], (List.range 8).map (fun i => (dataAt + 8 * i, tINT))⟩

/-- The conditions of KCMD of a command without key and buffers. -/
def kcmdB (code : Nat) : Bool :=
  let s := sBlock code
  let i : Instr := .kcmd h0 1 5 3
  let E := envOf i s
  let s2 := routineState (insKcmd 1 5 3) E (at1 i s)
  let b := rdC s2 E 0 1
  issuedB i s && decide (fld (seeSr s2 E nMPROG) 63 56 ≠ rtKCMD ∧ s2.csTrap E.n (some rtKCMD) = none) &&
  placed (resolve s2 E ⟨b, 1, b.cur, 64, kLOAD, pm pLOAD + pm pSTORE + pm pLOADCAP, 0, 64, true, false, false⟩) (fun cs s3 =>
    match ctxWords s3 E 1 b.cur cs with
    | .ok ws => decide (kBlockTags ws 1 b.cur = none ∧ kcClass (kBlock ws).code = some 0) && kcUntagged (kBlock ws).code &&
        !(rdC s3 E 1 5).tag && !(kcKeyed (kBlock ws).code) && okThen (bufferCheck s3 E (kBlock ws) 0) (fun _ _ => true)
    | _ => false)

/-- A command that a context of core 0 has issued. -/
def kcmd0 (code : Nat) (key : Option Cap) : KCmd :=
  ⟨0, false, 0, 0, true, code, 0, false, false, 0, false, 0, 16, dataAt, [], [], key, none, .live⟩

/-- A device with a command in the open queue, with a key of type AES-128 in slot 5, of generation 0. -/
def sKey (c : KCmd) : State :=
  { s0 with kq := [(0, [c])], keys := [(5, ⟨0, 0, true, 0, 0, 0, []⟩)] }

/-- A capability of slot 5 at a generation. -/
def keyCap (gen : Nat) : Cap := ⟨word (5 + gen * 2 ^ 24), word (2 ^ 60 + otKEY * 2 ^ 34), true⟩

/-- The state of sKey without the command. -/
def sTaken (c : KCmd) : State := { sKey c with kq := tset (sKey c).kq 0 [] }

theorem witness_kcmd : kcmdB kcRNG = true ∧
    (let d : KDone := ⟨kcmd0 kcRNG none, ⟨0, 0, [], none⟩, 100, []⟩
     let s : State := { dev (core0 { ctx0 with st := .wait, wait := .kcmd 0 3 }) mem0 with kdone := [d] }
     s.kdone = [d] ∧ d.cmd.fate = .live ∧ (s.ctx 0 0).wait = .kcmd d.cmd.num 3 ∧ stSS (s.ctx 0 0).status = false) := by decide +kernel

theorem witness_key_commands : Claims.KeyCmd .rng kcRNG ∧ Claims.KeyCmd .kdelete kcKDELETE ∧ s0.keyOn = true ∧
    (sKey (kcmd0 kcHASH none)).kqueue false = [kcmd0 kcHASH none] ∧
    -- a unit takes it; its time is known; no unit of the sealed world; the key is there, and has gone
    none ∉ Claims.keyUnits (sTaken (kcmd0 kcHASH none)) (kcmd0 kcHASH none) ∧ Claims.keyUnits (sTaken (kcmd0 kcHASH none)) (kcmd0 kcHASH none) ≠ [] ∧
    (Claims.keyTime (sTaken (kcmd0 kcHASH none)) (kcmd0 kcHASH none)).isSome = true ∧
    none ∈ Claims.keyUnits (sTaken (kcmd0 kcHASH none)) { kcmd0 kcHASH none with world := true } ∧
    ((sTaken (kcmd0 kcKDELETE (some (keyCap 0)))).keyOf (keyCap 0)).isSome = true ∧
    none ∉ Claims.keyUnits (sTaken (kcmd0 kcKDELETE (some (keyCap 0)))) (kcmd0 kcKDELETE (some (keyCap 0))) ∧
    Claims.keyGone (sTaken (kcmd0 kcKDELETE (some (keyCap 1)))) (kcmd0 kcKDELETE (some (keyCap 1))) := by
  refine ⟨by simp [Claims.KeyCmd], by simp [Claims.KeyCmd], ?_, ?_, ?_, ?_, ?_, ?_, ?_, ?_, ?_⟩ <;> first | decide +kernel | (left; decide +kernel)

theorem witness_key_events : s0.mode ≠ 0 ∧ s0.mode ≠ 5 ∧ (s0.setRf .keyDrbg keyDrbg_SRC0 1).rf .keyDrbg keyDrbg_SRC0 ≠ 0 ∧
    (s0.setRf .keyDrbg keyDrbg_SRC1 1).rf .keyDrbg keyDrbg_SRC1 ≠ 0 := by decide +kernel

-- R462, chapter 15: the ARQC of a 96-byte input with a TDES key, the worked example, takes 860 ns.
theorem test_arqc_time : engineTime { kcmd0 kcARQC none with inLen := 96 } (some 0x05) none = some 8600 := by decide +kernel

/-! ## Interrupts and the cores beside their instructions -/

/-- A device with a source pending for context 0 of core 0, which takes interrupts. -/
def sIrq : State :=
  ((dev (core0 { ctx0 with sr := (nSTATUS, 0x19) :: ctx0.sr.tail }) mem0).setReg (.intcSrc 7) 0).setRf (.intcSrc 7) intcSrc_PEND 1
    |>.setRf (.intcSrc 7) intcSrc_EN 1 |>.setRf (.intcSrc 7) intcSrc_LEVEL 20

theorem witness_interrupts :
    (let s := (s0.setRf (.intcSrc 5) intcSrc_DEFER 1)
     s.rf (.intcSrc 5) intcSrc_DEFER = 1 ∧ s.srcAct 5 = false ∧ (s.setRf (.intcSrc 5) intcSrc_ACT 1).srcAct 5 = true ∧
      (s.setRf (.intcSrc 5) intcSrc_ACT 1).rf (.intcSrc 5) intcSrc_DEFER = 1) ∧
    sIrq.acceptableSource 0 0 = some 7 ∧ sIrq.csTrap 0 (some rtENTRY) = none ∧ (s0.setReg (.intcTmr 3) 1000).reg (.intcTmr 3) ≠ BitVec.allOnes 64 := by
  decide +kernel

/-- s0 with a change of core 0. -/
def sCore (f : Core → Core) : State := dev (f (core0 ctx0)) mem0

/-- A device whose program lies in the TCM at the data, with nothing fetched. -/
def sFetch : State := dev (core0 { ctx0 with caps := [(15, rootMemory false (word dataAt))] }) mem0

/-- A device whose context 0 waits on entry 3 of the inverted table at 0, whose MV bit is mv. -/
def sMv (mv : Bool) : State :=
  { dev (core0 { ctx0 with st := .wait, wait := .mv 0x8000 3 0 100 }) mem0 with
      mem := ((Mem.empty.setWord 96 (if mv then 2 ^ 45 else 0) tINT).setWord 104 0 tINT).setWord 112 0 tINT |>.setWord 120 0 tINT }

theorem witness_core_events :
    ((sCore (fun c => { c with farWait := true })).core 0).farWait = true ∧
    (let va := sFetch.fetchNext 0 0
     let r := chunkAt sFetch (sFetch.waitEnv 0 0) ⟨sFetch.pcc 0 0, 0xF, va, 8, kFETCH, 0, 0, 0, true, false, false⟩ va 8
     sFetch.unit 0 = 0 ∧ sFetch.coreRuns 0 = true ∧ sFetch.runningCtx 0 = some 0 ∧ (sFetch.core 0).prefetch.length < 4 ∧ (sFetch.core 0).kept = none ∧
      (sFetch.core 0).farWait = false ∧ r = (.ok [⟨va, 8, .mem (.tcm 0) dataAt, false⟩], r.2) ∧ sFetch.fetchGranted 0 ((sFetch.core 0).pace.port + 1) = true) ∧
    (let e : SbEntry := ⟨0, .tcm 0, dataAt / 64, []⟩
     ((sCore (fun c => { c with sb := [e] })).core 0).sb = [e] ∧ ((sCore (fun c => { c with sb := [e] })).core 0).off = false) ∧
    (let s := sCore (fun c => { c with c0 := { c.c0 with st := .idle } })
     s.unit 0 = 0 ∧ s.tgtOf 0 dataAt = .tcm 0 ∧ (s.core 0).off = false ∧ s.outsideGranted 0 = true) ∧
    (let m : MaCause := ⟨0, ecBUSERR_ASYNC, 1, 2, true⟩
     (sCore (fun c => { c with ma := [m] })).maReady 0 0 ecBUSERR_ASYNC = some m ∧ (sCore (fun c => { c with ma := [m] })).csTrap 0 (some rtENTRY) = none) ∧
    (let s := sCore (fun c => { c with maskSince := some 5 })
     (s.core 0).maskSince = some 5 ∧ s.coreRuns 0 = true) := by
  refine ⟨by decide +kernel, ⟨by decide +kernel, by decide +kernel, by decide +kernel, by decide +kernel, by decide +kernel, by decide +kernel, ?_, by decide +kernel⟩, by decide +kernel, by decide +kernel, by decide +kernel, by decide +kernel⟩
  exact Prod.ext (by decide +kernel) rfl

theorem witness_recovery_events :
    (s0.core (s0.unit 1)).off = false ∧ [0, 1].all (fun k => decide (((s0.ctx (s0.unit 1) k).wait).routine = none)) = true ∧
    (s0.setRf .mcsStat mcsStat_BUSY 1).rf .mcsStat mcsStat_BUSY ≠ 0 ∧
    ((sMv true).ctx 0 0).wait = .mv 0x8000 3 0 100 ∧ (sMv true).now + 40 < 100 + 20000 ∧
    [0, 24].all (fun p => decide (tfind ({ s0 with selfTest := [(p, 5)] } : State).selfTest p = some 5)) = true ∧
    (s0.setRf (.depPair 0) depPair_STATE 1).rf (.depPair 0) depPair_STATE = 1 ∧
    ({ s0 with queues := [(0, [frame0])] } : State).serving = true ∧ ({ s0 with queues := [(0, [frame0])] } : State).unplaced = true := by
  decide +kernel

theorem witness_mv_walks (mv : Bool) (t : Nat) (h : t = 40 ∨ t = 20100) :
    (probe ((sMv mv).advanceTo t) (((sMv mv).advanceTo t).waitEnv 0 0) 3 1).1 = .ok ⟨if mv then 2 ^ 45 else 0, 0, 0, 0⟩ := by
  rw [probe_ok] <;> (rcases h with h | h <;> subst h <;> cases mv <;> decide +kernel)

/-! ## Registers of the device -/

/-- s0 with a table entry that opens register space to every master. -/
def sReg : State :=
  { s0 with regs := (.rdgBase 2, word 0x0F0000000000) :: (.rdgLimit 2, word 0x0F0014000000) ::
      (.rdgAttr 2, word (0xFFFF * 2 ^ 32 + 0x7FF * 2 ^ 16 + 7)) :: s0.regs }

/-- A master's access to a register reaches it, and changes nothing. -/
def masterB (m : Nat) (write : Bool) (r : Reg) : Bool :=
  Requester.wf (.master m 0) && (sReg.masterReaches m 0 write r.pa (!write && diagReg r)).1

/-- The conditions of Taken, computed. -/
def takenB (s : State) (q : Requester) (r : Reg) (v : Word) : Bool :=
  !s.sealedShut && !(regDenied s q r v) && !(s.recHidden q r) && !(s.regOff r) && !(wholeRejected r v)

theorem witness_register_rows :
    Claims.RegRow (fun q _ v => .doorbell q v) (fun _ _ _ => .intcDoorbell) (fun _ _ => true) ∧
    Claims.RegRow (fun q _ v => .lock q v) (fun _ _ _ => .sysLock) (fun _ _ => true) ∧
    Claims.ReadRow (fun q _ => .uartRead q) (fun _ => .mgtUdata) (fun _ => true) ∧
    masterB mHOST true .intcDoorbell = true ∧ takenB sReg (.master mHOST 0) .intcDoorbell 3 = true ∧
    Requester.wf (.core 0 0) = true ∧ s0.canIssue 0 0 = true ∧ takenB (s0.drain 0) (.core 0 0) .intcDoorbell 3 = true ∧
    -- a core of the open world writes SYS.LOCK
    s0.sealedShut = false ∧ regDenied s0 (.core 0 0) .sysLock 0 = true ∧ s0.csTrap 0 (some rtENTRY) = none ∧ (s0.ctx 0 0).flights = [] ∧
    stEXL (s0.ctx 0 0).status = false ∧ stEXL (s0.ctx 0 (other 0)).status = false ∧
    masterB mHOST false .mgtUdata = true := by
  refine ⟨by simp [Claims.RegRow], by simp [Claims.RegRow], by simp [Claims.ReadRow], ?_⟩
  decide +kernel

theorem witness_register_addresses :
    (let pa := Reg.intcDoorbell.pa
     isRegSpace pa = true ∧ pa % 8 = 0 ∧ pa < 0x0F0012800000 ∧ sReg.regAtPa (.master mHOST 0) pa = some .intcDoorbell) ∧
    (let pa := 0x0F0013F00000
     isRegSpace pa = true ∧ pa % 8 = 0 ∧ 0x0F0013000000 ≤ pa ∧ s0.regAtPa (.core 0 0) pa = none ∧ s0.spareDenied (.core 0 0) pa = false) ∧
    (s0.setRf .mgtSmb mgtSmb_EN 1).smbOn = true ∧ s0.regAtPa (.master 11 0) Reg.depStat.pa = some .depStat ∧ diagReg .depStat = true ∧
    (sReg.masterReaches mDBG 0 false dataAt false).1 = true ∧ (sReg.masterReaches mDBG 0 true dataAt false).1 = true ∧
    isRegSpace dataAt = false ∧ backedDram dataAt = true ∧ (sReg.mem.tag dataAt) < 7 := by decide +kernel

/-- A register has a field of the kind asked for. -/
def hasField (r : Reg) (p : Field → Bool) : Bool := r.fields.any p

theorem witness_register_rules :
    hasField (.intcSrc 7) (fun f => decide (f.ty = .ro)) = true ∧ hasField .sysLock (fun f => decide (f.ty = .wo)) = true ∧
    hasField (.depRec 0) (fun f => decide (f.ty = .w1c)) = true ∧
    hasField (.intcSrc 7) (fun f => decide (f.ty = .rw ∧ f.apply = .l) && f.allow.ok 1 && !(regBars s0 (.core 0 0) (.intcSrc 7) f 1)) = true ∧
    hasField (.xqcfg 0) (fun f => decide (f.ty = .rw) && !(f.allow.ok 0)) = true ∧
    hasField (.ingLring 0) (fun f => decide (f.ty = .rw ∧ f.apply = .q) && f.allow.ok 1) = true ∧ regIdle s0 (.ingLring 0) 0 = true ∧
    regIdle (s0.setRf (.ingLcfg 0) ingLcfg_EN 1) (.ingLring 0) 0 = false ∧ s0.inSlice (.ingLring 0) = false ∧
    hasField .ingBank (fun f => decide (f.ty = .rw ∧ f.apply = .s) && f.allow.ok 1) = true := by decide +kernel

/-- A device whose inverted table has 64 entries, at 2 MiB. -/
def sTable : State :=
  { s0 with cores := [(0, { core0 ctx0 with sr := [(nIPTBASE, word (2 ^ 21)), (nIPTSIZE, 64)] })] }

theorem witness_register_effects :
    ({ s0 with srcLevel := [(7, (0, 20))] } : State).eoiSource 0 = some 7 ∧
    s0.rf .mcsStat mcsStat_BUSY = 0 ∧ s0.coreQui 2 = true ∧ sTable.giveBad 5 = false ∧ s0.giveBad 5 = true ∧
    [0, 1].all (fun b => decide ((s0.setRf .rdgEpoch rdgEpoch_BUSY b).rf .rdgEpoch rdgEpoch_BUSY = b)) = true ∧
    s0.coreWorld 0 = false ∧ s0.rf (.dbgCorectl 0) dbgCorectl_HALTED = 0 ∧
    (s0.setRf (.jcSlot 0) jcSlot_STATE jsMIRROR).jcState 0 = jsMIRROR ∧ (s0.setRf (.jcSlot 1) jcSlot_STATE jsRESILVER).jcState 1 = jsRESILVER ∧
    ((s0.setReg (.depRec 3) 1).reg (.depRec 3)).getLsbD 0 = true ∧ s0.mode ≠ mdLOCKDOWN ∧ s0.serving = true ∧
    -- the resets of R598 to R602, of blocks whose domains are on, and of one that is switching
    [0x0202, 0x0003, 0x0004, 0x0005, 0x100005, 0x200005, 0x300005, 0x400005].all (fun v => !(resetReserved (word v)) &&
      (match resetDomain (word v) with
        | some d => decide (s0.rf (.pwrDom d) pwrDom_STATE = 1)
        | none => true)) = true ∧
    s0.paired 0 = true ∧ (s0.setRf (.pwrDom 2) pwrDom_STATE 2).rf (.pwrDom 2) pwrDom_STATE = 2 ∧ resetDomain (word 0x0202) = some 2 ∧
    [0, 1].all (fun b => decide ((s0.setRf (.pwrDom 2) pwrDom_REQ b).rf (.pwrDom 2) pwrDom_REQ = b)) = true ∧
    flashWritable (s0.rf .mgtFlcmd mgtFlcmd_ADDR) = true ∧ (s0.setRf .mgtUart mgtUart_EN 0).rf .mgtUart mgtUart_EN = 0 ∧ s0.uartTx.length < 16 := by
  decide +kernel

/-! ## Memory, placement and the dependability hardware -/

/-- A device that places pages, with a frame that an evaluation has called to move, invalid in its table. -/
def sPlace : State :=
  { (sTable.setRf .pleCtl pleCtl_EN 1).setRf .pleCtl pleCtl_RATE 4 with pleCand := [(5, true)], heat := [(5, (3, 16))] }

theorem witness_placement :
    sPlace.serving = true ∧ (sPlace.heat.map (fun e => e.1)).Nodup ∧ sPlace.rf .pleCtl pleCtl_EN = 1 ∧
    (sPlace.pleCand.find? (fun e => decide (e.1 = 5))).isSome = true ∧
    (sPlace.moveAt.filter (fun t => decide (sPlace.now < t + 1000000000))).length < sPlace.rf .pleCtl pleCtl_RATE ∧
    sPlace.ovfBars (sPlace.groupOf 5) = false ∧ 5 ∈ sPlace.groupOf 5 ∧ (sPlace.entryOf 5).v = false ∧ mem0.wf = true ∧
    (sPlace.setRf (.memPcstat (pcOfFrame 6)) memPcstat_STATE pcFENCED).pcState (pcOfFrame 6) = pcFENCED := by decide +kernel

/-- s0 with pseudo-channel 5 in a state of its life, with a number of copies made. -/
def sPc (st copies : Nat) : State :=
  (s0.setRf (.memPcstat 5) memPcstat_STATE st).setRf (.memPcstat 5) memPcstat_COPY copies

theorem witness_memory_controllers :
    s0.mode ≠ mdLOCKDOWN ∧ s0.porLow = false ∧ s0.pcState 5 ≠ pcRETIRED ∧ s0.mem.wf = true ∧ (s0.heldLine 5 1).isSome = true ∧
    s0.heldLine 5 (pcSlots * 256) = none ∧
    (let s := { s0 with rowBad := [(5, 9)] }.setRf (.memErrcnt 5) memErrcnt_SPARES 1
     s.rowBad.contains (5, 9) = true ∧ s.rf (.memErrcnt 5) memErrcnt_SPARES = 1) ∧
    ({ s0 with cal := [(5, ⟨true, false, 0, 0⟩)] } : State).calOf 5 = ⟨true, false, 0, 0⟩ ∧
    ((s0.setRf (.memPcctl 5) memPcctl_CALPER 1).calPeriod 5).isSome = true ∧
    (sPc pcDRAINING 0).pcState 5 = pcDRAINING ∧ (sPc pcDRAINING 0).rf (.memPcstat 5) memPcstat_COPY < pcSlots ∧
    (sPc pcDRAINING pcSlots).pcState 5 = pcDRAINING ∧ pcSlots ≤ (sPc pcDRAINING pcSlots).rf (.memPcstat 5) memPcstat_COPY := by
  decide +kernel

/-- An event of core 3, and a device in which it has been raised and every record holds it. -/
def ev0 : DevEvent := ⟨0, 3, 0x08, 0, 0⟩
def sRec : State :=
  { s0 with regs := (List.range 1023).map (fun r => (.depRec r, word (1 + 3 * 2 ^ 32 + 8 * 2 ^ 24))), events := [ev0] }

theorem witness_dependability :
    (s0.setRf .rdgEpoch rdgEpoch_BUSY 1).rf .rdgEpoch rdgEpoch_BUSY = 1 ∧
    (let s := s0.setRf (.dbgCorectl 0) dbgCorectl_PEND 1
     s.rf (.dbgCorectl 0) dbgCorectl_PEND = 1 ∧ s.coreWorld 0 = false ∧ s.serving = true ∧
      [0, 1].all (fun k => (s.ctx (s.unit 0) k).atBoundary) = true) ∧
    subjectOk ev0.sc ev0.ix = true ∧ ev0.ev < 256 ∧ ({ s0 with events := [ev0] } : State).events.contains ev0 = true ∧
    s0.findRecord ev0.sc ev0.ix ev0.ev = none ∧ s0.freeRecord.isSome = true ∧
    (s0.freshError ⟨3, 3, 0x18, 0, 64⟩).isSome = true ∧
    s0.events.contains ev0 = false ∧ s0.mode ≠ mdLOCKDOWN ∧ s0.mode ≠ mdSELFTEST ∧
    (let s := (s0.setRf (.depRec 4) depRec_V 1).setRf (.depRec 4) depRec_DEFER 1
     s.rf (.depRec 4) depRec_V = 1 ∧ s.rf (.depRec 4) depRec_DEFER = 1 ∧ s.rf (.depRec 4) depRec_NEW = 0) := by decide +kernel

theorem tget_records (w d : Word) (l : List Nat) (k : Nat) (h : k ∈ l) :
    tget (l.map (fun r => (Reg.depRec r, w))) (.depRec k) d = w := by
  induction l with
  | nil => cases h
  | cons a l ih =>
    by_cases e : a = k
    · subst e; simp [tget]
    · have : k ∈ l := by simpa [Ne.symm e] using h
      simp [tget, e, ih this]

theorem sRec_reg (k : Nat) (h : k < 1023) : sRec.reg (.depRec k) = word (1 + 3 * 2 ^ 32 + 8 * 2 ^ 24) := by
  exact tget_records _ _ _ _ (List.mem_range.2 h)

theorem witness_records : sRec.findRecord ev0.sc ev0.ix ev0.ev = some 0 ∧ sRec.findRecord 0 4 0x08 = none ∧ sRec.freeRecord = none ∧
    sRec.events.contains ev0 = true := by
  refine ⟨?_, ?_, ?_, by decide +kernel⟩
  · unfold State.findRecord
    have : List.range 1023 = 0 :: (List.range 1022).map Nat.succ := List.range_succ_eq_map
    rw [this, List.find?_cons]
    have : sRec.recHas 0 ev0.sc ev0.ix ev0.ev = true := by
      unfold State.recHas; rw [sRec_reg 0 (by decide)]; decide
    rw [this]
  · unfold State.findRecord
    rw [List.find?_eq_none]
    intro k hk
    unfold State.recHas; rw [sRec_reg k (List.mem_range.1 hk)]; decide
  · unfold State.freeRecord
    rw [List.find?_eq_none]
    intro k hk
    rw [sRec_reg k (List.mem_range.1 hk)]; decide

/-- A device that requires 10 mV of domain 0 for a slack of 50 below its target, with a cap. -/
def sAge (off cap late : Nat) : State :=
  { (s0.setRf (.ageDom 0) ageDom_OFFSET off).setRf (.ageDom 0) ageDom_CAP cap with
      cfg := { s0.cfg with slackT := [(0, (100, cap))], curves := [(16, (List.range 16).map (fun i => (50 * i, 10 * i)))] }
      ageOver := [(0, late)] }

theorem witness_ageing : (sAge 0 40 0).serving = true ∧ (sAge 0 40 0).rf (.pwrDom 0) pwrDom_STATE = 1 ∧
    (sAge 0 40 0).ageRequired 0 50 = 10 ∧ (sAge 0 40 0).rf (.ageDom 0) ageDom_OFFSET = 0 ∧ (sAge 0 40 0).rf (.ageDom 0) ageDom_CAP = 40 ∧
    (sAge 0 40 0).rf (.ageDom 0) ageDom_STATE = 0 ∧ (sAge 20 40 0).rf (.ageDom 0) ageDom_OFFSET = 20 ∧
    (sAge 0 5 2).rf (.ageDom 0) ageDom_CAP = 5 ∧ tget (sAge 0 5 2).ageOver 0 0 = 2 ∧
    (sAge 0 40 0).ageRound ≤ tget (sAge 0 40 0).ageAt 0 0 ∧ 4 * 10 < 3 * (sAge 0 40 0).rf (.ageDom 0) ageDom_CAP := by decide +kernel

/-- A device whose monitor unit 3 runs on a selection, with its alarm as given. -/
def sMon (sel alarm : Nat) : State :=
  ((((s0.setReg (.monAlarm 3) 5).setRf (.monCtl 3) monCtl_RUN 1).setRf (.monCtl 3) monCtl_SEL sel).setRf (.monCtl 3) monCtl_ALARMEN alarm).setRf (.monCtl 3) monCtl_FILTER 0xFFFF

theorem witness_monitor :
    ([0x01, 0x10, 0x12].all (fun sel => decide ((sMon sel 1).rf (.monCtl 3) monCtl_SEL = sel) && (monInstances sel).isSome)) = true ∧
    (sMon 1 1).rf (.monCtl 3) monCtl_RUN = 1 ∧ (sMon 1 1).rf (.monCtl 3) monCtl_FILTER = 0xFFFF ∧ (sMon 1 1).rf (.pwrDom 5) pwrDom_TEMP < 128 ∧
    ((sMon 1 1).reg (.monAlarm 3)).toNat ≤ 7 ∧ (sMon 1 1).rf (.monCtl 3) monCtl_ALARMEN = 1 ∧ (sMon 1 0).rf (.monCtl 3) monCtl_ALARMEN = 0 := by
  decide +kernel

theorem witness_power :
    tfind ({ s0 with switchAt := [(2, (5, [word 0x0202]))] } : State).switchAt 2 = some (5, [word 0x0202]) ∧
    s0.pllOff.contains 5 = false ∧ s0.porLow = false ∧ s0.wrstLow = false ∧ ({ s0 with pllOff := [5] } : State).pllOff.contains 5 = true ∧
    ({ s0 with ref100 := true } : State).ref100 = true ∧ ({ s0 with ref100 := false } : State).ref100 = false ∧
    (s0.setRf .pwrLimit pwrLimit_WATTS 200).rf .pwrLimit pwrLimit_WATTS = 200 ∧ s0.fastestGroup = some 0 ∧
    ({ s0 with pcap := [(3, 2)], powerLow := some 0 } : State).slowestGroup = some 3 ∧
    ({ s0 with pcap := (List.range 32).map (fun j => (j, 5)) } : State).fastestGroup = none ∧
    s0.domTemp 3 < 95 ∧ 115 < (s0.setRf (.pwrDom 3) pwrDom_TEMP 120).domTemp 3 ∧ 100 < (s0.setRf (.pwrDom 3) pwrDom_TEMP 120).domTemp 3 ∧
    ({ s0 with avsAsk := some 7 } : State).avsAsk = some 7 ∧
    (List.range 32).all (fun j => decide (s0.groupPoint j ≤ s0.rf (.pwrDvfs j) pwrDvfs_CUR)) = true := by decide +kernel

/-! ## Ingress and egress -/

/-- The place of the rings and formats of the tests: frames in the system area, whose accesses count no heat. -/
def ringAt : Nat := 0x1800000000

/-- A device whose memory at ringAt holds words, tagged INT, with lane 3 enabled and its ring there; TAIL is as given. -/
def sLane (ws : List Nat) (tail : Nat) : State :=
  { (((s0.setReg (.rdgLimit 1) 0x1900000000).setRf (.ingLcfg 3) ingLcfg_EN 1).setReg (.ingLring 3) (word ringAt)).setRf (.ingLptr 3) ingLptr_TAIL tail |>.setReg (.rdgAttr 1) (word (0xFFFF * 2 ^ 32 + 0x7FF * 2 ^ 16 + 7)) with
      mem := ws.zipIdx.foldl (fun m e => if e.1 = 0 then m else m.setWord (ringAt + 8 * e.2) e.1 tINT)
        ⟨[], (List.range ws.length).map (fun i => (ringAt + 8 * i, tINT))⟩ }

/-- The ring descriptor of a frame of a length at ringAt + 0x1000. -/
def ringWords (len : Nat) : List Nat := [2 ^ 63 + ringAt + 0x1000, len, 77, 0, 0, 0, 0, 0]

/-- The bytes that the lane reads of its descriptor, and whether they make a sound one. -/
def laneB (s : State) : Bool × Bool :=
  let r := s.masterReadBytes mING 0 (fld (s.reg (.ingLring 3)) 43 6 * 64 + 64 * s.laneHead 3) 64 2
  let w := fun (i : Nat) => ofBytes ((r.1.drop (8 * i)).take 8)
  (s.ingOn && decide (s.rf (.ingLcfg 3) ingLcfg_EN = 1 ∧ s.rf (.ingLcfg 3) ingLcfg_SRC = 0 ∧ s.laneHead 3 ≠ s.laneTail 3 ∧ s.rf (.ingLring 3) ingLring_SIZE ≤ 8 ∧
      r.2.2.rf (.ingLring 3) ingLring_SIZE ≤ 8 ∧ tfind s.lanes 3 = none),
   r.2.1 && bit (w 0) 63 && decide (bits (w 0) 62 44 = 0 ∧ bits (w 0) 5 0 = 0 ∧ bits (w 1) 63 25 = 0 ∧ bits (w 1) 15 13 = 0) &&
     [3, 4, 5, 6, 7].all (fun i => decide (w i = 0)))

/-- The job of lane 3, its frame at ringAt. -/
def job3 : LaneJob := ⟨ringAt, 2 ^ 63, ringAt, 64, 9, 77, 0⟩

theorem witness_lanes :
    ({ s0 with ref100 := true } : State).hostUp = true ∧ s0.mayRing 0 3 = false ∧
    ((s0.setRf (.hostFn 0) hostFn_EN 1).setRf (.hostFn 0) hostFn_LANES 8 |>.mayRing 0 3) = true ∧
    laneB (sLane (ringWords 64) 1) = (true, true) ∧ laneB (sLane (ringWords 0) 1) = (true, true) ∧ laneB (sLane [0, 0, 0] 1) = (true, false) ∧
    tfind ({ sLane (List.replicate 8 5) 0 with lanes := [(3, job3)] } : State).lanes 3 = some job3 ∧
    (({ sLane (List.replicate 8 5) 0 with lanes := [] } : State).masterReadBytes mING 0 job3.addr job3.len (job3.len / 64 + 2)).2.1 = true ∧
    (({ s0 with lanes := [] } : State).masterReadBytes mING 0 job3.addr job3.len (job3.len / 64 + 2)).2.1 = false ∧
    0 ∈ s0.freeSlots := by decide +kernel

theorem witness_no_slots : ({ s0 with slots := List.range 4096 } : State).freeSlots = [] := by
  simp [State.freeSlots]

/-- A frame that has landed, of format 9. -/
def pf : PFrame := ⟨3, 5, 77, 0, 9, [1, 2, 3, 4]⟩

/-- A device whose parser has a frame of a format, in a table at ringAt that holds words for format 0. -/
def sParse (ws : List Nat) (fmt : Nat) : State :=
  { (sLane ws 0).setReg (.ingFbase 0) (word ringAt) with parseQ := [{ pf with fmt := fmt }] }

/-- A format of one FIX descriptor of four bytes. -/
def format0 : List Nat := [0x101, opFIX * 2 ^ 58 + 4 * 2 ^ 24] ++ List.replicate 254 0

/-- The words of a format in the table are as they were put. -/
def placedB (ws : List Nat) : Bool :=
  let s := (sParse ws 0).parseBegin
  decide (s.rdgStale = [] ∧ fld (s.reg (.ingFbase (s.pbank.getD 0))) 43 19 * 2 ^ 19 + 0x800 * 0 = ringAt) &&
  (List.range 256).all (fun i => decide (s.mem.masterRead (ringAt + 8 * i) = (ws.getD i 0, true))) &&
  (List.range 32).all (fun i => (s.ridge mING 0 false (ringAt + 64 * i)).1.isSome && backedDram (ringAt + 64 * i) && decide (0x1800000000 ≤ ringAt + 64 * i))

theorem format_read {ws : List Nat} (h : placedB ws = true) :
    (sParse ws 0).parseBegin.masterReadBytes mING 0
      (fld ((sParse ws 0).parseBegin.reg (.ingFbase ((sParse ws 0).parseBegin.pbank.getD 0))) 43 19 * 2 ^ 19 + 0x800 * 0) 0x800 33 =
      ((List.range 2048).map (fun i => byteOf (ws.getD (i / 8) 0) (i % 8)), true, (sParse ws 0).parseBegin) := by
  simp only [placedB, Bool.and_eq_true, decide_eq_true_eq, List.all_eq_true, List.mem_range] at h
  obtain ⟨⟨⟨q, a⟩, m⟩, r⟩ := h
  have e : ∀ i, (ringAt + i) / 8 * 8 = ringAt + 8 * (i / 8) ∧ (ringAt + i) % 8 = i % 8 := by intro i; simp only [ringAt]; omega
  rw [a, show 0x800 = 64 * 32 from rfl, State.masterReadBytes_lines _ _ _ q 32 ringAt 33 (by decide) (by decide)
    (fun i hi => ⟨(r i hi).1.1, (r i hi).1.2, (r i hi).2⟩) (fun i hi => by rw [(e i).1, m _ (by omega)])]
  congr 1
  exact List.map_congr_left (fun i hi => by
    have := List.mem_range.1 hi
    rw [(e i).1, (e i).2, m _ (by omega)])

theorem witness_format_fetch : placedB format0 = true ∧
    wordsLE ((List.range 2048).map (fun i => byteOf (format0.getD (i / 8) 0) (i % 8))) 256 = format0 ∧ formatOk format0 = true ∧
    placedB (List.replicate 256 0) = true ∧
    wordsLE ((List.range 2048).map (fun i => byteOf ((List.replicate 256 0).getD (i / 8) 0) (i % 8))) 256 = List.replicate 256 0 ∧
    formatOk (List.replicate 256 0) = false ∧
    (sParse format0 0).parseBegin.fcache = [] ∧ (sParse format0 0).parseBegin.fbad = [] := by
  refine ⟨by decide +kernel, wordsLE_bytes format0 (by decide), by decide, by decide +kernel, wordsLE_bytes (List.replicate 256 0) (by simp), by decide, by decide +kernel,
    by decide +kernel⟩

/-- A device whose parser has a frame of format 9, resident with one descriptor, and whose rule for it is as given. -/
def sParsed (rule : Word) : State :=
  { (s0.setReg (.ingRuleW0 (ruleIx 0 9 2)) rule).setReg (.ingClass 7) 1 with parseQ := [pf], fcache := [(9, [opFIX * 2 ^ 58 + 4 * 2 ^ 24])] }

/-- Which of the rules of format 9 match the frame. -/
def matching (s : State) : List Nat :=
  (List.range 16).filter (fun i => s.ruleMatches (ruleIx (s.lastWritten .ingBank ingBank_RACT % 2) 9 i)
    (parseAll pf.bytes PState.start 0 [opFIX * 2 ^ 58 + 4 * 2 ^ 24]).keys)

theorem witness_parse :
    ({ s0 with parseQ := [pf], fbad := [9] } : State).parseBegin.fbad.contains 9 = true ∧ s0.ingOn = true ∧
    (sParsed 0).parseBegin.fbad.contains 9 = false ∧
    (sParsed 0).parseBegin.fcache.find? (fun e => decide (e.1 = 9)) = some (9, [opFIX * 2 ^ 58 + 4 * 2 ^ 24]) ∧
    matching (sParsed 0) = [] ∧ matching (sParsed (word (7 * 2 ^ 8 + 1))) = [2] ∧
    ((sParsed 0).reg (.ingClass (fld ((sParsed (word (7 * 2 ^ 8 + 1))).reg (.ingRuleW0 (ruleIx 0 9 2))) 13 8))).getLsbD 0 = true ∧
    (sParsed 0).mode ≠ 4 := by decide +kernel

/-- A device with a response for lane 3, of an outcome and a length, whose completion ring is at ringAt. -/
def sResp (src outcome len tail : Nat) (ws : List Nat) : State :=
  { (((sLane ws 0).setRf (.ingLcfg 3) ingLcfg_SRC src).setReg (.egrCring 3) (word ringAt)).setRf (.egrCptr 3) egrCptr_TAIL tail with
      egr := [⟨3, some 5, len, outcome, 77, 0, 0, 77⟩] }

/-- The first response of lane 3 may go. -/
def respB (s : State) : Bool :=
  s.ingOn && (match s.nextResp 3 with
    | some r => decide (r.lane = 3 ∧ r.wait ≤ (s.reg .jcDur).toNat)
    | none => false)

theorem witness_egress :
    respB (sResp 1 0 8 0 []) = true ∧ (sResp 1 0 8 0 []).fabricLane 3 = true ∧ respB (sResp 0 0 0 0 []) = true ∧ (sResp 0 0 0 0 []).fabricLane 3 = false ∧
    respB (sResp 0 0 8 1 (ringWords 64)) = true ∧ (sResp 0 0 8 1 (ringWords 64)).compHead 3 ≠ (sResp 0 0 8 1 (ringWords 64)).compTail 3 ∧
    (sResp 0 0 8 0 []).compHead 3 = (sResp 0 0 8 0 []).compTail 3 ∧ (sResp 0 0 8 1 (ringWords 64)).rf (.egrCring 3) egrCring_SIZE ≤ 8 ∧
    (let r := (sResp 0 0 8 1 (ringWords 64)).masterReadBytes mEGR 0 ringAt 64 2
     r.2.1 = true ∧ bit (ofBytes (r.1.take 8)) 63 = true ∧ compZeros (wordsLE r.1 8) = true) ∧
    bit (ofBytes (((sResp 0 0 8 1 [1]).masterReadBytes mEGR 0 ringAt 64 2).1.take 8)) 63 = false := by decide +kernel

/-! ## The journal -/

/-- A cartridge of this device's root, with a label and entries. -/
def cart (l : Option CartLabel) (es : List RingEnt) : Cart := ⟨1, [7], true, true, 0, false, l, es, 0⟩

/-- s0 with the slots in states and their cartridges. -/
def sJc (a b : Nat) (c d : Option Cart) : State :=
  { (s0.setRf (.jcSlot 0) jcSlot_STATE a).setRf (.jcSlot 1) jcSlot_STATE b with
      carts := (c.toList.map (fun x => (0, x))) ++ (d.toList.map (fun x => (1, x))), cartRoot := [7], ref100 := true }

/-- An entry of the journal, sent or not to slot 0. -/
def entry (seq : Nat) (x : Option JSent) : JEntry := ⟨seq, [1, 2, 3, 4], x, none, false, false⟩

/-- A mirror in slot 0 that has been sent entry 9 and has not acknowledged it. -/
def sSent : State := { sJc jsMIRROR jsABSENT (some (cart none [])) none with staged := [entry 9 (some ⟨3, 0, 10⟩)] }

theorem witness_appends :
    (let s : State := { s0 with sealing := [⟨9, 0, 0, []⟩] }
     s.sealing = [⟨9, 0, 0, []⟩] ∧ s.staged = [] ∧ (s.reg .jcDur).toNat < 9) ∧
    ({ sSent with staged := [entry 9 none] } : State).unsent ≠ 0 ∧ ({ sSent with staged := [entry 9 none] } : State).unsent < 65536 ∧
    (sSent.outstanding 0).contains 3 = true ∧ sSent.jcState 0 = jsMIRROR ∧ (tfind sSent.carts 0).isSome = true ∧
    sSent.slotsIn jsMIRROR = [0] ∧ sSent.jcQuiet = false ∧ sSent.serving = true ∧ sSent.outstanding 0 ≠ [] := by decide +kernel

theorem unsent_one (bs : List Byte) :
    ({ sSent with staged := [⟨9, bs, none, none, false, false⟩] } : State).unsent = bs.length := by
  have : sSent.slotsIn jsMIRROR ++ sSent.slotsIn jsRESILVER = [0] := by decide +kernel
  simp [State.unsent, show ({ sSent with staged := [⟨9, bs, none, none, false, false⟩] } : State).slotsIn = sSent.slotsIn from rfl, this, JEntry.sent]

theorem witness_append_full :
    ∃ bs, 65536 ≤ ({ sSent with staged := [⟨9, bs, none, none, false, false⟩] } : State).unsent :=
  ⟨List.replicate 65536 0, by rw [unsent_one, List.length_replicate]⟩

theorem witness_slots :
    (let s := { sJc jsMIRROR jsMIRROR (some (cart none [])) (some (cart none [])) with staged := [entry 9 (some ⟨3, 0, 10⟩)], jslot := [(1, ⟨20, 0, 0, 0, 0⟩)] }
     s.silentSince 0 = some 10 ∧ s.jcState 1 = jsMIRROR ∧ 10 < (s.jrun 1).lastAck) ∧
    tfind (sJc jsABSENT jsABSENT none none).carts 0 = none ∧ (sJc jsABSENT jsABSENT none none).portsRun 0 = true ∧ s0.portsRun 0 = s0.ref100 ∧
    (let s := fun (l : Option CartLabel) => sJc jsATTEST jsMIRROR (some (cart l [])) (some (cart none []))
     (s none).jcState 0 = jsATTEST ∧ (s none).portsRun 0 = true ∧ (s none).attestReason (cart none []) = none ∧ (s none).foreignLabel (cart none []) = false ∧
      (s none).slotsIn jsMIRROR ≠ [] ∧ (s none).attestReason { cart none [] with signs := false } = some 2 ∧
      (s (some ⟨5, 0, true⟩)).foreignLabel (cart (some ⟨5, 0, true⟩) []) = true) ∧
    (sJc jsATTEST jsABSENT (some (cart none [])) none).slotsIn jsMIRROR = [] ∧ (sJc jsATTEST jsABSENT (some (cart none [])) none).jcState 1 ≠ jsRESILVER := by
  decide +kernel

theorem witness_resilver :
    (let s := sJc jsRESILVER jsMIRROR (some (cart none [])) (some (cart none [⟨4, 0, [1]⟩]))
     s.jcState 0 = jsRESILVER ∧ (({ s with jslot := [(0, ⟨0, 0, 0, 9, 0⟩)] } : State).copyEntry 0).isSome = true ∧ s.copyEntry 0 = none ∧ s.jcState 1 = jsMIRROR) ∧
    (let s := (sJc jsMIRROR jsABSENT (some (cart (some ⟨0, 3, true⟩) [])) none).setReg .jcRel 8
     s.jcState 0 = jsMIRROR ∧ 3 < (s.reg .jcRel).toNat) ∧
    (s0.setRf .jcRdctl jcRdctl_BUSY 1).rf .jcRdctl jcRdctl_BUSY = 1 ∧ s0.slotsIn jsMIRROR = [] := by decide +kernel

/-- A device of node 2 of an estate of 8, with link 4 on, in a state, with a peer, and the roots of its estate. -/
def sLink (st : Nat) : State :=
  let s := ((s0.setRf .cdlEst cdlEst_SIZE 8).setRf .cdlEst cdlEst_NODE 2).setRf (.cdlLctl 4) cdlLctl_EN 1
  let s := (s.setRf (.cdlLctl 4) cdlLctl_LANES 15).setRf (.cdlLstat 4) cdlLstat_STATE st
  { s.setRf (.cdlLstat 4) cdlLstat_PEER 3 with cfg := { s.cfg with estRoot := [1], attRoot := [1] } }

theorem witness_links :
    (sLink lsTRAIN).linkRuns 4 = true ∧ (sLink lsTRAIN).linkState 4 = lsTRAIN ∧ (sLink lsTRAIN).chooseLanes 4 0 = none ∧
    ((sLink lsTRAIN).chooseLanes 4 15).isSome = true ∧
    (sLink lsAUTH).linkRuns 4 = true ∧ (sLink lsAUTH).linkState 4 = lsAUTH ∧ noRoot (sLink lsAUTH).cfg.estRoot = false ∧ noRoot s0.cfg.estRoot = true ∧
    (sLink lsAUTH).estSize = 8 ∧ (sLink lsAUTH).node = 2 ∧
    ((sLink lsAUTH).setRf (.cdlLstat 5) cdlLstat_STATE lsADMITTED).linkState 5 = lsADMITTED ∧
    (sLink lsADMITTED).linkUp 4 = true ∧ (sLink lsADMITTED).linkState 4 ≠ lsDOWN ∧ ((sLink lsADMITTED).linkRun 4).pkts < 2 ^ 32 ∧
    (({ sLink lsADMITTED with links := [(4, { LinkRun.start with pkts := 2 ^ 32, oldTill := some 5, fails := [0, 0] })] } : State).linkRun 4) =
      { LinkRun.start with pkts := 2 ^ 32, oldTill := some 5, fails := [0, 0] } ∧
    (((sLink lsADMITTED).linkRun 4).fails.filter (fun t => decide ((sLink lsADMITTED).now < t + 1000000000))).length < 2 := by decide +kernel

/-- A packet to node d from node 3, of a type, with an argument, an address and a payload. -/
def pkt (typ vc d arg addr : Nat) (pl : List Byte) : Pkt := ⟨typ, vc, d, 3, 9, 0, 0, 77, arg, addr, pl, []⟩

/-- The machine once packet p has been taken from link l. -/
def taken (s : State) (l : Nat) (p : Pkt) : State := ((s.takePkt l p).getD s).answerLost

/-- The conditions of Arrives, computed. -/
def arrivesB (s : State) (typ l : Nat) (p : Pkt) : Bool :=
  decide (l ≤ 12) && pktFits p && decide (p.typ = typ) && (s.takePkt l p).isSome && !((taken s l p).barred l p) && decide (p.dst = (taken s l p).node)

theorem arrives_of {s : State} {typ l : Nat} {p : Pkt} (h : arrivesB s typ l p = true) : Claims.Arrives s typ l p (taken s l p) := by
  simp only [arrivesB, Bool.and_eq_true, decide_eq_true_eq, Bool.not_eq_true'] at h
  obtain ⟨⟨⟨⟨⟨a, b⟩, c⟩, d⟩, e⟩, f⟩ := h
  obtain ⟨v, hv⟩ := Option.isSome_iff_exists.1 d
  exact ⟨a, b, c, ⟨v, hv, by simp [taken, hv]⟩, e, f⟩

/-- A device of node 2 whose link 4 is up, which owns the plot of the data and that of dataAt in the open world, and lets its peers reach
them. -/
def sNode : State :=
  { ((sLink lsADMITTED).setReg (.cdlRkeys 0) (word 3)).setReg (.rdgAttr 1) (word (0xFFFF * 2 ^ 32 + 0x7FF * 2 ^ 16 + 7)) with
      ownMap := [2], mem := Mem.empty.setWord dataAt 0x1122334455667788 tINT }

/-- sNode with the fabric block in a state. -/
def sFab (f : FabRun → FabRun) : State := { sNode with fab := f sNode.fab }

def pLoad : Pkt := pkt pkLOAD 0 2 8 dataAt []
def pStore : Pkt := pkt pkSTORE 0 2 8 dataAt [1, 2, 3, 4, 5, 6, 7, 8]
def pPass : Pkt := pkt pkPASS 0 2 0 dataAt (List.replicate 176 0)

theorem witness_forwarding :
    let p := pkt pkLOAD 0 5 8 dataAt []
    pktFits p = true ∧ (sNode.takePkt 4 p).isSome = true ∧ (taken sNode 4 p).barred 4 p = false ∧ p.dst ≠ (taken sNode 4 p).node ∧
    (taken sNode 4 p).routeLink p.dst p.src p.addr = none ∧ (taken sNode 4 { p with typ := 0 }).barred 4 { p with typ := 0 } = true ∧
    (taken (sNode.setReg (.cdlRoute 5) (word (1 + 2 ^ 8))) 4 p).routeLink p.dst p.src p.addr = some 4 := by decide +kernel

theorem witness_owner_requests :
    arrivesB sNode pkLOAD 4 pLoad = true ∧ pktBadAccess pLoad = false ∧ arrivesB sNode pkSTORE 4 pStore = true ∧ pktBadAccess pStore = false ∧
    pStore.payload.length = pktSize pStore ∧ arrivesB sNode pkPASS 4 pPass = true ∧ pPass.payload.length = 176 ∧
    (taken sNode 4 pLoad).fab.migOut = none ∧ plotOf pLoad.addr ∈ (taken sNode 4 pLoad).ownMap ∧
    plotOf pLoad.addr ∉ (taken { sNode with ownMap := [] } 4 pLoad).ownMap ∧ arrivesB { sNode with ownMap := [] } pkLOAD 4 pLoad = true ∧
    tfind (taken { sNode with forwards := [(2, (6, 1000))] } 4 pLoad).forwards (plotOf pLoad.addr) = some (6, 1000) ∧ sNode.now < 1000 ∧
    (taken (sFab (fun f => { f with migOut := some ⟨2, 3, [], 6, 1, 100, []⟩ })) 4 pLoad).fab.migOut = some ⟨2, 3, [], 6, 1, 100, []⟩ ∧
    (ownerAccess (taken sNode 4 pLoad) pLoad false).1.isOk = true ∧ (ownerAccess (taken sNode 4 pStore) pStore true).1.isOk = true ∧
    (match (ownerAccess (taken (sNode.setReg (.cdlRkeys 0) 0) 4 pLoad) pLoad false).1 with
      | .error d => decide (d.reason < 16 ∧ d.cause < 256 ∧ d.oreason < 16)
      | _ => false) = true ∧ pktFlag6 pLoad = false ∧ pktIsCap pLoad = false ∧ pktIsCap pStore = false := by decide +kernel

theorem ownerAccess_mem {s : State} {p : Pkt} {w : Bool} (h : (ownerPa s p w).2 = s) (k : (ownerAccess s p w).1.isOk = true) :
    (ownerAccess s p w).2.mem = s.mem := by
  revert k
  unfold ownerAccess
  generalize hr : ownerPa s p w = r at *
  obtain ⟨r, v⟩ := r
  subst h
  cases r with
  | error d => exact fun z => nomatch z
  | ok pa =>
    dsimp only
    generalize hq : v.ridgeRemote w pa p.src (plotOf p.addr) = q
    obtain ⟨b, u⟩ := q
    cases b with
    | false => exact fun z => nomatch z
    | true =>
      intro _
      have := State.ridgeRemote_heatOnly (s := v) (pa := pa) (src := p.src) (plot := plotOf p.addr) (w := w) (by rw [hq])
      rw [hq] at this
      exact this.mem

theorem witness_owner_words :
    (ownerAccess (taken sNode 4 pLoad) pLoad false).2.mem.tag dataAt = tINT ∧
    ∀ o, o ∈ dataOps dataAt (ofBytes (pStore.payload.map BitVec.toNat)) 8 tINT 3 →
      storeTagTrap ((ownerAccess (taken sNode 4 pStore) pStore true).2.mem.tag o.addr) o.mask 0 dataAt false = none := by
  rw [ownerAccess_mem (by decide +kernel) (by decide +kernel), ownerAccess_mem (by decide +kernel) (by decide +kernel)]
  decide +kernel

/-- sNode with an inverted table of one entry, in the system area, whose page is being moved. -/
def sMoving : State :=
  { sNode.setReg (.rdgLimit 1) 0x1900000000 with
      cores := [(0, { core0 ctx0 with sr := [(nIPTBASE, word ringAt), (nIPTSIZE, 1)] })]
      mem := ((((Mem.empty.setWord ringAt (2 ^ 63 + 2 ^ 45 + dataAt / 2 ^ 14) tINT).setWord (ringAt + 8) 0 tINT).setWord (ringAt + 16) 1 tINT).setWord
        (ringAt + 24) 0 tINT) }

/-- sMoving with a walk of pLoad held since a time. -/
def sHeldWalk (since : Nat) : State := { sMoving with fab := { sMoving.fab with mvHeld := [⟨4, pLoad, 0, since⟩] } }

/-- A probe finds an entry that is being moved. -/
def movingB (s : State) : Bool :=
  match (probe s (startEnv s.tableCore 0) 0 1).1 with
  | .ok e => e.mv
  | _ => false

theorem witness_moving :
    arrivesB sMoving pkLOAD 4 pLoad = true ∧
    (match (ownerAccess (taken sMoving 4 pLoad) pLoad false).1 with
      | .error d => decide (d.reason = 16)
      | _ => false) = true ∧
    (sHeldWalk 100).fab.mvHeld = [⟨4, pLoad, 0, 100⟩] ∧ 100 + 20000 > (sHeldWalk 100).now + 40 ∧
    movingB ((sHeldWalk 100).advanceTo ((sHeldWalk 100).now + 40)) = true ∧ movingB ((sHeldWalk 100).advanceTo 20100) = true := by decide +kernel

theorem witness_remote_pass_queue : (taken (sNode.setRf .cdlRpass cdlRpass_EN 1) 4 pPass).rf .cdlRpass cdlRpass_EN = 1 ∧
    (taken sNode 4 pPass).rf .cdlRpass cdlRpass_EN = 0 ∧ (taken sNode 4 pPass).fab.rpq.length < 64 ∧
    arrivesB (sNode.setRf .cdlRpass cdlRpass_EN 1) pkPASS 4 pPass = true := by decide +kernel

/-- A frame for lane 3, a response and physical accesses of an ATTACHED peer. -/
def pFrame : Pkt := pkt pkFRAME 3 2 3 0 [1, 2]
def pFresp : Pkt := pkt pkFRESP 3 2 0 0 []
def pRead : Pkt := pkt pkPHYSRD 0 2 7 dataAt []
def pWrite : Pkt := pkt pkPHYSWR 0 2 7 dataAt [1, 2, 3, 4, 5, 6, 7, 8]

/-- sNode with lane 3 fed by the fabric, and link 4 in a state. -/
def sFabLane (st : Nat) : State :=
  ((sNode.setRf (.ingLcfg 3) ingLcfg_EN 1).setRf (.ingLcfg 3) ingLcfg_SRC 1).setRf (.cdlLstat 4) cdlLstat_STATE st

/-- sNode with link 4 ATTACHED and no table entry for memory. -/
def sShut : State := (sFabLane lsATTACHED).setReg (.rdgAttr 1) 0

theorem witness_attached :
    arrivesB (sFabLane lsADMITTED) pkFRAME 4 pFrame = true ∧ arrivesB sNode pkFRAME 4 pFrame = true ∧ (taken sNode 4 pFrame).rf (.ingLcfg 3) ingLcfg_EN = 0 ∧
    (taken (sFabLane lsADMITTED) 4 pFrame).rf (.ingLcfg 3) ingLcfg_EN = 1 ∧ (taken (sFabLane lsADMITTED) 4 pFrame).rf (.ingLcfg 3) ingLcfg_SRC = 1 ∧
    (taken (sFabLane lsADMITTED) 4 pFrame).ingOn = true ∧ (List.range 4096).any (fun i => !((taken (sFabLane lsADMITTED) 4 pFrame).slots.contains i)) = true ∧
    arrivesB sNode pkFRESP 4 pFresp = true ∧ arrivesB sNode pkPHYSRD 4 pRead = true ∧ (taken sNode 4 pRead).physOk 4 pRead = false ∧
    arrivesB (sFabLane lsATTACHED) pkPHYSRD 4 pRead = true ∧ arrivesB (sFabLane lsATTACHED) pkPHYSWR 4 pWrite = true ∧
    (taken (sFabLane lsATTACHED) 4 pRead).physOk 4 pRead = true ∧ (taken (sFabLane lsATTACHED) 4 pWrite).physOk 4 pWrite = true ∧
    pWrite.payload.length = pWrite.arg + 1 ∧ ((taken sShut 4 pRead).ridge mFAB 0 false dataAt).1 = none ∧ ((taken sShut 4 pWrite).ridge mFAB 0 true dataAt).1 = none ∧
    arrivesB sShut pkPHYSRD 4 pRead = true ∧ arrivesB sShut pkPHYSWR 4 pWrite = true ∧
    ((taken (sFabLane lsATTACHED) 4 pRead).ridge mFAB 0 false dataAt).1 = some false ∧ ((taken (sFabLane lsATTACHED) 4 pWrite).ridge mFAB 0 true dataAt).1 = some false := by
  decide +kernel

theorem witness_physical_read : (((taken (sFabLane lsATTACHED) 4 pRead).ridge mFAB 0 false dataAt).2.mem.masterRead dataAt).2 = true := by
  rw [(State.ridge_heatOnly (se := false) (by decide +kernel)).mem]
  decide +kernel

/-- A device with the remote-PASS descriptor and a gate in its TCM, and a request at the head of its queue. -/
def sRemote : State :=
  let r := rootMemory false 0
  let m := ((memGate 0).setWord (dataAt + 0x80 + 48) 0 tCAPLO).setWord (dataAt + 0x80 + 56) r.hi.toNat tCAPHI
  let s := ((dev (core0 ctx0) (m.setWord (dataAt + 0x80 + 64) 1 tINT)).setReg .cdlRpdesc (word (dataAt + 0x80))).setRf .cdlRpass cdlRpass_PAIRS 1
  { s with fab := { s.fab with rpq := [⟨0, 3, 77, 4, false, dataAt, List.replicate 6 Cap.null, List.replicate 8 0, false⟩] } }

/-- What the start finds in s, on the context that it takes: its checks pass and the push succeeds, or they give a cause. -/
def remoteB (s : State) (ok : Bool) : Bool :=
  match s.fab.rpq with
  | r :: rest =>
    let E := startEnv 0 ((s.idleCtx 0).getD 0)
    let v := (s.startGoes 128).answerLost
    let u : State := { v with fab := { v.fab with rpq := rest }, lastPick := tset s.lastPick 128 0 }
    s.serving && decide (s.choosePair 128 (s.rf .cdlRpass cdlRpass_PAIRS) false none none = some 0 ∧ s.startWaits 128 E (rpReach s E r) = none) &&
    (match rpChecks u E r with
      | (.ok (g, cc, sup), v) => (match rpStart v E r g cc sup with
        | .ok w => ok && decide (w.csTrap 0 (some rtRPSTART) = none)
        | _ => false)
      | (.error d, _) => !ok && !r.gone && decide (d.reason < 16 ∧ d.cause < 256 ∧ d.oreason < 16))
  | _ => false

theorem witness_remote_pass_start : (remoteB sRemote true && remoteB (sRemote.setReg .cdlRpdesc (word (dataAt + 0x1000))) false) = true := by decide +kernel

/-- A request of context 0 of core 0 to node 3 for the data. -/
def req (typ : Nat) : RemoteReq := ⟨startEnv 0 0, typ, 77, 3, 4, dataAt, 8, [], [], 1, 1, 3, 8, none, 5000, 0⟩

/-- sNode whose context 0 awaits an answer from node 3 to a request of a type. -/
def sAwait (typ : Nat) : State :=
  { sNode with cores := [(0, core0 { ctx0 with st := .wait, wait := .remote (req typ) })] }

/-- sNode with a posted request of a type to node 3. -/
def sPosted (typ : Nat) : State := { sNode with posted := [req typ] }

/-- A packet that answers. -/
def ans (typ arg : Nat) (pl : List Byte) : Pkt := pkt typ 1 2 arg 0 pl

theorem witness_answers :
    arrivesB (sAwait pkLOAD) pkDATA 4 (ans pkDATA 0 [1, 2, 3, 4, 5, 6, 7, 8]) = true ∧
    (taken (sAwait pkLOAD) 4 (ans pkDATA 0 [])).findReq 77 = some (true, req pkLOAD) ∧ (taken sNode 4 (ans pkDATA 0 [])).findReq 77 = none ∧
    noStepB (taken (sAwait pkLOAD) 4 (ans pkDATA 0 [])) (startEnv 0 0) = true ∧
    arrivesB (sPosted pkSTORE) pkACK 4 (ans pkACK 1 []) = true ∧ (taken (sPosted pkSTORE) 4 (ans pkACK 1 [])).findReq 77 = some (false, req pkSTORE) ∧
    (taken (sPosted pkSTORE) 4 (ans pkACK 1 [])).fab.postQ = [] ∧
    (taken (sAwait pkSTORE) 4 (ans pkACK 1 [])).findReq 77 = some (true, req pkSTORE) ∧
    (taken (sFab (fun f => { f with claim := some ⟨1, 5, 77, 9000⟩ })) 4 (ans pkACK 1 [])).fab.claim = some ⟨1, 5, 77, 9000⟩ ∧
    (taken sNode 4 (ans pkACK 1 [])).fab.regWait = [] ∧ (taken sNode 4 (ans pkACK 1 [])).fab.claim = none ∧ (taken sNode 4 (ans pkACK 1 [])).fab.migOut = none ∧
    arrivesB (sAwait pkPASS) pkPASSREPLY 4 (ans pkPASSREPLY 0 (List.replicate 160 0)) = true ∧
    (taken (sAwait pkPASS) 4 (ans pkPASSREPLY 0 [])).findReq 77 = some (true, req pkPASS) := by decide +kernel

/-- sPosted of a store, with a route to node 6. -/
def sResend : State := (sPosted pkSTORE).setReg (.cdlRoute 6) (word (1 + 2 ^ 8))

theorem witness_nacks :
    arrivesB (sAwait pkLOAD) pkNACK 4 (ans pkNACK 6 (toBytes 0 8 |>.map (BitVec.ofNat 8))) = true ∧
    entersB ((taken (sAwait pkLOAD) 4 (ans pkNACK 6 [])).endReq true (req pkLOAD)) (startEnv 0 0) = true ∧
    (let p := ans pkNACK 5 ((toBytes (2 ^ 15 + 6) 8).map (BitVec.ofNat 8))
     arrivesB sResend pkNACK 4 p = true ∧ payloadWord p.payload 0 = 2 ^ 15 + 6 ∧ (taken sResend 4 p).findReq 77 = some (false, req pkSTORE) ∧
      6 ≠ (taken sResend 4 p).node ∧ (taken sResend 4 p).routeLink 6 (taken sResend 4 p).node dataAt = some 4 ∧ (taken sResend 4 p).plotCache = []) ∧
    entersB ((((sAwait pkLOAD).advanceTo 5000).timedOut 4).endReq true (req pkLOAD)) (startEnv 0 0) = true ∧
    (sAwait pkLOAD).findReq 77 = some (true, req pkLOAD) ∧ (sPosted pkLOAD).findReq 77 = some (false, req pkLOAD) ∧ (sPosted pkLOAD).fab.postQ = [] ∧
    (sFab (fun f => { f with migIn := some ⟨5, 3, 1, 4, 77, [9], [], [], 0⟩ })).fab.migIn.isSome = true := by decide +kernel

/-! ## The estate -/

/-- A plot whose registrar is node 2 of the estate of 8, and its first page. -/
def plotHere : Nat := ((List.range 64).find? (fun p => decide (sNode.registrarOf p = 2))).getD 0

/-- sNode with the entry of plotHere in its registrar table. -/
def sTableOf (o : Option Nat) : State := { sNode with registrar := [(plotHere, ⟨o, 1, false⟩)] }

def pReg (op arg : Nat) : Pkt := pkt pkREG 0 2 (op + 16 * arg) (plotHere * 2 ^ 21) []

theorem witness_registrar :
    arrivesB sNode pkLOOKUP 4 (pkt pkLOOKUP 0 2 0 dataAt []) = true ∧
    (tfind (taken (sTableOf none) 4 (pReg 1 0)).registrar (plotOf (pReg 1 0).addr)) = some ⟨none, 1, false⟩ ∧
    (tfind (taken (sTableOf (some 3)) 4 (pReg 1 0)).registrar (plotOf (pReg 1 0).addr)) = some ⟨some 3, 1, false⟩ ∧
    (tfind (taken (sTableOf (some 6)) 4 (pReg 1 0)).registrar (plotOf (pReg 1 0).addr)) = some ⟨some 6, 1, false⟩ ∧
    tfind (taken sNode 4 (pReg 1 0)).registrar (plotOf (pReg 1 0).addr) = none ∧
    [1, 2, 3].all (fun op => arrivesB (sTableOf (some 3)) pkREG 4 (pReg op 6) && decide ((pReg op 6).arg % 4 = op)) = true ∧
    (taken sNode 4 (pReg 1 0)).registrarOf (plotOf (pReg 1 0).addr) = (taken sNode 4 (pReg 1 0)).node := by decide +kernel

/-- sNode whose one core has a context that waits for the owner of plot 9. -/
def sAsks : State :=
  { sNode with cores := [(0, core0 { ctx0 with st := .wait, wait := .lookup 9 (9 * 2 ^ 21) 1 77 3 5000 4 })] }

theorem witness_lookreply :
    [1, 2, 3].all (fun a => arrivesB sAsks pkLOOKREPLY 4 (ans pkLOOKREPLY a [])) = true ∧
    (taken sAsks 4 (ans pkLOOKREPLY 1 [])).cores = [(0, (taken sAsks 4 (ans pkLOOKREPLY 1 [])).core 0)] ∧
    ((taken sAsks 4 (ans pkLOOKREPLY 1 [])).ctx 0 (other 0)).wait = .none ∧
    ((taken sAsks 4 (ans pkLOOKREPLY 1 [])).ctx 0 0).wait = .lookup 9 (9 * 2 ^ 21) 1 77 3 5000 4 ∧
    (taken sAsks 4 (ans pkLOOKREPLY 1 [])).plotCache = [] ∧
    entersB ((taken sAsks 4 (ans pkLOOKREPLY 2 [])).endWait 0 0) ((taken sAsks 4 (ans pkLOOKREPLY 2 [])).waitEnv 0 0) = true := by decide +kernel

/-- sNode with free frames, and a migration of plot 9 coming in for frame 6, beside a table of 64 entries in the system area. -/
def sMig (mig : Option MigIn) : State :=
  { sNode.setReg (.rdgLimit 1) 0x1900000000 with
      pools := [(0, [5, 6])], fab := { sNode.fab with migIn := mig }
      cores := [(0, { core0 ctx0 with sr := [(nIPTBASE, word ringAt), (nIPTSIZE, 64)] })] }

def mig9 : MigIn := ⟨9, 3, 1, 4, 77, [0x600400], [(0, 0x600400)], [], 0⟩

def pOffer (n : Nat) : Pkt := pkt pkOFFER 0 2 n (9 * 2 ^ 21) []
def pData (part : Nat) : Pkt :=
  { pkt pkMDATA 3 2 (128 * part) (9 * 2 ^ 21) (if part < 8 then List.replicate 2048 1 else List.replicate 16 0) with
      tags := if part < 8 then List.replicate 256 1 else [] }

/-- The Ridge table admits a part of the page. -/
def partB (part : Nat) : Bool :=
  let u := taken (sMig (some mig9)) 4 (pData part)
  (u.partAdmitted 0x600400 part (iptHash u.tableSeed u.tableN false (9 * 128))).1

theorem witness_migration : partB 0 = true ∧ partB 8 = true ∧
    arrivesB (sMig none) pkOFFER 4 (pOffer 1) = true ∧ arrivesB (sMig none) pkOFFER 4 (pOffer 0) = true ∧
    (let u := taken (sMig none) 4 (pOffer 1)
     u.fab.migOut = none ∧ u.fab.migIn = none ∧ plotOf (pOffer 1).addr ∉ u.ownMap ∧ u.plotMapped (plotOf (pOffer 1).addr) = false ∧
      1 ≤ (((List.range 4).flatMap u.pool).filter u.eligible).length) ∧
    arrivesB (sMig none) pkMDATA 4 (pData 0) = true ∧ arrivesB (sMig (some mig9)) pkMDATA 4 (pData 0) = true ∧ arrivesB (sMig (some mig9)) pkMDATA 4 (pData 8) = true ∧
    (taken (sMig (some mig9)) 4 (pData 0)).fab.migIn = some mig9 ∧ (taken (sMig (some mig9)) 4 (pData 0)).mem.wf = true ∧
    plotOf (pData 0).addr = 9 ∧ tfind mig9.pages ((pData 0).arg % 128) = some 0x600400 ∧ (pData 0).payload.length = 2048 ∧ (pData 0).tags.length = 256 ∧
    (pData 8).payload.length = 16 ∧
    ((taken (sMig (some mig9)) 4 (pData 8)).entryOf (iptHash (taken (sMig (some mig9)) 4 (pData 8)).tableSeed (taken (sMig (some mig9)) 4 (pData 8)).tableN false (9 * 128))).lk = false := by
  decide +kernel

/-- A notice that a node has been lost or joins, with its incarnation. -/
def pNotice (typ n inc : Nat) : Pkt := pkt typ 2 2 0 0 ((toBytes (n + inc * 2 ^ 32) 8).map (BitVec.ofNat 8))

theorem witness_notices :
    arrivesB sNode pkLOST 4 (pNotice pkLOST 6 1) = true ∧ arrivesB sNode pkJOIN 4 (pNotice pkJOIN 6 1) = true ∧
    noticeOf (pNotice pkLOST 6 1) = (6, 1) ∧ (taken sNode 4 (pNotice pkLOST 6 1)).recorded 6 = none ∧
    (taken { sNode with nodes := [(6, (1, false))] } 4 (pNotice pkLOST 6 1)).recorded 6 = some (1, false) ∧
    arrivesB sNode pkECHO 4 (pkt pkECHO 2 2 0 0 []) = true ∧ arrivesB sNode pkECHO 4 (pkt pkECHO 2 2 1 0 []) = true ∧
    tfind ({ sNode with echoes := [(6, 50)] } : State).echoes 6 = some 50 ∧ ({ sNode with nodes := [(6, (1, false))] } : State).recorded 6 = some (1, false) ∧
    (({ sNode with plotCache := [⟨9, 3, some 50⟩] } : State).plotCache.find? (fun e => decide (e.plot = 9))) = some ⟨9, 3, some 50⟩ ∧
    tfind ({ sNode with forwards := [(9, (3, 50))] } : State).forwards 9 = some (3, 50) ∧
    ({ sNode with offers := [2] } : State).offers = [2] ∧ sNode.serving = true ∧ (sNode.plotStatOf 2).top = none := by decide +kernel

/-! ## Boot, modes, reset and management -/

/-- A device in a mode. -/
def sMode (m : Nat) : State := s0.setRf .sysMode sysMode_MODE m

/-- A device in RECONFIG with a reconfiguration under way, whose slice is core pair 0. -/
def sRecon (idle : Bool) : State :=
  { (sMode mdRECONFIG).setRf .imgSlpair imgSlpair_PAIRS (if idle then 0 else 1) with recon := some ⟨false, 5⟩ }

theorem witness_selftest :
    testable 2 5 = true ∧ (sMode mdSELFTEST).mode = mdSELFTEST ∧ (sMode mdSELFTEST).rf .sysMode sysMode_REASON = 0 ∧ (sMode mdSELFTEST).porLow = false ∧
    (sMode mdSELFTEST).wrstLow = false ∧ fatalReason [(2, 5)] = 0 ∧ fatalReason ((List.range 24).map (fun k => (1, k))) ≠ 0 ∧
    (List.range 24).all (fun k => testable 1 k) = true := by decide +kernel

theorem witness_boot :
    (sMode mdCONFIGURE).mode = mdCONFIGURE ∧ (sMode mdCONFIGURE).rf .sysMode sysMode_RECOVERY = 0 ∧
    (imgCheck1 ((sMode mdCONFIGURE).slotImage 0)).isSome = true ∧ (imgCheck1 ((sMode mdCONFIGURE).slotImage 1)).isSome = true ∧
    ((sMode mdCONFIGURE).setRf .imgStat imgStat_BUSY 1).rf .imgStat imgStat_BUSY = 1 ∧ (imgCheck1 (sMode mdCONFIGURE).barImage).isSome = true ∧
    (sMode mdSERVICE).mode ≠ mdCONFIGURE ∧ (sMode mdSERVICE).mode ≠ mdRECONFIG ∧
    (sRecon true).mode = mdRECONFIG ∧ (sRecon true).recon.isSome = true ∧ (sRecon true).sliceIdle = true ∧ (sRecon false).sliceIdle = false := by
  decide +kernel

theorem witness_management :
    [1, 2, 3].all (fun op => decide (({ s0 with flOp := some (op, 0x1000, 5) } : State).flOp = some (op, 0x1000, 5))) = true ∧ awf s0.flash 0xFF 0 = true ∧
    s0.flashByte 0x1003 = 0xFF ∧
    ({ s0 with uartTx := [7] } : State).uartTx ≠ [] ∧ (s0.setRf .mgtUart mgtUart_EN 1).rf .mgtUart mgtUart_EN = 1 ∧ s0.sealedShut = false ∧
    s0.porLow = false ∧ s0.wrstLow = false ∧ (s0.setRf .mgtMctl mgtMctl_TXBUSY 1).rf .mgtMctl mgtMctl_TXBUSY = 1 ∧
    (s0.setRf .mgtSmb mgtSmb_EN 1).smbOn = true ∧ [0, 1].all (fun b => decide ((s0.setRf .mgtMctl mgtMctl_RXFULL b).rf .mgtMctl mgtMctl_RXFULL = b)) = true ∧
    (let s := ((sMode mdCONFIGURE).setRf .mgtSmb mgtSmb_EN 1).setRf .sysMode sysMode_RECOVERY 1
     s.smbOn = true ∧ s.mode = mdCONFIGURE ∧ s.rf .sysMode sysMode_RECOVERY = 1 ∧ s.rf .sysFuse sysFuse_CROOT = 0) ∧
    (List.replicate 48 (7 : Byte)).length = 48 ∧ s0.mode ≠ mdCONFIGURE := by decide +kernel

theorem witness_resets :
    (s0.setRf .mgtSmb mgtSmb_EN 1).smbOn = true ∧ s0.wrstLow = false ∧ s0.porLow = false ∧ s0.mode ≠ mdLOCKDOWN ∧ (sMode mdLOCKDOWN).mode = mdLOCKDOWN ∧
    ({ s0 with wrstLow := true } : State).wrstLow = true ∧ ({ s0 with hostHeld := true } : State).hostHeld ≠ false ∧
    ({ s0 with porLow := true } : State).porLow = true ∧
    (let s := { (s0.setRf .sysLdrec sysLdrec_LDLIMIT 2).setRf .sysLdrec sysLdrec_LDCOUNT 2 with porLow := true }
     s.rf .sysLdrec sysLdrec_LDLIMIT = 2 ∧ s.rf .sysLdrec sysLdrec_LDCOUNT = 2 ∧ s.mode ≠ mdLOCKDOWN) ∧
    (s0.setRf .sysLdrec sysLdrec_LDLIMIT 0).rf .sysLdrec sysLdrec_LDLIMIT = 0 ∧
    bit ((s0.setRf .sysTamper sysTamper_ARMED 8).rf .sysTamper sysTamper_ARMED) 3 = true ∧
    ({ s0 with ldClear := some 5, ldFuse := some 6 } : State).ldClear = some 5 ∧ ({ s0 with ldClear := some 5, ldFuse := some 6 } : State).ldFuse = some 6 ∧
    s0.paired 50 = false := by decide +kernel

/-- A pair of words of a capability at the data, and a machine whose next command starts a power-on reset, or another. -/
def memPair : Mem := (Mem.empty.setWord dataAt 5 tCAPLO).setWord (dataAt + 8) 6 tCAPHI

theorem witness_whole_machine :
    goB (.ceq h0 0 1 2) s0 = true ∧ memPair.wf = true ∧ memPair.tag dataAt = tCAPLO ∧ memPair.tag (dataAt + 8) = tCAPHI ∧
    ({ sMode mdLOCKDOWN with pending := [.wrstNRise] } : State).pending.head? ≠ some (.porN true) ∧
    s0.memWf = true ∧ s0.pending = [] := by decide +kernel

theorem witness_lockdown_step : ∃ t, step { sMode mdLOCKDOWN with pending := [.wrstNRise] } = .next t := ⟨_, rfl⟩

theorem witness_memory_step : ∃ t, step { s0 with pending := [.add h0 3 1 2] } = .next t := by
  exact ⟨_, rfl⟩

/-- The words of an image of one WORLD section, with the four entries of the open world: what is at their offsets, all else being zero. -/
def imgWords : List (Nat × Nat) :=
  [(0, 0x4F4D4D52494D4731), (8, 0x101), (0x10, 0x9060 + 0x4000 * 2 ^ 32), (0x18, 1), (0x100, 1), (0x108, 0x3000 + 160 * 2 ^ 32)] ++
  (List.range 4).flatMap (fun i => [(0x3000 + 40 * i, 0x0103 + i * 2 ^ 16 + 32 * 2 ^ 32), (0x3008 + 40 * i, codeAt), (0x3010 + 40 * i, codeAt),
    (0x3018 + 40 * i, 0x10000), (0x3020 + 40 * i, 0x3FFF)])

/-- The image's bytes that are not zero. -/
def imgBytes : List (Nat × Byte) :=
  imgWords.flatMap (fun w => (List.range 8).filterMap (fun i => if byteOf w.2 i = 0 then none else some (w.1 + i, BitVec.ofNat 8 (byteOf w.2 i))))

/-- A device in CONFIGURE whose buffer holds the image, with its owner's root fused. -/
def sImage : State :=
  { (sMode mdCONFIGURE).setRf .sysFuse sysFuse_CROOT 1 with bar2 := imgBytes }

theorem aget_gap {l : List (Nat × Byte)} {i : Nat} (h : ∀ e, e ∈ l → e.1 ≠ i) : aget l i (0 : Byte) = 0 := by
  induction l with
  | nil => rfl
  | cons e l ih =>
    have := h e (List.mem_cons_self ..)
    simp only [aget, if_neg this]
    exact ih (fun e he => h e (List.mem_cons_of_mem _ he))

theorem iZero_gap {l : List (Nat × Byte)} {s : State} {a n : Nat} (hs : s.bar2 = l)
    (h : l.all (fun e => decide (e.1 < a) || decide (a + n ≤ e.1)) = true) : iZero s.barImage a n = true := by
  unfold iZero
  rw [List.all_eq_true]
  intro i hi
  have := List.mem_range.1 hi
  have g : aget l (a + i) (0 : Byte) = 0 := aget_gap (fun e he q => by
    have := List.all_eq_true.1 h e he
    simp only [Bool.or_eq_true, decide_eq_true_eq] at this
    omega)
  show decide ((aget s.bar2 (a + i) (0 : Byte)).toNat % 256 = 0) = true
  rw [hs, g]; rfl

theorem imgCheck1_one {f : Nat → Nat} {x : Sec} (n : imgNsec f = 1) (d : imgSecs f = [x]) (z1 : iZero f 0x020 0xE0 = true)
    (z2 : iZero f 0x140 0x1FC0 = true)
    (h : decide (iWord f 0 ≠ 0x4F4D4D52494D4731 ∨ bits (iWord f 8) 7 0 ≠ 1 ∨ bits (iWord f 8) 31 16 ≠ 0 ∨ bits (iWord f 8) 63 48 ≠ 0 ∨
      0x1F00000 < imgLength f ∨ imgSigoff f % 4096 ≠ 0 ∨ imgLength f < imgSigoff f + 0x5060 ∨ imgId f = 0) = false)
    (k : (decide (bits (iWord f (0x100 + 64 * x.ix)) 63 25 ≠ 0) || decide (x.off % 4096 ≠ 0) || decide (x.off < 0x3000) || decide (x.len < 8) ||
      decide (x.len % 8 ≠ 0) || decide (imgSigoff f < x.off + x.len) || x.overlaps x) = false) : imgCheck1 f = none := by
  unfold imgCheck1
  simp only [decide_eq_false_iff_not, not_or, Bool.or_eq_false_iff] at h k
  simp_all

theorem imgCheck_all {s : State} {f : Nat → Nat} (c1 : imgCheck1 f = none) (c6 : s.imgCheck6 f = none) (c7 : imgCheck7 f false = none)
    (c8 : s.imgCheck8 f = none) (c9 : imgCheck9 f = none) (c10 : s.imgCheck10 (s.imgSim f false).1 f false false = none)
    (c11 : (s.imgSim f false).2 = none) : s.imgCheck f false = none := by
  simp [State.imgCheck, c1, c6, c7, c8, c9, c10, c11]

theorem imgCheck6_one {s : State} {f : Nat → Nat} {x : Sec} (r : s.rf .sysFuse sysFuse_CROOT ≠ 0)
    (chain : Config.chainOk (iBytes f (imgSigoff f) 0x2000) s.fuseRoot = true)
    (sig : Config.sigOk (iBytes f (imgSigoff f) 0x2000) (iBytes f 0 0x2100) (iBytes f (imgSigoff f + 0x2000) 0x60) = true)
    (d : imgSecs f = [x]) (v : x.v = false) (t : x.typ ≠ 4) (z3 : iZero f (imgSigoff f + 0x3000) 0x2000 = true)
    (z4 : iZero f (imgSigoff f + 0x5000) 0x60 = true) (svn : ¬ imgSvn f < s.rf .sysFuse sysFuse_SVNMIN)
    (dig : Config.sha384 (iBytes f x.off x.len) = x.dig) : s.imgCheck6 f = none := by
  unfold State.imgCheck6
  simp [r, chain, sig, d, v, t, z3, z4, svn, dig]

-- The image passes every check, where the chain, the signature and the digest are those of the owner: R559 and R560 leave their
-- algorithms to their standards, and the model to constants without a body.
theorem witness_image (chain : Config.chainOk (iBytes sImage.barImage (imgSigoff sImage.barImage) 0x2000) sImage.fuseRoot = true)
    (sig : Config.sigOk (iBytes sImage.barImage (imgSigoff sImage.barImage) 0x2000) (iBytes sImage.barImage 0 0x2100)
      (iBytes sImage.barImage (imgSigoff sImage.barImage + 0x2000) 0x60) = true)
    (dig : Config.sha384 (iBytes sImage.barImage 0x3000 160) = List.replicate 48 0) : sImage.imgCheck sImage.barImage false = none := by
  have z1 : iZero sImage.barImage 0x020 0xE0 = true := iZero_gap rfl (by decide +kernel)
  have z2 : iZero sImage.barImage 0x140 0x1FC0 = true := iZero_gap rfl (by decide +kernel)
  have z3 : iZero sImage.barImage 0x7000 0x2000 = true := iZero_gap rfl (by decide +kernel)
  have z4 : iZero sImage.barImage 0x9000 0x60 = true := iZero_gap rfl (by decide +kernel)
  have n : imgNsec sImage.barImage = 1 := by decide +kernel
  have g : imgSigoff sImage.barImage = 0x4000 := by decide +kernel
  have d : imgSecs sImage.barImage = [⟨0, 1, 0, false, 0x3000, 160, List.replicate 48 0⟩] := by decide +kernel
  have c1 : imgCheck1 sImage.barImage = none := by
    have h := imgCheck1_one n d z1 z2 (by decide +kernel) (by decide +kernel)
    exact h
  have c6 : sImage.imgCheck6 sImage.barImage = none :=
    imgCheck6_one (by decide +kernel) chain sig d rfl (by decide) (by rw [g]; exact z3) (by rw [g]; exact z4) (by decide +kernel) dig
  have c7 : imgCheck7 sImage.barImage false = none := by decide +kernel
  have c8 : sImage.imgCheck8 sImage.barImage = none := by decide +kernel
  have c9 : imgCheck9 sImage.barImage = none := by decide +kernel
  have c10 : sImage.imgCheck10 (sImage.imgSim sImage.barImage false).1 sImage.barImage false false = none := by decide +kernel
  have c11 : (sImage.imgSim sImage.barImage false).2 = none := by decide +kernel
  exact imgCheck_all c1 c6 c7 c8 c9 c10 c11


/-! ## Ill-formed commands -/

theorem test_header_refused :
    Instr.wf (.add ⟨112, 0, 0, false, none⟩ 1 2 3) = false ∧ Instr.wf (.add ⟨0, 2, 0, false, none⟩ 1 2 3) = false ∧
    Instr.wf (.add ⟨0, 0, 8, false, none⟩ 1 2 3) = false ∧ Instr.wf (.add ⟨0, 0, 0, false, some 1048576⟩ 1 2 3) = false ∧
    Instr.wf (.eoi (.core 112 0) 0 0) = false ∧ Instr.wf (.eoi (.core 0 2) 0 0) = false ∧ Instr.wf (.eoi (.master 11 0) 0 0) = false ∧
    Instr.wf (.eoi (.master 0 16) 0 0) = false ∧ Instr.wf (.eoi (.core 111 1) 223 0) = true := by decide +kernel

theorem test_operands_refused :
    Instr.wf (.add h0 32 2 3) = false ∧ Instr.wf (.add h0 1 32 3) = false ∧ Instr.wf (.add h0 1 2 32) = false ∧
    Instr.wf (.slli h0 1 2 64) = false ∧ Instr.wf (.addi h0 1 2 1024) = false ∧ Instr.wf (.movi h0 1 65536) = false ∧
    Instr.wf (.ceq h0 8 1 2) = false ∧ Instr.wf (.ld h0 1 ⟨16, 0, 0⟩) = false ∧ Instr.wf (.ld h0 1 ⟨0, 4, 0⟩) = false ∧
    Instr.wf (.ld h0 1 ⟨0, 0, 256⟩) = false ∧ Instr.wf (.ccopy h0 16 0) = false ∧ Instr.wf (.br h0 4194304) = false ∧
    Instr.wf (.mfs h0 128 1 0) = false ∧ Instr.wf (.loop h0 4 true 0 0) = false ∧ Instr.wf (.loop h0 0 true 1024 0) = false ∧
    Instr.wf (.loop h0 0 true 0 512) = false ∧ Instr.wf (.repElement h0 (.add h0 32 0 0)) = false ∧ Instr.wf (.vadd h0 4 0 0 0) = false ∧
    Instr.wf (.gather h0 0 8 true true 0 0 0) = false := by decide +kernel

theorem test_core_events_refused :
    Instr.wf (.dividerResult 112) = false ∧ Instr.wf (.mvReread 0 2) = false ∧ Instr.wf (.interruptReport 640) = false ∧
    Instr.wf (.eoi (.core 0 0) 224 0) = false ∧ Instr.wf (.timerCompare 16) = false ∧ Instr.wf (.farDataArrival 48) = false ∧
    Instr.wf (.tcmWriteFromOutside 0 0 0 256) = false ∧ Instr.wf (.pairSelfTest 24 true) = false ∧
    Instr.wf (.csParityCorrection 0 8192 0 false false 0) = false ∧ Instr.wf (.csParityCorrection 0 0 1024 false false 0) = false := by
  decide +kernel

theorem test_unit_events_refused :
    Instr.wf (.take (.core 0 0) 4) = false ∧ Instr.wf (.scrubRead 128 0) = false ∧ Instr.wf (.scrubRead 0 81) = false ∧
    Instr.wf (.retraining 0 3) = false ∧ Instr.wf (.laneStall 16) = false ∧ Instr.wf (.slotUnanswered 2) = false ∧
    Instr.wf (.linkTraining 12 0) = false ∧ Instr.wf (.linkTraining 0 16) = false ∧ Instr.wf (.admission 0 true 3 true 0 0 0) = false ∧
    Instr.wf (.admission 0 true 0 true 1024 0 0) = false ∧ Instr.wf (.flitReceive 0 3 0) = false ∧ Instr.wf (.flitReceive 0 0 4) = false := by
  decide +kernel

theorem test_packets_refused :
    [(⟨64, 0, 0, 0, 0, 0, 0, 0, 0, 0, [], []⟩ : Pkt), ⟨0, 4, 0, 0, 0, 0, 0, 0, 0, 0, [], []⟩, ⟨0, 0, 1024, 0, 0, 0, 0, 0, 0, 0, [], []⟩,
      ⟨0, 0, 0, 1024, 0, 0, 0, 0, 0, 0, [], []⟩, ⟨0, 0, 0, 0, 32, 0, 0, 0, 0, 0, [], []⟩, ⟨0, 0, 0, 0, 0, 2, 0, 0, 0, 0, [], []⟩,
      ⟨0, 0, 0, 0, 0, 0, 4, 0, 0, 0, [], []⟩, ⟨0, 0, 0, 0, 0, 0, 0, 65536, 0, 0, [], []⟩, ⟨0, 0, 0, 0, 0, 0, 0, 0, 65536, 0, [], []⟩,
      ⟨0, 0, 0, 0, 0, 0, 0, 0, 0, 2 ^ 48, [], []⟩, ⟨0, 0, 0, 0, 0, 0, 0, 0, 0, 0, List.replicate 4096 0, []⟩,
      ⟨0, 0, 0, 0, 0, 0, 0, 0, 0, 0, [], [16]⟩].all (fun p => !(Instr.wf (.loadPacket 0 p))) = true ∧
    Instr.wf (.loadPacket 13 ⟨0, 0, 0, 0, 0, 0, 0, 0, 0, 0, [], []⟩) = false ∧
    Instr.wf (.packetForward 12 ⟨0, 0, 0, 0, 0, 0, 0, 0, 0, 0, [], []⟩) = false ∧ Instr.wf (.echoTimeout 1024) = false := by decide +kernel

theorem test_system_events_refused :
    Instr.wf (.crossServiceStart 64) = false ∧ Instr.wf (.depHoldEnd 1024) = false ∧ Instr.wf (.ageMeasurement 96 0) = false ∧
    Instr.wf (.ageMeasurement 0 65536) = false ∧ Instr.wf (.monitorSample 32 0 0) = false ∧ Instr.wf (.dvfsRequest (.core 0 0) 32 0) = false ∧
    Instr.wf (.powerControl 512) = false ∧ Instr.wf (.thermalLimit 0 256 false) = false ∧ Instr.wf (.pllUnlock 13) = false ∧
    Instr.wf (.uartReceive 256) = false ∧ Instr.wf (.enc true 3) = false ∧ Instr.wf (.entropyHealthFail 2) = false := by decide +kernel

-- A command that is not well formed is refused by name.
theorem test_illformed_refused : exec (.timerCompare 16) s0 = .refused .illFormed := rfl

/-! ## The worked examples of the specification -/

-- R153 and R196: words and the instructions they stand for, in both directions; a guarded branch.
theorem test_words :
    decodeIns 0 0 0 0x0318B3FF = some (.ld h0 12 ⟨5, 2, 0xFF⟩) ∧ decodeIns 0 0 0 0x0410C000 = some (.ldres h0 8 6) ∧
    decodeIns 0 0 0 0x00908001 = some (.addi h0 8 8 1) ∧ decodeIns 0 0 0 0x0410C140 = some (.stcond h0 8 6 2) ∧
    decodeIns 0 0 0 0x55BFFFFD = some (.br ⟨0, 0, 2, true, none⟩ 0x3FFFFD) ∧
    decodeIns 0 0 0 0x0B422308 = some (.gather h0 0 2 false false 1 2 3) ∧ decodeIns 0 0 0 0 = none ∧
    (envOf (.ld h0 12 ⟨5, 2, 0xFF⟩) s0).ins = 0x0318B3FF ∧ (envOf (.stcond h0 8 6 2) s0).ins = 0x0410C140 ∧
    (envOf (.br ⟨0, 0, 2, true, none⟩ 0x3FFFFD) s0).ins = 0x55BFFFFD ∧ (envOf (.gather h0 0 2 false false 1 2 3) s0).ins = 0x0B422308 := by
  decide +kernel

-- The exact 6,000-byte object and the window edge ("Capabilities and tagged memory").
theorem test_bounds :
    ((rootMemory false (word 0x400012340)).trim 6000 true).map (fun c => c.hi.toNat % 2 ^ 34) = some 0x31A0BB7 ∧
    decodeBounds 0x400012440 1 0x11A0 0xBB7 = (0x400012340, 0x400013AB0) ∧
    (let c : Cap := ⟨word 0x10001F000, word 0x0004000009F000FF, true⟩
     c.bounds = (0x10001F000, 0x100020000) ∧ ((c.setCursor 0x100020400).tag && (c.setCursor 0x100036FF0).tag) = true ∧
      (c.setCursor 0x100037000).tag = false) := by decide +kernel

-- R83: the control word of a PASS record; the window of the ring ("Register windows").
theorem test_records :
    controlWord 3 2 false true true 2 = 0x300020032 ∧ ringIndex 15 2 0 = 272 ∧ ringIndex 15 2 8 = 280 ∧ ringIndex 15 2 16 = 0 ∧
    ringIndex 15 3 0 = 0 ∧ ringIndex 15 3 16 = 16 := by decide +kernel

-- The split load of "Scalar instruction reference".
theorem test_split_load :
    let c : Cap := ((rootMemory false (word dataAt)).trim 0x100 true).getD Cap.null
    let s := dev (core0 { ctx0 with caps := [(4, { c with cursor := word (dataAt + 5) }), (15, rootMemory false (word codeAt))] })
      ((Mem.empty.setWord dataAt 0x8877665544332211 tINT).setWord (dataAt + 8) 0x000000EEDDCCBBAA tINT)
    let E := envOf (.ld h0 9 ⟨4, 0, 0⟩) s
    okThen (loadData (at1 (.ld h0 9 ⟨4, 0, 0⟩) s) E (Claims.loadAcc ⟨4, 0, 0⟩ (memOperand (at1 (.ld h0 9 ⟨4, 0, 0⟩) s) E h0 ⟨4, 0, 0⟩ 8) 8))
      (fun v _ => decide (v = (0xEEDDCCBBAA887766, 2))) = true := by decide +kernel

-- R320: the micro word of the granule loop, its parity bits and its successors.
theorem test_sequencer :
    let micro := 0x70D0A8
    let nano := 2 * 2 ^ 139 + 6 * 2 ^ 119 + 4 * 2 ^ 124
    let v : SeqView := ⟨false, false, false, false, false, false, false, false, false, false, false, false, 0, false, false, false, false, false, false, false, false⟩
    microNANO micro = 0x1C3 ∧ microMODE micro = 2 ∧ microNEXT micro = 0x0A8 ∧ parityBits micro 3 = [false, false, false] ∧
    nextAddress v 0x0412 micro nano = some 0x0A8 ∧ nextAddress { v with exhausted := true } 0x0412 micro nano = some 0x0A9 ∧
    nextAddress { v with acceptable := true } 0x0412 micro nano = some 0x0AA ∧
    nextAddress { v with acceptable := true, exhausted := true } 0x0412 micro nano = some 0x0AB := by decide +kernel

-- "Translation and protection keys", "Stacked memory and placement", "Cordillera".
theorem test_places :
    iptHash 0x5A5A5 0x600000 false 0x100004 = 0x15A50C ∧ home 0x100406340 = (3, 0x802, 0x8D, 0) ∧ pcOfFrame 0x48045 = 0x45 ∧
    curve [(0, 64), (64, 32), (510, 16), (65535, 16)] 110 = 31 ∧
    (s0.setRf .cdlEst cdlEst_SIZE 512).registrarOf 0x2000 = 310 ∧ plotOf 0x400018040 = 0x2000 := by decide +kernel

-- R371: a write by PCIe function 5 to the ring region of functions 0 and 3 is denied, and one by function 3 is admitted.
theorem test_ring_region :
    let s := (((s0.setReg (.rdgBase 0) 0x240000000).setReg (.rdgLimit 0) 0x240400000).setReg (.rdgAttr 0) (word 0x0000000900240007))
    (s.ridge mHOST 3 true 0x2403FFFC0).1.isSome = true ∧ (s.ridge mHOST 5 true 0x2403FFFC0).1.isSome = false ∧
    (s.ridge mHOST 5 true 0x2403FFFC0).2.reg .rdgLastdeny = word 0x85500002403FFFC0 := by decide +kernel

-- R552: three samples of a logarithmic histogram with SHIFT 3.
theorem test_bins :
    let s := (s0.setRf (.monCtl 3) monCtl_MODE 1).setRf (.monRange 3) monRange_SHIFT 3
    s.binOf 3 170 = 13 ∧ s.binOf 3 230 = 15 ∧ s.binOf 3 1000 = 23 := by decide +kernel

-- R465: the header of an entry of node 37.
theorem test_journal_header :
    ({ s0.setRf .cdlEst cdlEst_NODE 37 with salt := 0x5C1D0E42 } : State).jcHeader ⟨0x12D4F1, 0x21, 0, List.replicate 256 0⟩ =
      ((toBytes 0x12D4F1 8) ++ (toBytes 0x5C1D0E4209420421 8)).map (BitVec.ofNat 8) ∧
    jcNonce 0x5C1D0E42 0x12D4F1 = [0x5C, 0x1D, 0x0E, 0x42, 0, 0, 0, 0, 0, 0x12, 0xD4, 0xF1] := by decide +kernel

/-- The ISO 8583 frame of "Ingress, parsing, dispatch and commit". -/
def isoFrame : List Nat :=
  [0x01, 0x00, 0x70, 0, 0, 0, 0, 0, 0x82, 0, 0x16, 0x40, 0x00, 0x12, 0x34, 0x56, 0x78, 0x90, 0x10, 0, 0, 0,
   0, 0, 0, 0x01, 0x25, 0x50, 0x09, 0x78, 0x00, 0x23, 0x9F, 0x26, 0x08, 0xA1, 0xB2, 0xC3, 0xD4, 0xE5, 0xF6, 0x07, 0x18,
   0x9F, 0x36, 0x02, 0x00, 0x2C, 0x95, 0x05, 0x00, 0x00, 0x04, 0x80, 0x00]

/-- Its format. -/
def isoFormat : List Nat :=
  [0x0400080002000000, 0x0C00000000000000, 0x080A990013000000, 0x040C0A0003000000, 0x0410000006000000, 0x04C4000002000000,
   0x08DE2000FF000000, 0x1000000000000006, 0x1400000000009F26, 0x1400000000009F36, 0x1400000000000095]

theorem test_iso_record :
    formatOk (0x10B :: isoFormat) = true ∧
    fieldRecord 0x21 0 5 isoFrame (parseAll isoFrame PState.start 0 isoFormat) =
      [0x0007000500370B21, 0x004100000000000E, 0, 0, 0, 0, 0, 0, 0x0100000000000000, 0x4000123456789010, 0, 0, 0, 0, 0, 0,
       0x4000000200020000, 0x4000000800400002, 0x400000080010000B, 0x4000000300030013, 0x4000000600060016, 0x400000020002001C,
       0x4000001700170020, 0x4000001700030020, 0x4000000800080023, 0x400000020002002E, 0x4000000500050032] := by decide +kernel

/-- No number of a list occurs twice. -/
def distinct : List Nat → Bool
  | [] => true
  | x :: xs => xs.all (fun y => !(Nat.beq x y)) && distinct xs

-- R604-R609: the worked example of R606, the row names, and the count of supply and ground balls, 4,896 less the balls of signals and the
-- reserved ones.
theorem test_balls :
    ((Serial.fab 7 2).ball ⟨true, true⟩).name = ['A', 'A', '6', '9'] ∧ ((Serial.fab 7 2).ball ⟨false, false⟩).name = ['A', 'A', '6', '5'] ∧
    ((Serial.host 15).ball ⟨true, true⟩).name = ['C', 'M', '5', '7'] ∧ rowName 70 = ['C', 'N'] ∧
    distinct ((serialBalls ++ pins.map Pin.ball).map (fun b => 100 * b.row + b.col)) = true ∧ ((serialBalls ++ pins.map Pin.ball).any reservedBall) = false ∧
    70 * 70 - 4 - serialBalls.length - pins.length - 27 = 4520 := by decide +kernel

-- R621: what IDCODE of revision 1 returns.
theorem test_idcode : State.reset.idcode = 0x19412947 ∧ State.reset.tapActs .dbgport = .bypass ∧ s0.tapActs .dbgport = .dbgport ∧
    s0.tapActs .extest = .bypass := by decide +kernel

-- "Ingress, parsing, dispatch and commit": the parse of that ISO 8583 frame takes 22 cycles, which is 17.6 ns (R418).
theorem test_iso_parse_time :
    parseCycles isoFormat (parseAll isoFrame PState.start 0 isoFormat) = 22 ∧ parserNs 22 = 18 := by decide +kernel

end Sys2Proof.Tests
end

section
/-! Settles O57: what the two words of an aligned CAPLO–CAPHI pair hold after a write of one of them (R60). -/

namespace Sys2Proof.Machine

/-! ## Words after writes -/

/-- Reading depends on the bytes of its range alone. -/
theorem Mem.read_congr {m m' : Mem} (n : Nat) : ∀ a : Nat, (∀ i, i < n → m'.byte (a + i) = m.byte (a + i)) → m'.read a n = m.read a n := by
  induction n with
  | zero => intro a _; rfl
  | succ n ih =>
    intro a h
    have first : m'.byte a = m.byte a := h 0 (by omega)
    have rest : m'.read (a + 1) n = m.read (a + 1) n := ih (a + 1) fun i hi => by
      simpa only [Nat.add_assoc, Nat.add_comm 1 i] using h (i + 1) (by omega)
    simp only [Mem.read, first, rest]

/-- Bytes that are the little-endian bytes of v read as v (R184). -/
theorem Mem.read_of_bytes {m : Mem} (n : Nat) : ∀ a v : Nat, (∀ i, i < n → m.byte (a + i) = BitVec.ofNat 8 (v / 256 ^ i)) →
    m.read a n = v % 256 ^ n := by
  induction n with
  | zero => intro a v _; simp [Mem.read, Nat.mod_one]
  | succ n ih =>
    intro a v h
    have first : (m.byte a).toNat = v % 256 := by simpa using congrArg BitVec.toNat (h 0 (by omega))
    have rest : m.read (a + 1) n = v / 256 % 256 ^ n := ih (a + 1) (v / 256) fun i hi => by
      rw [Nat.add_assoc, Nat.add_comm 1 i, h (i + 1) (by omega), Nat.div_div_eq_div_mul, Nat.pow_succ']
    rw [Mem.read, first, rest, Nat.pow_succ', Nat.mod_mul]

theorem Mem.word_setWord_self {m : Mem} {a : Nat} (v t : Nat) (hm : m.wf = true) (ha : a % 8 = 0) :
    (m.setWord a v t).word a = v % 2 ^ 64 := by
  have aligned : a / 8 * 8 = a := by omega
  rw [Mem.word, aligned]
  exact Mem.read_of_bytes 8 a v fun i hi => Mem.byte_setWord_in a v t hm hi

theorem Mem.word_setWord_ne {m : Mem} {a b : Nat} (v t : Nat) (ha : a % 8 = 0) (h : b / 8 * 8 ≠ a) :
    (m.setWord a v t).word b = m.word b :=
  Mem.read_congr 8 _ fun _ _ => Mem.byte_setWord_out v t (by omega)

/-! ## The pair rule (R60) -/

theorem Mem.partner_lower {m : Mem} {a : Nat} (ha : a % 16 = 0) (lo : m.tag a = tCAPLO) (hi : m.tag (a + 8) = tCAPHI) :
    m.partner a = some (a + 8) := by
  have base : a / 16 * 16 = a := by omega
  simp [Mem.partner, base, lo, hi]

theorem Mem.partner_upper {m : Mem} {a : Nat} (ha : a % 16 = 0) (lo : m.tag a = tCAPLO) (hi : m.tag (a + 8) = tCAPHI) :
    m.partner (a + 8) = some a := by
  have base : (a + 8) / 16 * 16 = a := by omega
  simp [Mem.partner, base, lo, hi]

theorem Mem.writeWord_same_tag {m : Mem} {a t : Nat} (v : Nat) (h : m.tag a = t) : m.writeWord a v t = m.setWord a v t := by
  simp [Mem.writeWord, h]

theorem Mem.writeWord_new_tag {m : Mem} {a b t : Nat} (v : Nat) (h : m.tag a ≠ t) (hp : m.partner a = some b) :
    m.writeWord a v t = (m.setWord b 0 tUNINIT).setWord a v t := by
  simp [Mem.writeWord, h, hp]

/-- A write that changes the tag of a word of a pair leaves the value and the tag written there, and the other word UNINIT with zero data. -/
theorem Mem.writeWord_breaks_pair {m : Mem} {a b t : Nat} (v : Nat) (hm : m.wf = true) (ha : a % 8 = 0) (hb : b % 8 = 0) (hab : a ≠ b)
    (ht : t < 16) (hp : m.partner a = some b) (h : m.tag a ≠ t) :
    (m.writeWord a v t).tag a = t ∧ (m.writeWord a v t).word a = v % 2 ^ 64 ∧
      (m.writeWord a v t).tag b = tUNINIT ∧ (m.writeWord a v t).word b = 0 := by
  have cleared : (m.setWord b 0 tUNINIT).wf = true := Mem.wf_setWord b 0 tUNINIT hm
  have apart : b / 8 * 8 ≠ a := by omega
  rw [Mem.writeWord_new_tag v h hp]
  refine ⟨?_, Mem.word_setWord_self v t cleared ha, ?_, ?_⟩
  · rw [Mem.tag_setWord_self v t cleared ha, Nat.mod_eq_of_lt ht]
  · rw [Mem.tag_setWord_ne v t apart, Mem.tag_setWord_self 0 tUNINIT hm hb]
    rfl
  · rw [Mem.word_setWord_ne v t ha apart, Mem.word_setWord_self 0 tUNINIT hm hb, Nat.zero_mod]

/-- A write that keeps the tag of its word leaves every other word as it was. -/
theorem Mem.writeWord_same_tag_frame {m : Mem} {a t : Nat} (v b : Nat) (ha : a % 8 = 0) (hba : b / 8 * 8 ≠ a) (h : m.tag a = t) :
    (m.writeWord a v t).tag b = m.tag b ∧ (m.writeWord a v t).word b = m.word b := by
  rw [Mem.writeWord_same_tag v h]
  exact ⟨Mem.tag_setWord_ne v t hba, Mem.word_setWord_ne v t ha hba⟩

/-- Settles O57: each word of a pair is the partner of the other, so a write of one with a new tag clears the other, and a write with the
tag it has does not. -/
theorem brokenPairsBecomeUninit : Obligations.BrokenPairsBecomeUninit := by
  intro m a v t hm ha ht lo hi
  have upper := Mem.partner_lower ha lo hi
  have lower := Mem.partner_upper ha lo hi
  obtain ⟨hiTag, hiWord⟩ := Mem.writeWord_same_tag_frame v (a + 8) (by omega) (by omega) lo
  obtain ⟨loTag, loWord⟩ := Mem.writeWord_same_tag_frame v a (by omega) (by omega) hi
  refine ⟨fun h => ?_, fun h => ?_, hiTag.trans hi, hiWord, loTag.trans lo, loWord⟩
  · exact Mem.writeWord_breaks_pair v hm (by omega) (by omega) (by omega) ht upper (by rw [lo]; exact h.symm)
  · exact Mem.writeWord_breaks_pair v hm (by omega) (by omega) (by omega) ht lower (by rw [hi]; exact h.symm)

end Sys2Proof.Machine
end

section
/-! Settles O55: p0 reads as true, and a compare that names it as its destination writes nothing and goes on (R109). -/

namespace Sys2Proof.Machine

/-! ## Instructions that run no routine -/

/-- An instruction that runs no routine and that no pair compares goes on to the next one with exactly what its own execution has written
on the state its fetch left. -/
theorem issue_goes_plain {s s1 u : State} {h : Hdr} {d : InsDef} {E : Env} {ws : List (Loc × Val)} (hr : Reaches s h d E s1)
    (noRoutine : d.routineAt E s1 = none) (notCompared : d.compared E s1 = none) (ran : d.run E s1 = .done u false)
    (wrote : Wrote s1 u E ws (s1.core E.n).divBusy) (hs : Straight s1 E) :
    ∃ t, issue h d s = .next t ∧ Goes s1 t E ws := by
  refine issue_goes (u := u) hr ?_ ?_ hs rfl
  · rwa [routineState_plain noRoutine notCompared]
  · rwa [afterRoutine_plain noRoutine]

/-! ## Compares of two registers (R179) -/

/-- A compare writes its condition on the two operands to its predicate, p0 discarding it, and goes on. -/
theorem issue_insCmp_goes {s s1 : State} {h : Hdr} {E : Env} {fn pd ra rb : Nat} {f : Word → Word → Bool}
    (hr : Reaches s h (insCmp fn pd ra rb f) E s1) (hs : Straight s1 E) :
    ∃ t, issue h (insCmp fn pd ra rb f) s = .next t ∧ Goes s1 t E (Claims.predWrite pd (f (rdG s1 E 0 ra) (rdG s1 E 1 rb))) :=
  issue_goes_plain hr rfl rfl rfl (wrote_wrP s1 E pd (f (rdG s1 E 0 ra) (rdG s1 E 1 rb)) 1) hs

/-- The instructions that mk builds are compares of two registers, and their command is their issue. -/
def BuildsCompare (mk : Hdr → Nat → Nat → Nat → Instr) : Prop :=
  ∃ fn f, ∀ h pd ra rb, insOf (mk h pd ra rb) = some (h, insCmp fn pd ra rb f) ∧
    ∀ s, exec (mk h pd ra rb) s = issue h (insCmp fn pd ra rb f) s

theorem cmp2_buildsCompare : ∀ p, p ∈ Claims.cmp2 → BuildsCompare p.1 := by
  simp only [Claims.cmp2, List.forall_mem_cons, List.not_mem_nil, false_imp_iff, implies_true, and_true]
  refine ⟨⟨0, cmpEq, ?_⟩, ⟨1, cmpNe, ?_⟩, ⟨2, cmpLt, ?_⟩, ⟨3, cmpGe, ?_⟩, ⟨4, cmpLtu, ?_⟩, ⟨5, cmpGeu, ?_⟩, ⟨6, cmpTst, ?_⟩⟩ <;>
    exact fun _ _ _ _ => ⟨rfl, fun _ => rfl⟩

/-- An issued compare of two registers writes its predicate alone and goes on. -/
theorem BuildsCompare.goes {mk : Hdr → Nat → Nat → Nat → Instr} (hmk : BuildsCompare mk) {h : Hdr} {pd ra rb : Nat} {s s1 : State}
    {E : Env} (hi : Issued s (mk h pd ra rb) E s1) (hs : Straight s1 E) :
    ∃ t v, exec (mk h pd ra rb) s = .next t ∧ Goes s1 t E (Claims.predWrite pd v) := by
  obtain ⟨fn, f, compare⟩ := hmk
  obtain ⟨isCompare, execIsIssue⟩ := compare h pd ra rb
  obtain ⟨_, _, def_eq, hr⟩ := hi
  obtain ⟨rfl, rfl⟩ : h = _ ∧ insCmp fn pd ra rb f = _ := by simpa using isCompare.symm.trans def_eq
  obtain ⟨t, next, goes⟩ := issue_insCmp_goes hr hs
  exact ⟨t, _, (execIsIssue s).trans next, goes⟩

/-! ## p0 (R109) -/

@[simp] theorem rdP_zero (s : State) (E : Env) (i : Nat) : rdP s E i 0 = true := rfl

@[simp] theorem wrP_zero (s : State) (E : Env) (v : Bool) (d : Nat) : wrP s E 0 v d = s := rfl

@[simp] theorem predWrite_zero (v : Bool) : Claims.predWrite 0 v = [] := rfl

/-- Settles O55: p0 holds no state, so a compare that names it writes the empty list of values and goes on as any compare does. -/
theorem predicateZeroReadsTrue : Obligations.PredicateZeroReadsTrue := by
  refine ⟨rdP_zero, wrP_zero, fun p hp h ra rb s s1 E hi hs => ?_⟩
  obtain ⟨t, v, next, goes⟩ := (cmp2_buildsCompare p hp).goes hi hs
  exact ⟨t, next, predWrite_zero v ▸ goes⟩

end Sys2Proof.Machine
end

section
/-! Settles O58: LOCKDOWN ends only at a power-on reset (R577). -/

namespace Sys2Proof.Machine

/- One proof after another, as in the model's tests: each proof with a nested tactic block waits for those before it, and in parallel the
waiting threads' stacks fill the memory that the check allows. -/
set_option Elab.async false

/-! ## What it is to stay in LOCKDOWN -/

/-- The registers show the mode LOCKDOWN (R568). -/
@[irreducible] def InLockdown (regs : Tab Reg Word) : Prop :=
  fld (tget regs .sysMode Reg.sysMode.reset) sysMode_MODE.hi sysMode_MODE.lo = mdLOCKDOWN

/-- A command that has this outcome leaves the device in LOCKDOWN. -/
def Stays : Host.Outcome State Fault Refusal → Prop
  | .next t => InLockdown t.regs
  | _ => True

variable {s t : State}

theorem inLockdown_iff : InLockdown s.regs ↔ s.mode = mdLOCKDOWN := by
  unfold InLockdown; rfl

theorem Stays.next (h : InLockdown s.regs) : Stays (.next s) := h

theorem Stays.ite {c : Prop} [Decidable c] {a b : Host.Outcome State Fault Refusal} (ha : Stays a) (hb : Stays b) :
    Stays (if c then a else b) := by
  split <;> assumption

theorem Stays.pos {c : Prop} [Decidable c] {a b : Host.Outcome State Fault Refusal} (hc : c) (ha : Stays a) :
    Stays (if c then a else b) := by
  rwa [if_pos hc]

theorem Stays.neg {c : Prop} [Decidable c] {a b : Host.Outcome State Fault Refusal} (hc : ¬c) (hb : Stays b) :
    Stays (if c then a else b) := by
  rwa [if_neg hc]

namespace InLockdown

/-! ## Rules for the shape of a definition -/

theorem ite {c : Prop} [Decidable c] (hs : InLockdown s.regs) (ht : InLockdown t.regs) : InLockdown (if c then s else t).regs := by
  split <;> assumption

/-- An update made under a condition. -/
theorem when {c : Prop} [Decidable c] (h : InLockdown s.regs) (update : InLockdown s.regs → InLockdown t.regs) :
    InLockdown (if c then t else s).regs :=
  ite (update h) h

/-- An update made unless a condition holds. -/
theorem whenNot {c : Prop} [Decidable c] (h : InLockdown s.regs) (update : InLockdown s.regs → InLockdown t.regs) :
    InLockdown (if c then s else t).regs :=
  ite h (update h)

theorem ite_snd {α : Type} {c : Prop} [Decidable c] {a b : α × State} (ha : InLockdown a.2.regs) (hb : InLockdown b.2.regs) :
    InLockdown (if c then a else b).2.regs := by
  split <;> assumption

theorem ite_trd {α β : Type} {c : Prop} [Decidable c] {a b : α × β × State} (ha : InLockdown a.2.2.regs)
    (hb : InLockdown b.2.2.regs) : InLockdown (if c then a else b).2.2.regs := by
  split <;> assumption

/-- The state of a pair that a match has taken apart. -/
theorem snd {α : Type} {r : α × State} {a : α} (e : r = (a, s)) (h : InLockdown r.2.regs) : InLockdown s.regs := by
  subst e; exact h

theorem trd {α β : Type} {r : α × β × State} {a : α} {b : β} (e : r = (a, b, s)) (h : InLockdown r.2.2.regs) :
    InLockdown s.regs := by
  subst e; exact h

theorem getD {o : Option State} (h : InLockdown s.regs) (ho : ∀ u, o = some u → InLockdown u.regs) : InLockdown (o.getD s).regs := by
  cases o with
  | none => exact h
  | some u => exact ho u rfl

/-- A state that is answered only under a condition. -/
theorem someIf {c : Prop} [Decidable c] {u : State} (h : InLockdown s.regs) (e : (if c then some s else none) = some u) :
    InLockdown u.regs := by
  split at e
  · cases e; exact h
  · nomatch e

theorem foldl {α : Type} {f : State → α → State} {l : List α} (h : InLockdown s.regs)
    (hf : ∀ {u a}, InLockdown u.regs → InLockdown (f u a).regs) : InLockdown (l.foldl f s).regs := by
  induction l generalizing s with
  | nil => exact h
  | cons a l ih => exact ih (hf h)

theorem foldlPair {α β : Type} {f : β × State → α → β × State} {l : List α} {b : β × State} (h : InLockdown b.2.regs)
    (hf : ∀ {c a}, InLockdown c.2.regs → InLockdown (f c a).2.regs) : InLockdown (l.foldl f b).2.regs := by
  induction l generalizing b with
  | nil => exact h
  | cons a l ih => exact ih (hf h)

/-! ## What the mode closes -/

theorem mode (h : InLockdown s.regs) : s.mode = mdLOCKDOWN := inLockdown_iff.mp h

theorem mode_ne {m : Nat} (h : InLockdown s.regs) (other : m ≠ mdLOCKDOWN := by decide) : s.mode ≠ m := by
  rw [h.mode]
  exact other.symm

theorem serving (h : InLockdown s.regs) : s.serving = false := by
  simp [State.serving, h.mode, mdLOCKDOWN]

theorem ingOn (h : InLockdown s.regs) : s.ingOn = false := by simp [State.ingOn, h.serving]

theorem keyOn (h : InLockdown s.regs) : s.keyOn = false := by simp [State.keyOn, h.serving]

theorem hostUp (h : InLockdown s.regs) : s.hostUp = false := by simp [State.hostUp, h.mode, mdLOCKDOWN]

theorem portsRun {j : Nat} (h : InLockdown s.regs) : s.portsRun j = false := by
  simp [State.portsRun, h.mode, mdLOCKDOWN]

theorem linkRuns {l : Nat} (h : InLockdown s.regs) : s.linkRuns l = false := by simp [State.linkRuns, h.serving]

theorem sealedShut (h : InLockdown s.regs) : s.sealedShut = true := by simp [State.sealedShut, h.mode]

theorem coreRuns {n : Nat} (h : InLockdown s.regs) : s.coreRuns n = false := by simp [State.coreRuns, h.serving]

theorem canIssue {n k : Nat} (h : InLockdown s.regs) : s.canIssue n k = false := by simp [State.canIssue, h.coreRuns]

theorem maReady {n k code : Nat} (h : InLockdown s.regs) : s.maReady n k code = none := by
  unfold State.maReady
  exact if_neg (by rw [h.coreRuns]; exact Bool.false_ne_true)

theorem acceptableSource {n k : Nat} (h : InLockdown s.regs) : s.acceptableSource n k = none := by
  dsimp only [State.acceptableSource]
  split
  · rfl
  · exact if_neg (by rw [h.coreRuns]; exact Bool.false_ne_true)

/-- A warm device reset changes nothing (R577). -/
theorem warmReset_eq {cause : Nat} (h : InLockdown s.regs) : s.warmReset cause = s := if_pos h.mode

/-- A write of a reset register changes nothing (R577). -/
theorem resetWritten_eq {v : Word} (h : InLockdown s.regs) : s.resetWritten v = s := if_pos (.inl h.mode)

/-- No instruction starts. -/
theorem start_eq {E : Env} (h : InLockdown s.regs) : start s E = .idle := by
  unfold start
  exact if_pos (by simp [h.canIssue])

/-! ## Registers -/

/-- A write of any other register. -/
theorem setReg {r : Reg} {v : Word} (h : InLockdown s.regs) (other : r ≠ .sysMode := by nofun) : InLockdown (s.setReg r v).regs :=
  inLockdown_iff.mpr (by
    rw [State.mode, State.rf, State.reg_setReg_ne s v other.symm]
    exact inLockdown_iff.mp h)

theorem setRf {r : Reg} {f : Fd} {v : Nat} (h : InLockdown s.regs) (other : r ≠ .sysMode := by nofun) :
    InLockdown (s.setRf r f v).regs :=
  h.setReg other

theorem addRf {r : Reg} {f : Fd} {v : Nat} (h : InLockdown s.regs) (other : r ≠ .sysMode := by nofun) :
    InLockdown (s.addRf r f v).regs :=
  h.setReg other

theorem satRf {r : Reg} {f : Fd} {v : Nat} (h : InLockdown s.regs) (other : r ≠ .sysMode := by nofun) :
    InLockdown (s.satRf r f v).regs :=
  h.setReg other

/-- A filter that keeps SYS.MODE. -/
theorem filterRegs {keep : Reg × Word → Bool} {rs : Tab Reg Word} (h : InLockdown rs) (keeps : ∀ v, keep (.sysMode, v) = true) :
    InLockdown (rs.filter keep) := by
  have same : tget (rs.filter keep) .sysMode Reg.sysMode.reset = tget rs .sysMode Reg.sysMode.reset := by
    clear h
    induction rs with
    | nil => rfl
    | cons e rs ih =>
      obtain ⟨r, v⟩ := e
      by_cases hr : r = .sysMode
      · subst hr; simp [List.filter, keeps, tget]
      · by_cases hk : keep (r, v) = true <;> simp [List.filter, hk, tget, hr, ih]
  unfold InLockdown at h ⊢
  rwa [same]

theorem boundary {r : Reg} (h : InLockdown s.regs) (other : r ≠ .sysMode := by nofun) : InLockdown (s.boundary r).regs :=
  .ite h (h.setReg other)

/-! ### Cores -/

theorem setCore {n : Nat} {c : Core} (h : InLockdown s.regs) : InLockdown (s.setCore n c).regs := h

theorem setCtx {n k : Nat} {x : Ctx} (h : InLockdown s.regs) : InLockdown (s.setCtx n k x).regs := h.setCore

theorem setPcc {n k : Nat} {p : Cap} (h : InLockdown s.regs) : InLockdown (s.setPcc n k p).regs := .ite h.setCore h.setCtx

theorem setPc {n k a : Nat} (h : InLockdown s.regs) : InLockdown (s.setPc n k a).regs := h.setPcc

/-! ### The interrupt controller -/

theorem draw (h : InLockdown s.regs) : InLockdown s.draw.2.regs := h

theorem updRunpri {t : Nat} (h : InLockdown s.regs) : InLockdown (s.updRunpri t).regs := h.setRf

theorem unaccept {n before : Nat} (h : InLockdown s.regs) : InLockdown (s.unaccept n before).regs := by
  unfold State.unaccept
  exact h.setRf.setRf

theorem acceptSrc {t n : Nat} (h : InLockdown s.regs) : InLockdown (s.acceptSrc t n).regs := by
  unfold State.acceptSrc
  exact .updRunpri h.setRf.setRf

theorem takeover {n : Nat} (h : InLockdown s.regs) : InLockdown (s.takeover n).regs := by
  dsimp only [State.takeover]
  split
  · exact h
  · exact .ite (.ite h.draw.setCore h.draw.unaccept.acceptSrc.setCore) h

theorem report {n : Nat} (h : InLockdown s.regs) : InLockdown (s.report n).regs :=
  .ite h.satRf (.ite h.satRf.setRf h.satRf.setRf.takeover)

theorem holdEnd {n : Nat} (h : InLockdown s.regs) : InLockdown (s.holdEnd n).regs := h.when (·.setRf.setRf.takeover)

theorem timerFire {k : Nat} (h : InLockdown s.regs) : InLockdown (s.timerFire k).regs := h.setReg.report

theorem raise {sc ix ev aux detail : Nat} (h : InLockdown s.regs) : InLockdown (s.raise sc ix ev aux detail).regs := h

theorem advanceTo {t : Nat} (h : InLockdown s.regs) : InLockdown (s.advanceTo t).regs := h

theorem endFrame {f : Frame} {outcome : Nat} (h : InLockdown s.regs) : InLockdown (s.endFrame f outcome).regs := by
  unfold State.endFrame
  exact .report (h.satRf.when (·.satRf))

theorem redispatch {f : Frame} {fromPair : Nat} (h : InLockdown s.regs) : InLockdown (s.redispatch f fromPair).regs := by
  unfold State.redispatch
  exact .ite h.endFrame (.ite h.endFrame h)

theorem dropBuffer {n k : Nat} (h : InLockdown s.regs) : InLockdown (s.dropBuffer n k).regs := h

theorem discardTx {n k : Nat} {outcome : Option Nat} (h : InLockdown s.regs) : InLockdown (s.discardTx n k outcome).regs := by
  dsimp only [State.discardTx]
  refine .ite h ?_
  split
  · exact h.dropBuffer.setCtx
  · exact h.dropBuffer.setCtx.redispatch
  · exact h.dropBuffer.setCtx.endFrame

/-! ### Memory and store buffers -/

theorem setMemOf {t : Tgt} {m : Mem} (h : InLockdown s.regs) : InLockdown (s.setMemOf t m).regs := by
  dsimp only [State.setMemOf]
  split
  · exact h
  · exact h

theorem lineWritten {t : Tgt} {line : Nat} {agent : Option (Nat × Nat)} (h : InLockdown s.regs) :
    InLockdown (s.lineWritten t line agent).regs :=
  h

theorem writeOps {t : Tgt} {agent : Option (Nat × Nat)} {os : List WOp} (h : InLockdown s.regs) :
    InLockdown (s.writeOps t agent os).regs := by
  induction os generalizing s with
  | nil => exact h
  | cons o os ih => exact ih h.setMemOf.lineWritten

theorem putWord {t : Tgt} {a v tag : Nat} {agent : Option (Nat × Nat)} (h : InLockdown s.regs) :
    InLockdown (s.putWord t a v tag agent).regs :=
  h.setMemOf.lineWritten

theorem form {n : Nat} {i : Item} (h : InLockdown s.regs) : InLockdown (s.form n i).regs := h.when (·.setCore)

theorem moreCycles {n m : Nat} (h : InLockdown s.regs) : InLockdown (s.moreCycles n m).regs := h.when (·.setCore)

theorem flushQueue {n c : Nat} (h : InLockdown s.regs) : InLockdown (s.flushQueue n c).regs := h.setCore

theorem refill {n : Nat} (h : InLockdown s.regs) : InLockdown (s.refill n).regs := h.moreCycles.when (·.flushQueue)

theorem portUsed {n : Nat} (h : InLockdown s.regs) : InLockdown (s.portUsed n).regs := h.when (·.setCore)

theorem noteOld {n : Nat} {e : SbEntry} (h : InLockdown s.regs) : InLockdown (s.noteOld n e).regs := h.whenNot (·.setCore)

theorem drainOne {n : Nat} (h : InLockdown s.regs) : InLockdown (s.drainOne n).regs := by
  dsimp only [State.drainOne]
  split
  · exact h
  · exact h.setCore.noteOld.writeOps

theorem drainN {n k : Nat} (h : InLockdown s.regs) : InLockdown (s.drainN n k).regs := by
  induction k generalizing s with
  | zero => exact h
  | succ k ih => exact ih h.drainOne

theorem drain {n : Nat} (h : InLockdown s.regs) : InLockdown (s.drain n).regs := h.drainN

theorem sendFar {n : Nat} (h : InLockdown s.regs) : InLockdown (s.sendFar n).regs := h.drainN

/-! ### Packets -/

theorem linkReport {l k : Nat} (h : InLockdown s.regs) : InLockdown (s.linkReport l k).regs := h.report

theorem setLink {l : Nat} {x : LinkRun} (h : InLockdown s.regs) : InLockdown (s.setLink l x).regs := h

theorem emit {l : Nat} {arrival : Option Nat} {p : Pkt} (h : InLockdown s.regs) : InLockdown (s.emit l arrival p).regs := h

theorem send {p : Pkt} (h : InLockdown s.regs) : InLockdown (s.send p).2.regs := by
  dsimp only [State.send]
  refine .ite_snd h ?_
  split
  · exact h.emit
  · exact h

theorem sendOwn {p : Pkt} (h : InLockdown s.regs) : InLockdown (s.sendOwn p).regs := h.send

theorem nack {src reqid reason cause oreason : Nat} {hint : Option Nat} (h : InLockdown s.regs) :
    InLockdown (s.nack src reqid reason cause oreason hint).regs :=
  h.sendOwn

theorem answerLost (h : InLockdown s.regs) : InLockdown s.answerLost.regs := by
  unfold State.answerLost
  exact .foldl h (·.whenNot (·.nack))

/-! ### Exceptions and the reset of a core -/

theorem holdCheck {n : Nat} (h : InLockdown s.regs) : InLockdown (s.holdCheck n).regs := h.setCore

theorem enterE {n k : Nat} {t : Trap} {pc : Nat} (h : InLockdown s.regs) : InLockdown (s.enterE n k t pc).regs :=
  h.setCore.holdCheck

theorem enterD {n k : Nat} {t : Trap} {pc : Nat} (h : InLockdown s.regs) : InLockdown (s.enterD n k t pc).regs :=
  h.setCore.holdCheck

theorem loseService {n k : Nat} (h : InLockdown s.regs) : InLockdown (s.loseService n k).regs := by
  unfold State.loseService
  exact .ite h (.ite (.answerLost h) h)

theorem dropKcmds {n k : Nat} (h : InLockdown s.regs) : InLockdown (s.dropKcmds n k).regs := h

theorem resetCoreState {n : Nat} (h : InLockdown s.regs) : InLockdown (s.resetCoreState n).regs := h.dropKcmds.dropKcmds.setCore

theorem resetStores {n : Nat} (h : InLockdown s.regs) : InLockdown (s.resetStores n).regs := .ite h.drain h.draw.drainN

theorem tcmReload {n : Nat} (h : InLockdown s.regs) : InLockdown (s.tcmReload n).regs := by
  dsimp only [State.tcmReload]
  refine .ite h ?_
  split
  · exact h
  · exact h

theorem failPair {n ev : Nat} (h : InLockdown s.regs) : InLockdown (s.failPair n ev).regs := by
  unfold State.failPair
  refine .setRf (.satRf (.setCore (.resetCoreState (.resetStores ?_))))
  dsimp only
  exact h.raise.discardTx.discardTx.loseService.loseService

theorem coreReset {n : Nat} (h : InLockdown s.regs) : InLockdown (s.coreReset n).regs :=
  .ite h.failPair h.discardTx.discardTx.loseService.loseService.resetStores.resetCoreState.tcmReload

theorem csMark {n : Nat} {t : Trap} (h : InLockdown s.regs) : InLockdown (s.csMark n t).regs := h.raise.setRf

theorem entryFault {n k : Nat} {t : Trap} {pc : Nat} (h : InLockdown s.regs) : InLockdown (s.entryFault n k t pc).regs :=
  h.setCtx.enterD

theorem enterBy {n k : Nat} {t : Trap} {pc : Nat} {double : Bool} (h : InLockdown s.regs) :
    InLockdown (s.enterBy n k t pc double).regs := by
  dsimp only [State.enterBy]
  split
  · exact .ite h.enterD h.enterE
  · exact .ite h.csMark.failPair (.ite h.csMark.coreReset h.csMark.entryFault)

theorem enterExc {n k : Nat} {t : Trap} {pc : Nat} (h : InLockdown s.regs) : InLockdown (s.enterExc n k t pc).regs := h.enterBy

theorem raiseTrap {n k : Nat} {t : Trap} {pc : Nat} (h : InLockdown s.regs) : InLockdown (s.raiseTrap n k t pc).regs :=
  .ite h.setCtx.holdCheck (.ite h.setCtx (.ite (.ite h.coreReset h.enterBy) h.enterExc))

theorem wake {n k : Nat} (h : InLockdown s.regs) : InLockdown (s.wake n k).regs := h.setCtx.when (·.refill)

/-! ### Results of instructions -/

theorem fly {E : Env} {loc : Loc} {old new : Val} {d : Nat} (h : InLockdown s.regs) :
    InLockdown (s.fly E loc old new d).regs :=
  h.whenNot (·.setCtx)

theorem setGloc {n k : Nat} {l : Loc} {v : Word} (h : InLockdown s.regs) : InLockdown (s.setGloc n k l v).regs := by
  dsimp only [State.setGloc]
  split
  · exact h.setCtx
  · exact h.setCtx
  · exact h.setCore
  · exact h

theorem wrG {E : Env} {r : Nat} {v : Word} {d : Nat} (h : InLockdown s.regs) : InLockdown (wrG s E r v d).regs := h.fly.setGloc

theorem wrC {E : Env} {c : Nat} {v : Cap} {d : Nat} (h : InLockdown s.regs) : InLockdown (wrC s E c v d).regs := h.fly.setCtx

/-! ### Heat of frames and plots -/

theorem considerFrame {f : Nat} (h : InLockdown s.regs) : InLockdown (s.considerFrame f).regs := by
  dsimp only [State.considerFrame]
  split
  · exact h
  · exact h

theorem heatHit {f die : Nat} (h : InLockdown s.regs) : InLockdown (s.heatHit f die).regs := by
  unfold State.heatHit
  exact .ite h.draw (.ite (.considerFrame h) h)

theorem considerPlot {p : Nat} (h : InLockdown s.regs) : InLockdown (s.considerPlot p).regs := by
  dsimp only [State.considerPlot]
  split
  · exact .ite h h
  · exact h

theorem plotHitBy {p : Nat} {node : Option Nat} (h : InLockdown s.regs) : InLockdown (s.plotHitBy p node).regs := by
  dsimp only [State.plotHitBy]
  refine .ite h.draw ?_
  split
  · exact h
  · exact .ite (.considerPlot h) h

theorem touchMaster {pa : Nat} (h : InLockdown s.regs) : InLockdown (s.touchMaster pa).regs := by
  dsimp only [State.touchMaster]
  refine .ite ?_ h
  split
  · exact h.heatHit
  · exact h.heatHit.plotHitBy

/-! ### The ridge -/

theorem rdgDeny {master func : Nat} {write : Bool} {a : Nat} (h : InLockdown s.regs) :
    InLockdown (s.rdgDeny master func write a).regs :=
  h.setReg.raise.report

theorem ridge {master func : Nat} {write : Bool} {a : Nat} (h : InLockdown s.regs) :
    InLockdown (s.ridge master func write a).2.regs := by
  dsimp only [State.ridge]
  split
  · exact .touchMaster (.ite_snd h h.draw)
  · exact .ite (.ite_snd h h.draw) (.rdgDeny (.ite_snd h h.draw))

theorem ridgeAll {m : Nat} {as : List (Bool × Nat)} (h : InLockdown s.regs) : InLockdown (s.ridgeAll m as).2.regs := by
  induction as generalizing s with
  | nil => exact h
  | cons a as ih =>
    dsimp only [State.ridgeAll]
    split
    · next e => exact h.ridge.snd e
    · next e => exact ih (h.ridge.snd e)

theorem masterReadBytes {m f a n fuel : Nat} (h : InLockdown s.regs) : InLockdown (s.masterReadBytes m f a n fuel).2.2.regs := by
  induction fuel generalizing s a n with
  | zero => exact h
  | succ fuel ih => exact .ite_trd h (ih h.ridge)

/-! ### Writes to memory -/

theorem sbRoom {n k : Nat} (h : InLockdown s.regs) : InLockdown (s.sbRoom n k).regs :=
  .ite h.drainN (h.when (·.drainOne.portUsed))

theorem enqueue {n k : Nat} {t : Tgt} {es : List (Nat × List WOp)} (h : InLockdown s.regs) : InLockdown (s.enqueue n k t es).regs := by
  induction es generalizing s with
  | nil => exact h
  | cons e es ih => exact ih h.sbRoom.setCore.form

theorem masterWriteBytes {m f a fuel : Nat} {bs : List Nat} (h : InLockdown s.regs) :
    InLockdown (s.masterWriteBytes m f a bs fuel).2.regs := by
  induction fuel generalizing s a bs with
  | zero => cases bs <;> exact h
  | succ fuel ih =>
    refine .ite_snd h (ih ?_)
    split
    · exact h.ridge
    · exact .ite_snd (.foldlPair h.ridge fun h => .ite h h) h.ridge

/-! ### Translation -/

theorem probe {E : Env} {i probes : Nat} (h : InLockdown s.regs) : InLockdown (probe s E i probes).2.regs := by
  dsimp only [Machine.probe]
  split
  · exact h.ridge
  · exact h.ridge
  · exact .ite_snd h.ridge (.ite_snd h.ridge h.ridge)

theorem walkChain {E : Env} {space : Bool} {vpn last fuel f p : Nat} (h : InLockdown s.regs) :
    InLockdown (walkChain s E space vpn last fuel f p).2.regs := by
  induction fuel generalizing s last f p with
  | zero => exact h
  | succ fuel ih =>
    refine .ite_snd h (.ite_snd h (.ite_snd h ?_))
    split
    · next e => exact h.probe.snd e
    · next e =>
      have read := h.probe.snd e
      exact .ite_snd (.ite_snd read (.ite_snd read (.ite_snd read read))) (ih read)

theorem walk {E : Env} {space : Bool} {vpn : Nat} (h : InLockdown s.regs) : InLockdown (walk s E space vpn).2.regs := by
  dsimp only [Machine.walk]
  split
  · next e => exact h.probe.snd e
  · next e => exact (h.probe.snd e).walkChain

theorem tlbDropWhere {sel : Nat → Bool} {gone : TlbEntry → Bool} (h : InLockdown s.regs) :
    InLockdown (s.tlbDropWhere sel gone).regs :=
  h

/-! ### The plot cache -/

theorem newReq (h : InLockdown s.regs) : InLockdown s.newReq.2.regs := h

theorem plotForget {p : Nat} (h : InLockdown s.regs) : InLockdown (s.plotForget p).regs := h

theorem plotLearn {p owner : Nat} (h : InLockdown s.regs) : InLockdown (s.plotLearn p owner).regs := by
  dsimp only [State.plotLearn]
  split
  · exact h
  · exact .ite h h.plotForget

/-! ### The control store -/

theorem mcsWord {a : Nat} (h : InLockdown s.regs) : InLockdown (s.mcsWord a).2.regs := by
  dsimp only [State.mcsWord]
  exact h.masterReadBytes (m := mMCS) (f := 0) (a := a) (n := 8) (fuel := 2)

theorem readSection {a : Nat} (h : InLockdown s.regs) : InLockdown (s.readSection a).2.regs := by
  dsimp only [State.readSection]
  exact h.masterReadBytes (m := mMCS) (f := 0) (a := a) (n := 0x11000) (fuel := 0x11000 / 64 + 2)

theorem csInstall {n : Nat} {c : Option CStore} (h : InLockdown s.regs) : InLockdown (s.csInstall n c).regs := by
  unfold State.csInstall
  exact .setReg h

theorem csFail {n : Nat} (h : InLockdown s.regs) : InLockdown (s.csFail n).regs := h.setCore.foldl (·.raise)

theorem csLoad {n a : Nat} {readback : Bool} (h : InLockdown s.regs) : InLockdown (s.csLoad n a readback).2.regs := by
  unfold State.csLoad
  generalize e : s.mcsWord a = r
  have word : InLockdown r.2.regs := e ▸ h.mcsWord
  refine .ite_snd h (.ite_snd h ?_)
  rcases r with ⟨_ | w, u⟩
  · exact word
  · refine .ite_snd word (.ite_snd (csFail word) ?_)
    generalize e' : u.readSection a = r
    have found : InLockdown r.2.regs := e' ▸ readSection word
    rcases r with ⟨_ | x, v⟩
    · exact found
    · exact .foldl found (·.csInstall)

theorem csAgain {n : Nat} (h : InLockdown s.regs) : InLockdown (s.csAgain n).regs := by
  dsimp only [State.csAgain]
  split
  · exact h.draw.csLoad
  · exact .ite (h.draw.foldl (·.csInstall)) h.draw.csFail

/-! ### The entropy source -/

theorem entropyFail {i : Nat} (h : InLockdown s.regs) : InLockdown (s.entropyFail i).regs := h.setRf.report

/-! ### The journal -/

theorem jcUpdate (h : InLockdown s.regs) : InLockdown s.jcUpdate.regs := by
  simpa [State.jcUpdate, h.serving] using h

theorem jcSet {j st reason : Nat} (h : InLockdown s.regs) : InLockdown (s.jcSet j st reason).regs := h.setRf.setRf

theorem setLabel {j : Nat} {f : CartLabel → CartLabel} (h : InLockdown s.regs) : InLockdown (s.setLabel j f).regs := by
  dsimp only [State.setLabel]
  split
  · exact h
  · exact h

theorem copyRestart {j : Nat} (h : InLockdown s.regs) : InLockdown (s.copyRestart j).regs := by
  unfold State.copyRestart
  exact .ite h h

theorem jcFail {j reason : Nat} (h : InLockdown s.regs) : InLockdown (s.jcFail j reason).regs :=
  h.jcSet.report.copyRestart.jcUpdate

theorem jcMirror {j : Nat} (h : InLockdown s.regs) : InLockdown (s.jcMirror j).regs := by
  unfold State.jcMirror
  exact h.jcSet.setLabel

theorem sealOne {r : JRec} {rest : List JRec} (h : InLockdown s.regs) : InLockdown (s.sealOne r rest).regs := h

theorem execRecordSealing (h : InLockdown s.regs) : Stays (execRecordSealing s) := by
  dsimp only [Machine.execRecordSealing]
  split
  · exact h
  · exact .next h.sealOne.jcUpdate

theorem appendTo {j a fuel : Nat} (h : InLockdown s.regs) : InLockdown (s.appendTo j a fuel).regs := by
  induction fuel generalizing s with
  | zero => exact h
  | succ fuel ih =>
    dsimp only [State.appendTo]
    split
    · exact .ite h (ih h)
    · exact h

theorem execAppend (h : InLockdown s.regs) : Stays (execAppend s) := by
  unfold Machine.execAppend
  exact .ite h (.next (.jcUpdate (.foldl (h.whenNot (·.advanceTo)) (·.appendTo))))

theorem ackAppend {j a : Nat} (h : InLockdown s.regs) : InLockdown (s.ackAppend j a).regs := by
  dsimp only [State.ackAppend]
  split
  · exact h
  · exact h

theorem execCartridgeAck {j a : Nat} (h : InLockdown s.regs) : Stays (execCartridgeAck j a s) := by
  unfold Machine.execCartridgeAck
  exact .ite trivial (.ite h (.next (.jcUpdate (.ite h.ackAppend h.ackAppend))))

theorem execJournalStall (h : InLockdown s.regs) : Stays (execJournalStall s) := by
  dsimp only [Machine.execJournalStall]
  refine .ite h ?_
  split
  · exact h
  · exact .next (.jcUpdate h)

theorem execSlotUnanswered {j : Nat} (h : InLockdown s.regs) : Stays (execSlotUnanswered j s) := by
  dsimp only [Machine.execSlotUnanswered]
  refine .ite trivial (.ite h ?_)
  split
  · exact h
  · exact .ite (.next h.advanceTo.jcFail) h

theorem execMediaError {j : Nat} (h : InLockdown s.regs) : Stays (execMediaError j s) := .ite trivial (.ite h (.next h.jcFail))

theorem execCartridgeInsert {j : Nat} {c : Cart} (h : InLockdown s.regs) : Stays (execCartridgeInsert j c s) := by
  unfold Machine.execCartridgeInsert
  exact .ite trivial (.ite h (.next (.ite (.jcSet (.report (.setRf h))) (.report (.setRf h)))))

theorem execCartridgeRemove {j : Nat} (h : InLockdown s.regs) : Stays (execCartridgeRemove j s) := by
  unfold Machine.execCartridgeRemove
  exact .ite trivial (.ite h (.next (.ite (.jcFail (.report (.setRf h))) (.jcUpdate (.jcSet (.report (.setRf h)))))))

theorem execAttestation {j : Nat} (h : InLockdown s.regs) : Stays (execAttestation j s) :=
  .ite trivial (.pos (.inr (.inl h.serving)) h)

theorem execAttestationTimeout {j : Nat} (h : InLockdown s.regs) : Stays (execAttestationTimeout j s) :=
  .ite trivial (.pos (.inr h.portsRun) h)

theorem execLabelRewrite {j : Nat} (h : InLockdown s.regs) : Stays (execLabelRewrite j s) := by
  dsimp only [Machine.execLabelRewrite]
  refine .ite trivial (.ite h ?_)
  split
  · exact h
  · exact .ite h (.next (.setLabel h))

theorem execWearRead (h : InLockdown s.regs) : Stays (execWearRead s) := .pos h.serving h

theorem execResilver {j : Nat} (h : InLockdown s.regs) : Stays (execResilver j s) := by
  dsimp only [Machine.execResilver]
  refine .ite trivial (.ite h ?_)
  split
  · exact .next h
  · exact h

theorem execResilverComplete {j : Nat} (h : InLockdown s.regs) : Stays (execResilverComplete j s) :=
  .ite trivial (.ite h (.next h.jcMirror.report.jcUpdate))

theorem readOut {a stop count : Nat} {es : List RingEnt} (h : InLockdown s.regs) : InLockdown (s.readOut a stop count es).2.regs := by
  induction count generalizing s a es with
  | zero => cases es <;> exact h
  | succ count ih =>
    cases es with
    | nil => exact h
    | cons e es => exact .ite_snd h (ih h.masterWriteBytes)

theorem execReadOutComplete (h : InLockdown s.regs) : Stays (execReadOutComplete s) := by
  dsimp only [Machine.execReadOutComplete]
  refine .ite h (.next (.report (.setRf (.setRf ?_))))
  split
  · exact h
  · exact .ite_snd h.readOut h

/-! ### The ingress -/

theorem execLaneDoorbell {f l : Nat} {v : Word} (h : InLockdown s.regs) : Stays (execLaneDoorbell f l v s) :=
  .ite trivial (.pos (by simp [h.hostUp]) h)

theorem execRingDescriptorRead {l : Nat} (h : InLockdown s.regs) : Stays (execRingDescriptorRead l s) :=
  .ite trivial (.pos (.inl h.ingOn) h)

theorem land {l tag fmt : Nat} {bs : List Nat} (h : InLockdown s.regs) : InLockdown (s.land l tag fmt bs).regs := by
  unfold State.land
  exact .addRf (.masterWriteBytes h)

theorem execFrameLanding {l : Nat} (h : InLockdown s.regs) : Stays (execFrameLanding l s) := by
  unfold Machine.execFrameLanding
  refine .ite trivial ?_
  split
  · exact h
  · exact .pos (.inl h.ingOn) h

theorem execLaneStall {l : Nat} (h : InLockdown s.regs) : Stays (execLaneStall l s) := by
  dsimp only [Machine.execLaneStall]
  generalize s.freeSlots.isEmpty = full
  refine .ite trivial ?_
  split
  · exact h
  · exact .ite h (.next h.advanceTo.report)

theorem fetchFormat {bank f : Nat} (h : InLockdown s.regs) : InLockdown (s.fetchFormat bank f).regs := by
  generalize ev : s.fetchFormat bank f = v
  unfold State.fetchFormat at ev
  split at ev
  · exact ev ▸ h
  · extract_lets a at ev
    split at ev
    next er =>
    have read : InLockdown _ := trd er h.masterReadBytes
    subst ev
    exact .ite read read

theorem parseBegin (h : InLockdown s.regs) : InLockdown s.parseBegin.regs := by
  dsimp only [State.parseBegin]
  split
  · exact h
  · exact .ite (.setRf h) (.setRf h)

theorem execFormatFetch (h : InLockdown s.regs) : Stays (execFormatFetch s) := by
  dsimp only [Machine.execFormatFetch]
  split
  · exact h
  · exact .ite h (.next (h.parseBegin.fetchFormat.whenNot (·.report)))

theorem execParse (h : InLockdown s.regs) : Stays (execParse s) := by
  unfold Machine.execParse
  split
  · exact h
  · exact .pos h.ingOn h

/-! ### The egress -/

theorem execResponseRelease {l : Nat} (h : InLockdown s.regs) : Stays (execResponseRelease l s) := .ite trivial (.pos h.ingOn h)

theorem execResponseBufferWait {l : Nat} (h : InLockdown s.regs) : Stays (execResponseBufferWait l s) := by
  unfold Machine.execResponseBufferWait
  refine .ite trivial ?_
  split
  · exact h
  · exact .pos (.inl h.ingOn) h

theorem execPostBuffer {f l : Nat} {v : Word} (h : InLockdown s.regs) : Stays (execPostBuffer f l v s) :=
  .ite trivial (.pos (by simp [h.hostUp]) h)

/-! ### Degradation and LOCKDOWN -/

theorem degrMode (h : InLockdown s.regs) : InLockdown s.degrMode.regs := by
  simpa [State.degrMode, h.mode, mdLOCKDOWN, mdSERVICE, mdDEGRADED] using h

theorem setDegr {v : Nat} (h : InLockdown s.regs) : InLockdown (s.setDegr v).regs := h.whenNot (·.setRf.report.degrMode)

theorem setDegrBit {i : Nat} {b : Bool} (h : InLockdown s.regs) : InLockdown (s.setDegrBit i b).regs := h.setDegr

theorem degrMemory (h : InLockdown s.regs) : InLockdown s.degrMemory.regs := h.setDegrBit

theorem retireMark {sc ix : Nat} (h : InLockdown s.regs) : InLockdown (s.retireMark sc ix).regs := by
  unfold State.retireMark
  exact .raise h

theorem lockdown {cause input : Nat} (h : InLockdown s.regs) : InLockdown (s.lockdown cause input).regs := by
  simpa [State.lockdown, h.mode] using h

theorem tamperScore (h : InLockdown s.regs) : InLockdown s.tamperScore.regs := (h.satRf.when (·.report)).when (·.lockdown)

theorem dbgDeny {write : Bool} {a : Nat} (h : InLockdown s.regs) : InLockdown (s.dbgDeny write a).regs :=
  h.raise.report.satRf.setRf.setRf.tamperScore

theorem execTamperCause {cause k : Nat} (h : InLockdown s.regs) : Stays (execTamperCause cause k s) := by
  unfold Machine.execTamperCause
  exact .ite trivial (.ite h (.next (.ite h.lockdown h.lockdown)))

theorem execLockdownClear (h : InLockdown s.regs) : Stays (execLockdownClear s) := by
  dsimp only [Machine.execLockdownClear]
  split
  · exact h
  · exact .next (.advanceTo h)

theorem execLdcountProgram (h : InLockdown s.regs) : Stays (execLdcountProgram s) := by
  dsimp only [Machine.execLdcountProgram]
  split
  · exact h
  · exact .next (.advanceTo (.satRf h))

/-! ### Stacked memory -/

theorem pcFlag {pc : Nat} {f : Fd} (h : InLockdown s.regs) : InLockdown (s.pcFlag pc f).regs := h.whenNot (·.setRf.report)

theorem markRow {r : Nat × Nat} (h : InLockdown s.regs) : InLockdown (s.markRow r).regs := by
  unfold State.markRow
  exact .ite h h

theorem ueFound {a : Nat} (h : InLockdown s.regs) : InLockdown (s.ueFound a).regs := by
  unfold State.ueFound
  exact .markRow (.raise (.pcFlag (.satRf h)))

theorem execCeWriteback {a : Nat} {dropped : Bool} (h : InLockdown s.regs) : Stays (execCeWriteback a dropped s) :=
  .ite trivial (.pos (.inl h.mode) h)

theorem execScrubRead {pc wrong : Nat} (h : InLockdown s.regs) : Stays (execScrubRead pc wrong s) :=
  .ite trivial (.pos (.inl h.mode) h)

theorem execRowSparing {pc row : Nat} (h : InLockdown s.regs) : Stays (execRowSparing pc row s) :=
  .ite trivial (.pos (.inr (.inr h.mode)) h)

theorem execRetraining {pc fin : Nat} (h : InLockdown s.regs) : Stays (execRetraining pc fin s) :=
  .ite trivial (.pos (.inr (.inl h.mode)) h)

theorem retirePc {pc : Nat} (h : InLockdown s.regs) : InLockdown (s.retirePc pc).regs := by
  dsimp only [State.retirePc]
  refine .ite h ?_
  split
  · exact h.setRf.satRf.degrMemory
  · exact .retireMark (.setRf (.setRf h.setRf.setRf))

theorem execDrainingCopy {pc : Nat} (h : InLockdown s.regs) : Stays (execDrainingCopy pc s) :=
  .ite trivial (.pos (.inr (.inr h.mode)) h)

theorem execRetdone {pc : Nat} (h : InLockdown s.regs) : Stays (execRetdone pc s) :=
  .ite trivial (.pos (.inr (.inr h.mode)) h)

/-! ### Placement -/

theorem setPool {st : Nat} {fs : List Nat} (h : InLockdown s.regs) : InLockdown (s.setPool st fs).regs := by
  unfold State.setPool
  exact .ite (.report (.setRf h)) (.setRf h)

theorem take {st : Nat} (h : InLockdown s.regs) : InLockdown (s.take st).2.regs := .ite_snd h h.draw.setPool

theorem takeOvf (h : InLockdown s.regs) : InLockdown s.takeOvf.2.regs := by
  dsimp only [State.takeOvf]
  split
  · exact h
  · exact h

theorem clearFrame {f : Nat} (h : InLockdown s.regs) : InLockdown (s.clearFrame f).regs := by
  unfold State.clearFrame
  exact .foldl h (·.lineWritten)

theorem poolFrame {f : Nat} (h : InLockdown s.regs) : InLockdown (s.poolFrame f).regs := by
  unfold State.poolFrame
  exact .ite h.setPool (.report h)

theorem setEntry {i w v : Nat} (h : InLockdown s.regs) : InLockdown (s.setEntry i w v).regs := h.putWord

theorem setMv {f : Nat} {b : Bool} (h : InLockdown s.regs) : InLockdown (s.setMv f b).regs := h.setEntry

theorem tlbDropEvery {space : Bool} {vpn : Nat} (h : InLockdown s.regs) : InLockdown (s.tlbDropEvery space vpn).regs :=
  h.tlbDropWhere

theorem tlbDropPlot {plot : Nat} (h : InLockdown s.regs) : InLockdown (s.tlbDropPlot plot).regs := h.tlbDropWhere

theorem drainAll (h : InLockdown s.regs) : InLockdown s.drainAll.regs := h.foldl (·.drain)

theorem repointFrom {f g n p : Nat} (h : InLockdown s.regs) : InLockdown (s.repointFrom f g n p).regs := by
  induction n generalizing p with
  | zero => exact h
  | succ n ih => exact .ite h (.ite h.setEntry ih)

theorem repoint {b f g : Nat} (h : InLockdown s.regs) : InLockdown (s.repoint b f g).regs := .ite h.setEntry h.repointFrom

theorem execPlacementMove {f : Nat} (h : InLockdown s.regs) : Stays (execPlacementMove f s) := by
  unfold Machine.execPlacementMove
  exact .pos (by simp [h.serving]) h

theorem execHeatDecay (h : InLockdown s.regs) : Stays (execHeatDecay s) := .pos h.serving h

/-! ### Links -/

theorem setLinkState {l st : Nat} (h : InLockdown s.regs) : InLockdown (s.setLinkState l st).regs :=
  h.whenNot (·.setRf.linkReport)

theorem setLinkWidth {l w : Nat} (h : InLockdown s.regs) : InLockdown (s.setLinkWidth l w).regs := h.whenNot (·.setRf.linkReport)

theorem linkDown {l reason : Nat} (h : InLockdown s.regs) : InLockdown (s.linkDown l reason).regs := by
  unfold State.linkDown
  exact .ite (.sendOwn h.setLinkState.setLinkWidth.setRf) (.setLink h.setLinkState.setLinkWidth.setRf)

theorem linkLost {l reason : Nat} (h : InLockdown s.regs) : InLockdown (s.linkLost l reason).regs := h.linkDown.raise

theorem linkTrain {l : Nat} (h : InLockdown s.regs) : InLockdown (s.linkTrain l).regs := by
  simpa [State.linkTrain, h.linkRuns] using h

theorem execLinkTraining {l work : Nat} (h : InLockdown s.regs) : Stays (execLinkTraining l work s) :=
  .ite trivial (.pos (.inl h.linkRuns) h)

theorem notify {typ : Nat} {payload : List Byte} {but : Option Nat} (h : InLockdown s.regs) :
    InLockdown (s.notify typ payload but).regs :=
  h.foldl (·.emit)

theorem execAdmission {l chain node size key : Nat} {answered signs : Bool} (h : InLockdown s.regs) :
    Stays (execAdmission l answered chain signs node size key s) :=
  .ite trivial (.pos (.inl h.linkRuns) h)

theorem execRekey {l : Nat} (h : InLockdown s.regs) : Stays (execRekey l s) :=
  .ite trivial (.ite h (.next (h.whenNot (·.advanceTo)).setLink))

theorem execOldKeyExpiry {l : Nat} (h : InLockdown s.regs) : Stays (execOldKeyExpiry l s) := by
  dsimp only [Machine.execOldKeyExpiry]
  refine .ite trivial ?_
  split
  · exact h
  · exact .next h.setLink.advanceTo

theorem execHeartbeat {l : Nat} (h : InLockdown s.regs) : Stays (execHeartbeat l s) :=
  .ite trivial (.ite h (.next h.advanceTo.setLink))

theorem execLinkSilent {l : Nat} (h : InLockdown s.regs) : Stays (execLinkSilent l s) :=
  .ite trivial (.ite h (.next h.advanceTo.linkLost))

theorem gcmFail {l : Nat} (h : InLockdown s.regs) : InLockdown (s.gcmFail l).regs :=
  .ite h.satRf.linkReport.setLink.linkLost h.satRf.linkReport.setLink.setLinkState

theorem execFlitReceive {l fate lane : Nat} (h : InLockdown s.regs) : Stays (execFlitReceive l fate lane s) :=
  .ite trivial (.ite h (.next (.ite h.setLink (.ite h.setLink.addRf.linkReport.raise h.setLink.gcmFail))))

/-! ### Dependability -/

theorem fillRecord {r : Nat} {e : DevEvent} (h : InLockdown s.regs) : InLockdown (s.fillRecord r e).regs :=
  h.setReg.setReg.setReg.setReg.addRf

theorem raiseRecord {r sc ix : Nat} (h : InLockdown s.regs) : InLockdown (s.raiseRecord r sc ix).regs := by
  unfold State.raiseRecord
  exact .report h.setRf.setRf

theorem depOverflow {e : DevEvent} (h : InLockdown s.regs) : InLockdown (s.depOverflow e).regs :=
  .ite h.addRf.satRf.setReg h.addRf.fillRecord

theorem depCount {e : DevEvent} (h : InLockdown s.regs) : InLockdown (s.depCount e).regs := by
  dsimp only [State.depCount]
  split
  · split
    · exact h.depOverflow
    · exact h.fillRecord.raiseRecord
  · exact .ite h.satRf.setReg (.ite h.satRf.setReg.raiseRecord h.satRf.setReg.setRf)

theorem markPerm {e : DevEvent} (h : InLockdown s.regs) : InLockdown (s.markPerm e).regs := by
  dsimp only [State.markPerm]
  split
  · exact h
  · exact h.setRf

theorem degrCompute (h : InLockdown s.regs) : InLockdown s.degrCompute.regs :=
  h.setDegrBit.setDegrBit.setDegrBit.setDegrBit.setDegrBit.degrMemory

theorem domainRetired {d : Nat} (h : InLockdown s.regs) : InLockdown (s.domainRetired d).regs := by
  unfold State.domainRetired
  exact .foldl h.setRf (·.setCore)

theorem domainIfIdle {n : Nat} (h : InLockdown s.regs) : InLockdown (s.domainIfIdle n).regs := h.when (·.domainRetired)

theorem failover {t : Nat} (h : InLockdown s.regs) : InLockdown (s.failover t).regs := by
  dsimp only [State.failover]
  split
  · exact h
  · exact h.foldl (fun h => (.ite (.takeover (.ite (.updRunpri h.setRf.setRf) h.setRf)) h))

theorem loseContext {n k : Nat} (h : InLockdown s.regs) : InLockdown (s.loseContext n k).regs := h.when (·.raise)

theorem endCoreWork {n : Nat} (h : InLockdown s.regs) : InLockdown (s.endCoreWork n).regs :=
  h.loseContext.loseContext.discardTx.discardTx.loseService.loseService.resetStores.resetCoreState.setCore

theorem retirePair {k : Nat} (h : InLockdown s.regs) : InLockdown (s.retirePair k).regs := by
  unfold State.retirePair
  refine .degrCompute (.domainIfIdle (.foldl (.retireMark ?_) (·.failover)))
  generalize e : s.endCoreWork (2 * k) = u
  have ended : InLockdown u.regs := e ▸ h.endCoreWork
  exact ended.setRf

theorem retireCore {n : Nat} (h : InLockdown s.regs) : InLockdown (s.retireCore n).regs :=
  h.endCoreWork.retireMark.failover.failover.domainIfIdle.degrCompute

theorem retireLink {l : Nat} (h : InLockdown s.regs) : InLockdown (s.retireLink l).regs :=
  (h.setRf.whenNot (·.linkDown)).retireMark.degrCompute

theorem retireLane {i : Nat} (h : InLockdown s.regs) : InLockdown (s.retireLane i).regs := h.retireMark.setLink

theorem failRunning {u : Nat} (h : InLockdown s.regs) : InLockdown (s.failRunning u).regs := h

theorem retireUnit {u : Nat} (h : InLockdown s.regs) : InLockdown (s.retireUnit u).regs :=
  h.failRunning.setRf.report.retireMark.degrCompute

theorem retireSlot {j : Nat} (h : InLockdown s.regs) : InLockdown (s.retireSlot j).regs := h.whenNot (·.jcFail.retireMark)

theorem retireSource {i : Nat} (h : InLockdown s.regs) : InLockdown (s.retireSource i).regs :=
  (h.when (·.entropyFail)).retireMark

theorem retireOne {sc ix : Nat} {force : Bool} (h : InLockdown s.regs) : InLockdown (s.retireOne sc ix force).regs := by
  dsimp only [State.retireOne]
  refine .ite h (.ite (h.when (·.setRf)).setDegrBit ?_)
  split
  · exact h.whenNot (·.retireCore)
  · exact h.when (·.retirePair)
  · exact h.retirePc
  · exact h.retireMark.degrCompute
  · exact h.retireLink
  · exact h.retireLane
  · exact h.retireUnit
  · exact h.retireSlot
  · exact h.retireSource
  · exact h

theorem retire {sc ix : Nat} {force : Bool} (h : InLockdown s.regs) : InLockdown (s.retire sc ix force).regs := by
  dsimp only [State.retire]
  split
  · exact .ite ((h.foldl (·.retireOne)).when (·.domainRetired.setRf.retireMark)) h
  · exact .ite h.retireOne h.retireOne
  · exact h.retireOne

theorem ceRate {pc : Nat} (h : InLockdown s.regs) : InLockdown (s.ceRate pc).regs := by
  dsimp only [State.ceRate]
  split
  · exact h
  · exact h.when (·.raise)

theorem csReload {n : Nat} (h : InLockdown s.regs) : InLockdown (s.csReload n).regs := .ite h (h.foldl (·.csAgain))

theorem depJudge {e : DevEvent} (h : InLockdown s.regs) : InLockdown (s.depJudge e).regs := by
  dsimp only [State.depJudge]
  split
  · exact .retire (.markPerm (.ite (.ceRate h) h))
  · exact .ite (.csReload (.ite (.ceRate h) h)) (.ite (.setDegrBit (.ite (.ceRate h) h)) (.ite (.ceRate h) h))

theorem depReport {e : DevEvent} (h : InLockdown s.regs) : InLockdown (s.depReport e).regs := by
  unfold State.depReport
  generalize hu : s.depCount e = u
  have counted : InLockdown u.regs := hu ▸ h.depCount
  exact .depJudge (.ite counted counted)

theorem freshError {e : DevEvent} {u : State} (h : InLockdown s.regs) (he : s.freshError e = some u) : InLockdown u.regs := by
  unfold State.freshError at he
  split at he
  · exact someIf h.failPair he
  · exact someIf h.raise.coreReset he
  · exact someIf h.ueFound he
  · exact someIf h.raise he
  · refine someIf ?_ he
    dsimp only [State.raise]
    exact h
  · nomatch he

theorem execEventReport {e : DevEvent} (h : InLockdown s.regs) : Stays (execEventReport e s) := by
  unfold Machine.execEventReport
  have fresh {u : State} (hu : s.freshError e = some u) : InLockdown u.regs := h.freshError hu
  generalize s.freshError e = o at *
  refine .ite trivial (.ite (.next (.depReport h)) (.ite h ?_))
  cases o with
  | none => exact h
  | some u =>
    have found := fresh rfl
    exact .next (.depReport found)

theorem execDepHoldEnd {r : Nat} (h : InLockdown s.regs) : Stays (execDepHoldEnd r s) := by
  unfold Machine.execDepHoldEnd
  exact .ite trivial (.ite h (.next h.advanceTo.raiseRecord))

/-! ### The debug port -/

theorem execEpochAdvanceComplete (h : InLockdown s.regs) : Stays (execEpochAdvanceComplete s) := by
  unfold Machine.execEpochAdvanceComplete
  exact .ite h (.next (.ite h.addRf.report.setRf h.addRf.report.setRf))

theorem execCoreHalted {n : Nat} (h : InLockdown s.regs) : Stays (execCoreHalted n s) :=
  .ite trivial (.pos (.inr (.inr (.inl h.serving))) h)

/-! ### Voltage and temperature -/

theorem railLower (h : InLockdown s.regs) : InLockdown s.railLower.regs := by
  unfold State.railLower
  exact .ite h h

theorem railRaise {u : State} (h : InLockdown s.regs) (hu : InLockdown u.regs) : InLockdown (s.railRaise u).regs :=
  .ite hu (.ite h h)

theorem groupMove {j : Nat} (h : InLockdown s.regs) : InLockdown (s.groupMove j).regs :=
  .ite h.setRf.setRf.railLower (.ite (h.setRf.railRaise h.setRf.setRf) h.setRf)

theorem groupsMove (h : InLockdown s.regs) : InLockdown s.groupsMove.regs := h.foldl (·.groupMove)

theorem execAvsAcknowledgement (h : InLockdown s.regs) : Stays (execAvsAcknowledgement s) := by
  unfold Machine.execAvsAcknowledgement
  refine .ite h (.next ?_)
  dsimp only
  exact .groupsMove h

theorem execAvsAckTimeout (h : InLockdown s.regs) : Stays (execAvsAckTimeout s) := by
  dsimp only [Machine.execAvsAckTimeout]
  split
  · exact h
  · exact .next (.report (.advanceTo h))

theorem execPowerControl {watts : Nat} (h : InLockdown s.regs) : Stays (execPowerControl watts s) := by
  dsimp only [Machine.execPowerControl]
  refine .ite trivial (.ite h ?_)
  refine .ite ?_ ?_
  · split
    · exact .next h.advanceTo.setRf
    · exact .next (.groupMove h.advanceTo.setRf)
  · refine .ite ?_ (.next h.advanceTo.setRf)
    split
    · exact .next h.advanceTo.setRf
    · refine .ite (.next h.advanceTo.setRf) ?_
      split
      · exact .next h.advanceTo.setRf
      · exact .next (.groupMove h.advanceTo.setRf)

theorem setLimited {d : Nat} {b : Bool} (h : InLockdown s.regs) : InLockdown (s.setLimited d b).regs := h.setRf

theorem setTcap {j v : Nat} (h : InLockdown s.regs) : InLockdown (s.setTcap j v).regs := by
  unfold State.setTcap
  exact .groupMove (.setLimited h)

theorem execThermalLimit {d temp : Nat} {stay : Bool} (h : InLockdown s.regs) : Stays (execThermalLimit d temp stay s) := by
  unfold Machine.execThermalLimit
  refine .ite trivial (.ite h (.ite ?_ (.ite h (.ite (.next (.setLimited h)) (.ite (.next (.ite (.setTcap h) (.setTcap h))) (.next h))))))
  refine .ite (.next (.ite (.raise ?_) (.report (.setRf (.raise ?_))))) (.next ?_)
  all_goals exact .ite (.ite h.setRf h.setRf) (.ite h.setRf h.setRf)

theorem execThermtrip {d : Nat} (h : InLockdown s.regs) : Stays (execThermtrip d s) := by
  unfold Machine.execThermtrip
  exact .ite trivial (.ite h (.next (.advanceTo h)))

/-! ### The monitors -/

theorem execAgeMeasurement {d slack : Nat} (h : InLockdown s.regs) : Stays (execAgeMeasurement d slack s) :=
  .ite trivial (.pos (.inl h.serving) h)

theorem execMonitorSample {m ix x : Nat} (h : InLockdown s.regs) : Stays (execMonitorSample m ix x s) := by
  unfold Machine.execMonitorSample
  refine .ite trivial ?_
  extract_lets sel kept
  split
  · exact h
  · exact .pos (by simp [h.serving]) h

/-! ### Power, clocks and resets -/

theorem switched {d : Nat} (h : InLockdown s.regs) : InLockdown (s.switched d).regs := h.setRf.report

theorem coreStart {n : Nat} (h : InLockdown s.regs) : InLockdown (s.coreStart n).regs :=
  h.whenNot (·.setCore.csAgain.resetCoreState.tcmReload.setCore)

theorem pairReset {k : Nat} (h : InLockdown s.regs) : InLockdown (s.pairReset k).regs := by
  unfold State.pairReset
  refine .tcmReload (.resetCoreState (.resetStores ?_))
  dsimp only
  exact h.discardTx.discardTx.loseService.loseService

theorem oneReset {n : Nat} (h : InLockdown s.regs) : InLockdown (s.oneReset n).regs := .ite h.pairReset h.coreReset

theorem execPllUnlock {n : Nat} (h : InLockdown s.regs) : Stays (execPllUnlock n s) := by
  unfold Machine.execPllUnlock
  exact .ite trivial (.ite h (.next (.ite (.foldl (.foldl (.setReg h) (·.report)) (·.pairReset)) (.foldl (.setReg h) (·.report)))))

theorem execPllLockRegained {n : Nat} (h : InLockdown s.regs) : Stays (execPllLockRegained n s) := by
  unfold Machine.execPllLockRegained
  exact .ite trivial (.ite h (.next h))

theorem execReferenceClockLost (h : InLockdown s.regs) : Stays (execReferenceClockLost s) := by
  unfold Machine.execReferenceClockLost
  exact .ite h (.next (.foldl (.setReg h) (·.when (·.jcFail))))

theorem execReferenceClockRestored (h : InLockdown s.regs) : Stays (execReferenceClockRestored s) := by
  unfold Machine.execReferenceClockRestored
  exact .ite h (.next (.foldl (.setReg h) (·.when (·.jcSet))))

theorem linkReset {l : Nat} (h : InLockdown s.regs) : InLockdown (s.linkReset l).regs := (h.whenNot (·.linkDown)).linkTrain

theorem slotReset {j : Nat} (h : InLockdown s.regs) : InLockdown (s.slotReset j).regs := by
  unfold State.slotReset
  exact .ite h (.jcUpdate (.copyRestart (.jcSet h)))

theorem monReset {m : Nat} (h : InLockdown s.regs) : InLockdown (s.monReset m).regs := h.filterRegs fun _ => rfl

theorem unitReset {u : Nat} (h : InLockdown s.regs) : InLockdown (s.unitReset u).regs :=
  .ite (h.failRunning.draw.whenNot (·.setRf)) h.failRunning

theorem endLanded {p : PFrame} {outcome : Nat} (h : InLockdown s.regs) : InLockdown (s.endLanded p outcome).regs := by
  unfold State.endLanded
  exact .report h.satRf

theorem laneReset {l : Nat} (h : InLockdown s.regs) : InLockdown (s.laneReset l).regs := by
  unfold State.laneReset
  cases tfind s.lanes l with
  | none => exact .setReg (.foldl (.foldl h (·.endLanded)) (·.endFrame))
  | some j => exact .setReg (.foldl (.foldl (.report h.satRf) (·.endLanded)) (·.endFrame))

theorem domainReset {d : Nat} (h : InLockdown s.regs) : InLockdown (s.domainReset d).regs := by
  unfold State.domainReset
  exact .ite h (.ite (h.foldl (·.oneReset.coreStart)) (.ite h.linkReset (.ite (h.foldl (·.unitReset))
    (.ite (h.foldl (·.laneReset)) (.ite h (h.when (·.slotReset)))))))

theorem resetUnit {v : Word} (h : InLockdown s.regs) : InLockdown (s.resetUnit v).regs := by
  dsimp only [State.resetUnit]
  split
  · exact h.domainReset
  · exact .ite h.pairReset h.oneReset.oneReset
  · exact h.oneReset
  · split
    · exact h.linkReset
    · exact h.slotReset
    · exact h.unitReset
    · exact h.monReset
    · exact h.laneReset
  · exact h

/-- A register of a unit's window is another one. -/
theorem setWindowed {d : Nat} {e : Reg × Word} (h : InLockdown s.regs) :
    InLockdown (if windowed d e.1 then s.setReg e.1 e.2 else s).regs := by
  obtain ⟨r, v⟩ := e
  split
  · next own => exact h.setReg (by rintro rfl; nomatch own)
  · exact h

theorem execSwitchOnComplete {d : Nat} (h : InLockdown s.regs) : Stays (execSwitchOnComplete d s) := by
  unfold Machine.execSwitchOnComplete
  refine .ite trivial ?_
  cases tfind s.switchAt d with
  | none => exact h
  | some entry =>
    refine .next (.foldl (.switched (.when (.when ?_ (·.linkTrain)) (·.jcSet))) (·.resetUnit))
    exact .foldl (.foldl h.setRf (·.coreStart)) (·.setWindowed)

/-! ### Management -/

theorem setFlash {a : Nat} {b : Byte} (h : InLockdown s.regs) : InLockdown (s.setFlash a b).regs := h

theorem flashEnd {err : Nat} (h : InLockdown s.regs) : InLockdown (s.flashEnd err).regs := by
  unfold State.flashEnd
  exact .report h.setRf.setRf

theorem setFlbuf {f : Nat → Nat} (h : InLockdown s.regs) : InLockdown (s.setFlbuf f).regs := h.foldl (·.setReg)

theorem flashEffect {op a : Nat} (h : InLockdown s.regs) : InLockdown (s.flashEffect op a).regs := by
  dsimp only [State.flashEffect]
  split
  · exact h.foldl (·.setFlash)
  · exact h.foldl (fun h => (.ite h.setFlash h.draw.setFlash))
  · exact h.setFlbuf

theorem flashSpoil {op a : Nat} (h : InLockdown s.regs) : InLockdown (s.flashSpoil op a).regs := by
  unfold State.flashSpoil
  exact .ite (.setFlbuf h) (h.foldl (·.draw.setFlash))

theorem execFlashOperationDone {ok : Bool} (h : InLockdown s.regs) : Stays (execFlashOperationDone ok s) := by
  dsimp only [Machine.execFlashOperationDone]
  split
  · exact h
  · exact .next (.ite h.flashEffect.flashEnd h.flashSpoil.flashEnd)

theorem execFlashOperationTimeout (h : InLockdown s.regs) : Stays (execFlashOperationTimeout s) := by
  dsimp only [Machine.execFlashOperationTimeout]
  split
  · exact h
  · exact .next h.flashSpoil.advanceTo.flashEnd

theorem uartSync {fuel : Nat} (h : InLockdown s.regs) : InLockdown (s.uartSync fuel).regs := by
  induction fuel generalizing s with
  | zero => exact h
  | succ fuel ih =>
    unfold State.uartSync
    split
    · refine .ite (ih (boundary ?_)) h
      exact h
    · exact h

theorem uartRead (h : InLockdown s.regs) : InLockdown s.uartRead.2.regs := by
  dsimp only [State.uartRead]
  split
  · exact h.when (·.uartSync)
  · exact h.when (·.uartSync)

theorem execUartTransmitterEmpty (h : InLockdown s.regs) : Stays (execUartTransmitterEmpty s) :=
  .pos (.inr (.inr h.sealedShut)) h

theorem execUartReceive {b : Nat} (h : InLockdown s.regs) : Stays (execUartReceive b s) := by
  unfold Machine.execUartReceive
  exact .ite trivial (.ite h (.next (.report h.boundary)))

theorem execMctpTransmissionDone (h : InLockdown s.regs) : Stays (execMctpTransmissionDone s) := .ite h (.next h.setRf.report)

theorem execMctpMessageReceived {bs : List Byte} (h : InLockdown s.regs) : Stays (execMctpMessageReceived bs s) := by
  unfold Machine.execMctpMessageReceived
  exact .ite trivial (.ite h (.ite (.next h) (.next (h.foldl (·.setReg)).setRf.setRf.report)))

theorem execFuseRoot {hash : List Byte} (h : InLockdown s.regs) : Stays (execFuseRoot hash s) := by
  unfold Machine.execFuseRoot
  exact .ite trivial (.ite h (.ite (.next (.setRf h)) (.next h)))

theorem execWarmReset (h : InLockdown s.regs) : Stays (execWarmReset s) := by
  unfold Machine.execWarmReset
  rw [h.warmReset_eq]
  exact .ite h h

theorem execGetId (h : InLockdown s.regs) : Stays (execGetId s) := by
  unfold Machine.execGetId
  exact .ite h (.next h)

theorem execWrstN (h : InLockdown s.regs) : Stays (execWrstN s) := .ite h (.pos (.inr h.mode) h)

theorem execWrstNRise (h : InLockdown s.regs) : Stays (execWrstNRise s) := by
  unfold Machine.execWrstNRise
  exact .ite h (.next h)

/-- POR_N rising (its fall is the power-on reset, which does leave LOCKDOWN). -/
theorem execPorN (h : InLockdown s.regs) : Stays (execPorN false s) := by
  refine .ite h (.neg Bool.false_ne_true (.ite (.next (.lockdown ?_)) h))
  exact h

theorem execPePerstN {low : Bool} (h : InLockdown s.regs) : Stays (execPePerstN low s) := by
  unfold Machine.execPePerstN
  exact .ite h (.next h)

/-! ### The check of an image -/

theorem imgResult {e : Option ImgFail} (h : InLockdown s.regs) : InLockdown (s.imgResult e).regs := by
  cases e with
  | none => exact h.setRf.setRf.setRf
  | some e => exact h.setRf.setRf.setRf

/-! ### Register writes -/

theorem claimEnd {result node : Nat} (h : InLockdown s.regs) : InLockdown (s.claimEnd result node).regs := by
  unfold State.claimEnd
  exact h.setRf.setRf.setRf

/-- Every write is ignored (R578). -/
theorem regWrite_eq {q : Requester} {r : Reg} {v : Word} (h : InLockdown s.regs) : regWrite s q r v = some s := by
  unfold regWrite
  simp only [h.sealedShut]
  rfl

theorem regLive {r : Reg} (h : InLockdown s.regs) : InLockdown (regLive s r).2.regs := by
  dsimp only [Machine.regLive]
  split
  · exact h
  · exact h
  · exact h
  · exact h.take
  · exact h.takeOvf
  · exact h
  · exact h
  · exact h
  · exact h
  · exact h
  · exact h
  · exact h
  · exact h
  · exact h.uartRead
  · exact h

theorem twoRead {q : Requester} {r : Reg} {w : Word} (h : InLockdown s.regs) : InLockdown (twoRead s q r w).2.regs := by
  unfold Machine.twoRead
  exact .ite_snd (.ite_snd h.draw h) h

theorem regRead {q : Requester} {r : Reg} (h : InLockdown s.regs) : InLockdown (regRead s q r).2.regs :=
  .ite_snd h (.ite_snd h (.ite_snd h h.regLive.twoRead))

/-- What a read by address does. The function is unfolded as a whole, so that its address is not evaluated. -/
theorem readPa_eq {q : Requester} {pa : Nat} : Machine.readPa s q pa = (s.regAtPa q pa).elim (0, s) (Machine.regRead s q) := by
  have unfolded : Machine.readPa = fun s q pa => (s.regAtPa q pa).elim (0, s) (Machine.regRead s q) := by
    delta Machine.readPa
    funext s q pa
    cases s.regAtPa q pa <;> rfl
  exact congrFun (congrFun (congrFun unfolded s) q) pa

theorem readPa {q : Requester} {pa : Nat} (h : InLockdown s.regs) : InLockdown (Machine.readPa s q pa).2.regs := by
  rw [readPa_eq]
  cases s.regAtPa q pa with
  | none => exact h
  | some r => exact h.regRead

theorem writePa_eq {q : Requester} {pa : Nat} {v : Word} : Machine.writePa s q pa v =
    (s.regAtPa q pa).elim (if s.spareDenied q pa then none else some s) (regWrite s q · v) := by
  have unfolded : Machine.writePa = fun s q pa v =>
      (s.regAtPa q pa).elim (if s.spareDenied q pa then none else some s) (regWrite s q · v) := by
    delta Machine.writePa
    funext s q pa v
    cases s.regAtPa q pa <;> rfl
  exact congrFun (congrFun (congrFun (congrFun unfolded s) q) pa) v

theorem writePa {q : Requester} {pa : Nat} {v : Word} {u : State} (h : InLockdown s.regs) (e : Machine.writePa s q pa v = some u) :
    InLockdown u.regs := by
  rw [writePa_eq] at e
  generalize s.regAtPa q pa = o at e
  cases o with
  | none =>
    rw [Option.elim_none] at e
    split at e
    · nomatch e
    · cases e; exact h
  | some r =>
    rw [Option.elim_some, h.regWrite_eq] at e
    cases e; exact h

/-! ### Accesses of a core -/

theorem serveFlash {q : Requester} {off pa : Nat} (h : InLockdown s.regs) : InLockdown (s.serveFlash q off pa).2.regs := by
  unfold State.serveFlash
  exact .ite_snd h (.ite_snd h (.ite_snd h h.raise))

theorem hold {n k : Nat} {t : Tgt} {ops : List WOp} (h : InLockdown s.regs) : InLockdown (s.hold n k t ops).regs := h

theorem perform {E : Env} {ps : List Put} (h : InLockdown s.regs) : InLockdown (s.perform E ps).regs := by
  dsimp only [State.perform]
  refine h.foldl fun h => ?_
  split
  · exact h.hold.foldl (·.form)
  · exact h
  · exact h.enqueue.when (·.drain)

theorem lateBus {E : Env} {addr size : Nat} {fromCommit : Bool} (h : InLockdown s.regs) :
    InLockdown (s.lateBus E addr size fromCommit).regs :=
  h.setCore.holdCheck

theorem lateStore {E : Env} {cs : List Chunk} {ea size : Nat} (h : InLockdown s.regs) :
    InLockdown (s.lateStore E cs ea size).regs :=
  .ite (h.foldl (·.hold)).setCtx (h.whenNot (·.lateBus))

/-! ### The issue of instructions -/

theorem slotDone {n k : Nat} (h : InLockdown s.regs) : InLockdown (s.slotDone n k).regs := h

theorem enterMa {n k : Nat} {m : MaCause} (h : InLockdown s.regs) : InLockdown (s.enterMa n k m).regs :=
  h.setCore.holdCheck.enterExc

theorem stepTrap {n k : Nat} (h : InLockdown s.regs) : InLockdown (s.stepTrap n k).regs := by
  dsimp only [State.stepTrap]
  refine .ite ?_ h
  refine .ite h.setCtx ?_
  split
  · exact h.enterMa
  · exact h.raiseTrap

theorem queueOn {E : Env} {next : Nat} (h : InLockdown s.regs) : InLockdown (s.queueOn E next).regs := by
  dsimp only [State.queueOn]
  split
  · exact h.setCore
  · split
    · exact h.whenNot (·.flushQueue)
    · exact .ite h.flushQueue h.setCore

theorem setOlder {n : Nat} {b : Bool} (h : InLockdown s.regs) : InLockdown (s.setOlder n b).regs := h.setCore

theorem complete {E : Env} (h : InLockdown s.regs) : InLockdown (s.complete E).regs :=
  (h.setCtx.setPc.when (·.queueOn.setOlder)).slotDone.stepTrap

theorem fail {E : Env} {t : Trap} (h : InLockdown s.regs) : InLockdown (s.fail E t).regs := by
  unfold State.fail
  exact .ite (.ite h.csMark.failPair h.csMark.raiseTrap) h.raiseTrap

theorem leaveWait {n k : Nat} (h : InLockdown s.regs) : InLockdown (s.leaveWait n k).regs := by
  dsimp only [State.leaveWait]
  split
  · exact h.setCtx
  · exact h.setCtx
  · exact h

theorem switchTo {n k : Nat} (h : InLockdown s.regs) : InLockdown (s.switchTo n k).regs := h.setCore.whenNot (·.refill)

theorem waitFault {E : Env} (h : InLockdown s.regs) : InLockdown (s.waitFault E).regs := by
  dsimp only [State.waitFault]
  split
  · exact h
  · exact h.whenNot (·.leaveWait.switchTo.fail)

theorem issue {hd : Hdr} {d : InsDef} (h : InLockdown s.regs) : Stays (issue hd d s) := by
  unfold Machine.issue
  refine .ite trivial ?_
  extract_lets E
  rw [h.start_eq]
  exact h

theorem repCount {E : Env} {m : Nat} (h : InLockdown s.regs) : InLockdown (s.repCount E m).regs := h.setCtx

theorem elementDone {E : Env} {before m : Nat} (h : InLockdown s.regs) : InLockdown (s.elementDone E before m).regs := by
  unfold State.elementDone
  generalize e : s.repCount E m = u
  have counted : InLockdown u.regs := e ▸ h.repCount
  exact .ite counted.complete counted

theorem issueRep {hd : Hdr} {d : InsDef} {took : Env → State → Nat} (h : InLockdown s.regs) : Stays (issueRep hd d took s) := by
  unfold Machine.issueRep
  refine .ite trivial ?_
  extract_lets E
  rw [h.start_eq]
  exact h

/-! ### The divider -/

theorem execDividerResult {core : Nat} (h : InLockdown s.regs) : Stays (execDividerResult core s) :=
  .ite trivial (.ite (.next h.setCore) h)

/-! ### Boot and images -/

theorem execSelftest {failed : List (Nat × Nat)} (h : InLockdown s.regs) : Stays (execSelftest failed s) :=
  .ite trivial (.pos (.inl h.mode_ne) h)

theorem execConfigure (h : InLockdown s.regs) : Stays (execConfigure s) := .pos (.inl h.mode_ne) h

theorem stageOk (h : InLockdown s.regs) : InLockdown s.stageOk.2.regs := by
  unfold State.stageOk
  refine .ite_snd h ?_
  split
  · next e => exact h.ridgeAll.snd e
  · next e =>
    have read := h.ridgeAll.snd e
    exact .ite_snd read read.ridgeAll

theorem execCheckComplete (h : InLockdown s.regs) : Stays (execCheckComplete s) := by
  refine .ite h (.neg h.mode_ne ?_)
  rcases e : s.stageOk with ⟨ok, u⟩
  exact .next (h.stageOk.snd e).imgResult.setRf.setRf.report

theorem execSliceQuiesced (h : InLockdown s.regs) : Stays (execSliceQuiesced s) := .pos (.inl h.mode_ne) h

theorem execQuiesceTimeout (h : InLockdown s.regs) : Stays (execQuiesceTimeout s) := by
  unfold Machine.execQuiesceTimeout
  split
  · exact h
  · exact .pos (.inl h.mode_ne) h

/-! ### System registers and the copy -/

theorem hwSr {E : Env} {num : Nat} {v : Word} (h : InLockdown s.regs) : InLockdown (s.hwSr E num v).regs := h.setCtx

theorem progressEnd {E : Env} (h : InLockdown s.regs) : InLockdown (s.progressEnd E).regs := h.whenNot (·.hwSr)

theorem execCpyt {hd : Hdr} {rep : Bool} {cs cb : Nat} (h : InLockdown s.regs) : Stays (execCpyt hd rep cs cb s) :=
  .ite h.issueRep h.issue

/-! ### Capability results -/

theorem hwCap {E : Env} {c : Nat} {v : Cap} (h : InLockdown s.regs) : InLockdown (s.hwCap E c v).regs := h.setCtx

/-! ### Cross calls -/

theorem crossTimedOut {E : Env} {q : Nat} (h : InLockdown s.regs) : InLockdown (s.crossTimedOut E q).regs :=
  h.addRf.whenNot (·.hwSr)

theorem execCrossServiceStart {q : Nat} (h : InLockdown s.regs) : Stays (execCrossServiceStart q s) :=
  .ite trivial (.pos (by simp [h.serving]) h)

theorem execCrossTimeout {n k : Nat} (h : InLockdown s.regs) : Stays (execCrossTimeout n k s) := by
  dsimp only [Machine.execCrossTimeout]
  refine .ite trivial ?_
  split
  · exact .ite h (.next (.fail ((h.whenNot (·.advanceTo)).setCtx.when (·.wake)).crossTimedOut))
  · exact h

/-! ### Boundaries -/

theorem endWait {n k : Nat} (h : InLockdown s.regs) : InLockdown (s.endWait n k).regs := h.setCtx

/-! ### Handlers -/

theorem execHandlerStart (h : InLockdown s.regs) : Stays (execHandlerStart s) := .pos (by simp [h.ingOn]) h

theorem execDeadline {slot : Nat} (h : InLockdown s.regs) : Stays (execDeadline slot s) := by
  dsimp only [Machine.execDeadline]
  split
  · exact h
  · exact .ite h (.next (.endFrame h))

theorem canAbort {n k : Nat} (h : InLockdown s.regs) : (!s.canAbort n k) = true := by simp [State.canAbort, h.canIssue]

theorem execAbortRedispatch {n k : Nat} (h : InLockdown s.regs) : Stays (execAbortRedispatch n k s) :=
  .ite trivial (.pos h.canAbort h)

theorem execAbortEnd {n k : Nat} (h : InLockdown s.regs) : Stays (execAbortEnd n k s) := .ite trivial (.pos h.canAbort h)

theorem execAbortRelease {n k : Nat} (h : InLockdown s.regs) : Stays (execAbortRelease n k s) := .ite trivial (.pos h.canAbort h)

theorem takeWatchdog_eq {n k : Nat} (h : InLockdown s.regs) : takeWatchdog s n k = none := by
  unfold takeWatchdog
  rw [h.maReady]
  rfl

theorem watchdogFires {n k : Nat} (h : InLockdown s.regs) : InLockdown (s.watchdogFires n k).regs :=
  h.discardTx.setCtx.setCore.holdCheck

theorem execHandlerWatchdog {n k : Nat} (h : InLockdown s.regs) : Stays (execHandlerWatchdog n k s) := by
  unfold Machine.execHandlerWatchdog
  rw [h.takeWatchdog_eq]
  refine .ite trivial ?_
  dsimp only
  split
  · next t _ =>
    have fired : InLockdown ((s.advanceTo t).watchdogFires n k).regs := h.advanceTo.watchdogFires
    rw [fired.takeWatchdog_eq]
    exact .next fired
  · exact h

/-! ### The end of a key command -/

theorem kcmdEnd {E : Env} {gd : Nat} {v : Word} (h : InLockdown s.regs) : InLockdown (kcmdEnd s E gd v).regs :=
  h.wrG.progressEnd.setCtx

/-! ### Key commands -/

theorem kOutput {c : KCmd} {a : KAns} (h : InLockdown s.regs) : InLockdown (kOutput s c a).regs := by
  dsimp only [Machine.kOutput]
  split
  · exact h
  · exact h.foldl (·.writeOps)
  · exact h.perform.whenNot (·.lateStore)

theorem execKcmdStatus (h : InLockdown s.regs) : Stays (execKcmdStatus s) := by
  dsimp only [Machine.execKcmdStatus]
  split
  · exact h
  · refine .ite (.next (.kOutput h)) ?_
    split
    · exact .ite (.next (.complete (.kcmdEnd (.kOutput h)))) (.next (.setCtx (.kOutput h)))
    · exact .next (.setCtx (.kOutput h))

theorem kStep {code : Nat} {w : Bool} {flaw : Nat} (h : InLockdown s.regs) : Stays (kStep code w flaw s) :=
  .ite trivial (.pos (by simp [h.keyOn]) h)

theorem execDrbgReseed {w : Bool} (h : InLockdown s.regs) : Stays (execDrbgReseed w s) := .pos (.inr h.mode) h

theorem execEntropyHealthFail {i : Nat} (h : InLockdown s.regs) : Stays (execEntropyHealthFail i s) :=
  .ite trivial (.ite h (.next h.entropyFail.raise))

/-! ### Repeated instructions -/

theorem execRepElement {hd : Hdr} {i : Instr} (h : InLockdown s.regs) : Stays (execRepElement hd i s) := by
  unfold Machine.execRepElement
  refine .ite trivial ?_
  split
  · exact .ite h.issueRep trivial
  · split
    · exact .ite h.issueRep trivial
    · trivial

/-! ### The fabric -/

theorem pktDrop {l : Nat} (h : InLockdown s.regs) : InLockdown (s.pktDrop l).regs := h.when (·.linkReport)

theorem takePkt {l : Nat} {p : Pkt} {u : State} (h : InLockdown s.regs) (e : s.takePkt l p = some u) : InLockdown u.regs := by
  unfold State.takePkt at e
  split at e
  · refine someIf ?_ e
    exact h
  · exact someIf h.setLink e

theorem forward {l : Nat} {p : Pkt} (h : InLockdown s.regs) : InLockdown (s.forward l p).regs := by
  dsimp only [State.forward]
  refine .ite h.pktDrop ?_
  split
  · exact h.pktDrop
  · exact h.emit

theorem fabricRow {typ l : Nat} {p : Pkt} {run : State → Host.Outcome State Fault Refusal} (h : InLockdown s.regs)
    (hrun : ∀ {u}, InLockdown u.regs → Stays (run u)) : Stays (fabricRow typ l p s run) := by
  unfold Machine.fabricRow
  refine .ite trivial ?_
  split
  · exact h
  · next e =>
    have taken := (h.takePkt e).answerLost
    exact .ite taken.pktDrop (.ite taken.forward (hrun taken))

theorem execPacketForward {l : Nat} {p : Pkt} (h : InLockdown s.regs) : Stays (execPacketForward l p s) := by
  dsimp only [Machine.execPacketForward]
  refine .ite trivial ?_
  split
  · exact h
  · next e => exact .ite (.next (h.takePkt e).pktDrop) (.ite h (.next (h.takePkt e).forward))

theorem ownerPa {p : Pkt} {store : Bool} (h : InLockdown s.regs) : InLockdown (ownerPa s p store).2.regs := by
  dsimp only [Machine.ownerPa]
  refine .ite_snd (.ite_snd h (.ite_snd h (.ite_snd h h))) ?_
  split
  · next e => exact h.walk.snd e
  · next e => exact h.walk.snd e
  · next e =>
    have walked := h.walk.snd e
    exact .ite_snd walked (.ite_snd walked.raise (.ite_snd walked (.ite_snd walked.raise walked)))

theorem ridgeRemote {write : Bool} {pa src plot : Nat} (h : InLockdown s.regs) :
    InLockdown (s.ridgeRemote write pa src plot).2.regs := by
  dsimp only [State.ridgeRemote]
  split
  · exact .rdgDeny (.ite_snd h h.draw)
  · exact .plotHitBy (.ite (.heatHit (.ite_snd h h.draw)) (.ite_snd h h.draw))

theorem ownerAccess {p : Pkt} {store : Bool} (h : InLockdown s.regs) : InLockdown (ownerAccess s p store).2.regs := by
  unfold Machine.ownerAccess
  split
  · next e => exact h.ownerPa.snd e
  · next e =>
    have known := h.ownerPa.snd e
    split
    · next e => exact known.ridgeRemote.snd e
    · next e => exact known.ridgeRemote.snd e

theorem answerData {p : Pkt} {bs : List Byte} {tags : List Nat} (h : InLockdown s.regs) :
    InLockdown (s.answerData p bs tags).regs :=
  h.sendOwn

theorem answerAck {p : Pkt} {ok : Bool} (h : InLockdown s.regs) : InLockdown (s.answerAck p ok).regs := h.sendOwn

theorem deny {p : Pkt} {d : Denial} (h : InLockdown s.regs) : InLockdown (s.deny p d).regs := h.nack

theorem denyOrHold {l : Nat} {p : Pkt} {d : Denial} (h : InLockdown s.regs) : InLockdown (s.denyOrHold l p d).regs := by
  unfold State.denyOrHold
  exact .ite h h.deny

theorem serveLoad {l : Nat} {p : Pkt} (h : InLockdown s.regs) : InLockdown (serveLoad s l p).regs := by
  unfold Machine.serveLoad
  rcases e : Machine.ownerAccess s p false with ⟨d | pa, u⟩
  · exact (h.ownerAccess.snd e).denyOrHold
  · have asked : InLockdown u.regs := h.ownerAccess.snd e
    refine .ite (.ite asked.deny (.ite ?_ asked.deny)) (.ite asked.deny (.ite (.ite asked.deny asked.answerData) (.ite ?_ ?_)))
    · rcases e : Machine.readPa u (.master mFAB 0) pa with ⟨v, w⟩
      exact (asked.readPa.snd e).answerData
    · extract_lets lo hi
      split
      · exact asked.deny
      · exact asked.answerData
    · split
      · exact asked.deny
      · exact asked.answerData

theorem serveStore {l : Nat} {p : Pkt} (h : InLockdown s.regs) : InLockdown (serveStore s l p).regs := by
  unfold Machine.serveStore
  rcases e : Machine.ownerAccess s p true with ⟨d | pa, u⟩
  · exact (h.ownerAccess.snd e).denyOrHold
  · have asked : InLockdown u.regs := h.ownerAccess.snd e
    refine .ite (.ite asked.deny (.ite ?_ asked.deny)) (.ite asked.deny ?_)
    · split
      · next e => exact (asked.writePa e).answerAck
      · exact asked.deny
    · extract_lets ops bad
      clear_value bad
      split
      · exact asked.deny
      · exact asked.writeOps.answerAck

theorem servePass {l : Nat} {p : Pkt} (h : InLockdown s.regs) : InLockdown (servePass s l p).regs := by
  unfold Machine.servePass
  exact .ite h.deny h

theorem serveRequest {l : Nat} {p : Pkt} (h : InLockdown s.regs) : InLockdown (serveRequest s l p).regs := by
  unfold Machine.serveRequest
  exact .ite h (.ite h.nack (.ite h.serveLoad (.ite h.serveStore h.servePass)))

theorem execLoadPacket {l : Nat} {p : Pkt} (h : InLockdown s.regs) : Stays (execLoadPacket l p s) :=
  h.fabricRow fun h => .next (.ite h.pktDrop h.serveRequest)

theorem execStorePacket {l : Nat} {p : Pkt} (h : InLockdown s.regs) : Stays (execStorePacket l p s) :=
  h.fabricRow fun h => .next (.ite h.pktDrop h.serveRequest)

theorem execPassPacket {l : Nat} {p : Pkt} (h : InLockdown s.regs) : Stays (execPassPacket l p s) :=
  h.fabricRow fun h => .next (.ite h.pktDrop h.serveRequest)

theorem heldEnds {d : Option Denial} (h : InLockdown s.regs) : InLockdown (s.heldEnds d).regs := by
  dsimp only [State.heldEnds]
  split
  · exact h
  · split
    · exact .deny h
    · exact .serveRequest h

theorem heldReread (h : InLockdown s.regs) : InLockdown s.heldReread.regs := by
  dsimp only [State.heldReread]
  split
  · exact h
  · refine .ite h ?_
    split
    · next e => exact (h.advanceTo.probe.snd e).heldEnds
    · next e => exact (h.advanceTo.probe.snd e).whenNot (·.heldEnds)

theorem heldTimeout (h : InLockdown s.regs) : InLockdown s.heldTimeout.regs := by
  dsimp only [State.heldTimeout]
  split
  · exact h
  · split
    · next e => exact (h.advanceTo.probe.snd e).heldEnds
    · next e => exact (h.advanceTo.probe.snd e).heldEnds

theorem execMvReread {n k : Nat} (h : InLockdown s.regs) : Stays (execMvReread n k s) := by
  dsimp only [Machine.execMvReread]
  refine .ite trivial (.ite (.next h.heldReread) ?_)
  split
  · refine .ite h ?_
    split
    · next e => exact .next (h.advanceTo.probe.snd e).endWait.fail
    · next e => exact .next ((h.advanceTo.probe.snd e).whenNot (·.endWait))
  · exact h

theorem execMvWaitTimeout {n k : Nat} (h : InLockdown s.regs) : Stays (execMvWaitTimeout n k s) := by
  dsimp only [Machine.execMvWaitTimeout]
  refine .ite trivial (.ite (.next h.heldTimeout) ?_)
  split
  · refine .next ?_
    split
    · next e => exact (h.advanceTo.probe.snd e).endWait.fail
    · next e => exact (h.advanceTo.probe.snd e).endWait.when (·.fail)
  · exact h

theorem execRemotePassServiceStart (h : InLockdown s.regs) : Stays (execRemotePassServiceStart s) := by
  unfold Machine.execRemotePassServiceStart
  split
  · exact h
  · exact .pos (by simp [h.serving]) h

theorem replaceReq {awaited : Bool} {old new : RemoteReq} (h : InLockdown s.regs) :
    InLockdown (s.replaceReq awaited old new).regs := by
  unfold State.replaceReq
  exact .ite h.setCtx h

theorem endReq {awaited : Bool} {r : RemoteReq} (h : InLockdown s.regs) : InLockdown (s.endReq awaited r).regs := by
  unfold State.endReq
  exact .ite h.endWait h

theorem failReq {awaited : Bool} {r : RemoteReq} {t : Trap} (h : InLockdown s.regs) :
    InLockdown (s.failReq awaited r t).regs :=
  .ite h.endReq.fail h.endReq.raise

theorem postNext {n k addr fuel : Nat} (h : InLockdown s.regs) : InLockdown (s.postNext n k addr fuel).regs := by
  induction fuel generalizing s with
  | zero => exact h
  | succ fuel ih =>
    dsimp only [State.postNext]
    split
    · exact h
    · refine .ite (.ite (ih h) h) ?_
      split
      · next e =>
        have sent := snd e (.send (.newReq h))
        exact ih (.ite sent.endWait.fail sent.raise)
      · next e =>
        have sent := snd e (.send (.newReq h))
        exact .ite sent.setCtx sent

theorem answered {r : RemoteReq} (h : InLockdown s.regs) : InLockdown (s.answered r).regs := h.postNext

theorem resend {awaited : Bool} {r : RemoteReq} {node : Nat} (h : InLockdown s.regs) :
    InLockdown (s.resend awaited r node).regs := by
  dsimp only [State.resend]
  refine .ite h.failReq.answered ?_
  split
  · next e => exact (h.newReq.send.snd e).failReq.answered
  · next e => exact (h.newReq.send.snd e).replaceReq

theorem askAgain {awaited : Bool} {r : RemoteReq} (h : InLockdown s.regs) : InLockdown (s.askAgain awaited r).regs := by
  dsimp only [State.askAgain]
  split
  · next e => exact (h.newReq.send.snd e).failReq.answered
  · next e => exact (h.newReq.send.snd e).replaceReq

theorem completeReq {r : RemoteReq} {before : Nat} (h : InLockdown s.regs) : InLockdown (s.completeReq r before).regs :=
  .ite h.elementDone h.complete

theorem reqWriteBack {r : RemoteReq} (h : InLockdown s.regs) : InLockdown (s.reqWriteBack r).regs := by
  dsimp only [State.reqWriteBack]
  split
  · exact h
  · exact h.wrC

theorem execDataPacket {l : Nat} {p : Pkt} (h : InLockdown s.regs) : Stays (execDataPacket l p s) := by
  dsimp only [Machine.execDataPacket]
  refine h.fabricRow fun h => ?_
  split
  · refine .ite h (.next (.answered (.completeReq (.reqWriteBack ?_))))
    split
    · exact h.endReq.wrG
    · exact h.endReq.wrG
    · exact h.endReq.wrC
  · exact h

theorem ackStore {awaited : Bool} {r : RemoteReq} (h : InLockdown s.regs) : InLockdown (ackStore s awaited r).regs :=
  (h.endReq.when (·.reqWriteBack.completeReq)).answered

theorem passReturn {E : Env} {caps : List Cap} {regs : List Word} (h : InLockdown s.regs) :
    InLockdown (s.passReturn E caps regs).regs :=
  (h.setCtx.foldl (·.setGloc)).foldl (·.hwCap)

theorem execPassreply {l : Nat} {p : Pkt} (h : InLockdown s.regs) : Stays (execPassreply l p s) := by
  dsimp only [Machine.execPassreply]
  refine h.fabricRow fun h => ?_
  split
  · exact h
  · exact .ite h (.next (h.endReq.when (·.passReturn.complete)).answered)

theorem execLookreply {l : Nat} {p : Pkt} (h : InLockdown s.regs) : Stays (execLookreply l p s) := by
  dsimp only [Machine.execLookreply]
  refine h.fabricRow fun h => ?_
  split
  · exact .ite (.next h.plotLearn.endWait) (.next h.endWait.fail)
  · split
    · exact h
    · exact .ite h (.ite (.next h.plotLearn.resend) (.next h.failReq.answered))

theorem nackReq {awaited : Bool} {r : RemoteReq} {p : Pkt} (h : InLockdown s.regs) :
    InLockdown (nackReq s awaited r p).regs :=
  .ite (.ite (.ite h.addRf.plotLearn.endReq.answered h.addRf.plotLearn.resend)
    (.ite h.addRf.plotForget.failReq.answered h.addRf.plotForget.askAgain)) h.failReq.answered

theorem execFrame {l : Nat} {p : Pkt} (h : InLockdown s.regs) : Stays (execFrame l p s) :=
  h.fabricRow fun h => .ite (.next h.pktDrop) (.ite h (.next h.land))

theorem execFresp {l : Nat} {p : Pkt} (h : InLockdown s.regs) : Stays (execFresp l p s) := h.fabricRow fun h => h

theorem execPhysrd {l : Nat} {p : Pkt} (h : InLockdown s.regs) : Stays (execPhysrd l p s) := by
  refine h.fabricRow fun {u} h => .ite (.next h.pktDrop) ?_
  rcases e : u.ridge mFAB 0 false p.addr with ⟨_ | pa, v⟩
  · exact .next (h.ridge.snd e).deny
  · have taken : InLockdown v.regs := h.ridge.snd e
    refine .ite (.ite ?_ (.next taken.deny)) (.ite (.next taken.deny) (.ite (.next taken.deny) (.next taken.answerData)))
    rcases e : Machine.readPa v (.master mFAB 0) p.addr with ⟨w, x⟩
    exact .next (taken.readPa.snd e).answerData

theorem execPhyswr {l : Nat} {p : Pkt} (h : InLockdown s.regs) : Stays (execPhyswr l p s) := by
  refine h.fabricRow fun {u} h => .ite (.next h.pktDrop) ?_
  rcases e : u.ridge mFAB 0 true p.addr with ⟨_ | pa, v⟩
  · exact .next (h.ridge.snd e).deny
  · have taken : InLockdown v.regs := h.ridge.snd e
    generalize dataOps = ops
    refine .ite (.ite ?_ (.next taken.deny)) (.ite (.next taken.deny) (.next (.ite (.answerAck ?_) (.deny ?_))))
    · split
      · next e => exact .next (taken.writePa e).answerAck
      · exact .next taken.deny
    · exact .foldlPair taken fun h => .ite h h
    · exact .foldlPair taken fun h => .ite h h

/-! ### The estate -/

theorem execLookup {l : Nat} {p : Pkt} (h : InLockdown s.regs) : Stays (execLookup l p s) := h.fabricRow fun h => .next h.sendOwn

theorem setRegistrar {plot : Nat} {e : Option RegEntry} (h : InLockdown s.regs) : InLockdown (s.setRegistrar plot e).regs := h

/-- The backup registrar is told, or the answer goes at once. -/
theorem backupTold {r : Nat × State} {b arg plot : Nat} {ans : Pkt} (asked : InLockdown r.2.regs) :
    InLockdown (match r with
      | (id, s) =>
        match s.send (s.mkPkt pkREG b id arg (plot * 2 ^ 21) [] []) with
        | (none, s) => s.sendOwn ans
        | (some l, s) =>
          { s with fab := { s.fab with regWait := s.fab.regWait ++ [(⟨id, s.now + s.rtmo, l, ans⟩ : RegWait)] } }).regs := by
  obtain ⟨id, u⟩ := r
  dsimp only at asked ⊢
  split
  · next e => exact (asked.send.snd e).sendOwn
  · next e =>
    have sent := asked.send.snd e
    exact sent

theorem regChange {plot : Nat} {e : Option RegEntry} {ans : Pkt} (h : InLockdown s.regs) :
    InLockdown (s.regChange plot e ans).regs := by
  unfold State.regChange
  extract_lets changed b arg
  have known : InLockdown changed.regs := h.setRegistrar
  exact .ite known.sendOwn (backupTold known.newReq)

theorem regServe {p : Pkt} (h : InLockdown s.regs) : InLockdown (regServe s p).regs := by
  dsimp only [Machine.regServe]
  refine .ite ?_ ?_
  · split
    · exact h.nack
    · exact .ite h.sendOwn h.regChange
  · split
    · exact h.nack
    · exact .ite h.nack (.ite h.regChange h.regChange)

theorem regMirror {p : Pkt} (h : InLockdown s.regs) : InLockdown (regMirror s p).regs := h.setRegistrar.answerAck

theorem execReg {l : Nat} {p : Pkt} (h : InLockdown s.regs) : Stays (execReg l p s) :=
  h.fabricRow fun h => .next (.ite h.pktDrop (.ite h.regMirror h.regServe))

theorem regAnswer {ws : List RegWait} (h : InLockdown s.regs) : InLockdown (s.regAnswer ws).regs := by
  unfold State.regAnswer
  exact .foldl h (·.sendOwn)

theorem claimDone {c : Claim} (h : InLockdown s.regs) : InLockdown (s.claimDone c).regs := by
  unfold State.claimDone
  exact .claimEnd (.ite (.plotLearn h) (.tlbDropPlot (.plotForget h)))

theorem claimNack {p : Pkt} (h : InLockdown s.regs) : InLockdown (s.claimNack p).regs :=
  .ite h.claimEnd (.ite h.claimEnd h.claimEnd)

theorem setMigOut {m : Option MigOut} (h : InLockdown s.regs) : InLockdown (s.setMigOut m).regs := h

theorem execPlotMigration (h : InLockdown s.regs) : Stays (execPlotMigration s) := by
  unfold Machine.execPlotMigration
  split
  · exact h
  · exact .pos h.serving h

theorem migFail {m : MigOut} (h : InLockdown s.regs) : InLockdown (s.migFail m).regs :=
  .report (.foldl (.ite (h.setMigOut.foldl (·.setMv)) h.setMigOut) (·.serveRequest))

/-- A part of a page on its way, with whether all the parts before it left. -/
theorem sendPart {c : Bool × State} {p : Pkt} (h : InLockdown c.2.regs) :
    InLockdown (match c.2.send p with
      | (none, s) => (false, s)
      | (some _, s) => (c.1, s)).2.regs := by
  split
  · next e => exact h.send.snd e
  · next e => exact h.send.snd e

theorem migSend {m : MigOut} (h : InLockdown s.regs) : InLockdown (s.migSend m).regs := by
  unfold State.migSend
  extract_lets pages vpns marked drained moving
  have known : InLockdown drained.regs := .drainAll (.foldl (.foldl h (·.setMv)) (·.tlbDropEvery))
  have allowed : InLockdown (drained.newReq.2.ridgeAll mFAB (pages.flatMap fun e =>
      ((drained.newReq.2.tableBase + 32 * e.2) :: linesFrom (e.2 * 2 ^ 14) (2 ^ 14)).map fun a => (false, a))).2.regs :=
    .ridgeAll known.newReq
  refine .ite h.migFail (.ite known.migFail (.ite (migFail allowed) (.ite (.setMigOut ?_) (.migFail ?_))))
  · exact .foldlPair allowed (·.sendPart)
  · exact .foldlPair allowed (·.sendPart)

theorem migUpdate {m : MigOut} (h : InLockdown s.regs) : InLockdown (s.migUpdate m).regs := by
  dsimp only [State.migUpdate]
  split
  · next e => exact (h.newReq.send.snd e).migFail
  · next e => exact (h.newReq.send.snd e).setMigOut

theorem dropPage {i : Nat} (h : InLockdown s.regs) : InLockdown (s.dropPage i).regs :=
  .ite h.setEntry h.repoint.setEntry.setEntry.setEntry.clearFrame.poolFrame

theorem migFinish {m : MigOut} (h : InLockdown s.regs) : InLockdown (s.migFinish m).regs := by
  unfold State.migFinish
  exact .report (.foldl (.plotLearn (.tlbDropPlot (.foldl h (·.dropPage)))) (·.nack))

theorem migAnswer {m : MigOut} {yes : Bool} (h : InLockdown s.regs) : InLockdown (s.migAnswer m yes).regs :=
  .ite h.migFail (.ite h.migSend (.ite h.migUpdate h.migFinish))

theorem takeFrames {n : Nat} (h : InLockdown s.regs) : InLockdown (s.takeFrames n).2.regs := by
  induction n generalizing s with
  | zero => exact h
  | succ n ih => exact ih h.draw.setPool

theorem execOffer {l : Nat} {p : Pkt} (h : InLockdown s.regs) : Stays (execOffer l p s) := by
  unfold Machine.execOffer
  exact h.fabricRow fun h => .ite (.next h.answerAck) (.next (.answerAck h.takeFrames))

theorem mapPage {f vpn w0 w3 : Nat} (h : InLockdown s.regs) : InLockdown (s.mapPage f vpn w0 w3).regs :=
  .ite h.setEntry.setEntry.setEntry.setEntry h.setEntry.setEntry.setEntry.setEntry

theorem writePart {a : Nat} {p : Pkt} (h : InLockdown s.regs) : InLockdown (s.writePart a p).regs := by
  unfold State.writePart
  exact .foldl h (·.lineWritten)

theorem migGiveUp {m : MigIn} (h : InLockdown s.regs) : InLockdown (s.migGiveUp m).regs := by
  unfold State.migGiveUp
  exact .foldl (.foldl h (·.dropPage)) (·.clearFrame.poolFrame)

theorem migArrived {m : MigIn} {p : Pkt} (h : InLockdown s.regs) : InLockdown (migArrived s m p).regs := by
  unfold Machine.migArrived
  exact .ite h (.report (.answerAck (.plotLearn h)))

theorem partAdmitted {f part b : Nat} (h : InLockdown s.regs) : InLockdown (s.partAdmitted f part b).2.regs := h.ridgeAll

theorem execMdata {l : Nat} {p : Pkt} (h : InLockdown s.regs) : Stays (execMdata l p s) := by
  dsimp only [Machine.execMdata]
  refine h.fabricRow fun h => ?_
  split
  · exact h
  · refine .ite h (.ite (.next h.pktDrop) ?_)
    split
    · next e => exact .next (h.partAdmitted.snd e)
    · next e =>
      have admitted := h.partAdmitted.snd e
      exact .ite (.next admitted.writePart.migArrived) (.ite (.next admitted) (.next admitted.mapPage.migArrived))

theorem execAckPacket {l : Nat} {p : Pkt} (h : InLockdown s.regs) : Stays (execAckPacket l p s) := by
  dsimp only [Machine.execAckPacket]
  refine h.fabricRow fun h => ?_
  split
  · exact .next (h.whenNot (·.ackStore))
  · split
    · exact .next h.regAnswer
    · split
      · exact .next (.ite h.claimDone h.claimEnd)
      · exact .next h.migAnswer
      · exact h

theorem execNack {l : Nat} {p : Pkt} (h : InLockdown s.regs) : Stays (execNack l p s) := by
  dsimp only [Machine.execNack]
  refine h.fabricRow fun h => ?_
  split
  · exact .next (h.whenNot (·.nackReq))
  · split
    · exact .next h.claimNack
    · exact .next h.migFail
    · exact h

theorem endRequestsTo {n : Nat} (h : InLockdown s.regs) : InLockdown (s.endRequestsTo n).regs := by
  dsimp only [State.endRequestsTo]
  refine h.foldl fun h => ?_
  split
  · exact h.when (·.failReq)
  · exact h.when (·.endWait.fail)
  · exact h

theorem dropPostedTo {n : Nat} (h : InLockdown s.regs) : InLockdown (s.dropPostedTo n).regs := by
  unfold State.dropPostedTo
  exact .foldl h (·.raise.answered)

theorem endMovesWith {n : Nat} (h : InLockdown s.regs) : InLockdown (s.endMovesWith n).regs := by
  unfold State.endMovesWith
  extract_lets out inn
  have hout : InLockdown out.regs := by
    unfold out
    split
    · exact .ite (h.when (·.migUpdate)) (h.when (·.migFail))
    · exact h
  have hin : InLockdown inn.regs := by
    unfold inn
    split
    · exact hout.when (·.migGiveUp)
    · exact hout
  split
  · exact hin.when (·.claimEnd)
  · exact hin

theorem loseNode {n : Nat} (h : InLockdown s.regs) : InLockdown (s.loseNode n).regs := by
  unfold State.loseNode
  refine .ite (.foldl (.ite (.regAnswer ?_) ?_) (·.tlbDropPlot)) (.ite (.regAnswer ?_) ?_)
  all_goals exact .endMovesWith (.dropPostedTo (.endRequestsTo h))

theorem takeLost {n inc : Nat} {from' : Option Nat} (h : InLockdown s.regs) : InLockdown (s.takeLost n inc from').regs := by
  unfold State.takeLost
  exact .notify (.loseNode h)

theorem execLost {l : Nat} {p : Pkt} (h : InLockdown s.regs) : Stays (execLost l p s) :=
  h.fabricRow fun h => .ite (.next h.pktDrop) (.ite h (.next (.ite h.takeLost.linkReport h.takeLost)))

theorem execJoin {l : Nat} {p : Pkt} (h : InLockdown s.regs) : Stays (execJoin l p s) := by
  dsimp only [Machine.execJoin]
  refine h.fabricRow fun h => ?_
  refine .ite (.next h.pktDrop) (.ite h (.next ?_))
  refine .ite ?_ ?_
  · refine .linkReport (.notify ?_)
    split
    · exact h.loseNode
    · exact h
  · refine .notify ?_
    split
    · exact h.loseNode
    · exact h

theorem execEcho {l : Nat} {p : Pkt} (h : InLockdown s.regs) : Stays (execEcho l p s) := by
  unfold Machine.execEcho
  exact h.fabricRow fun h => .next (.ite h.sendOwn h)

theorem execEchoTimeout {n : Nat} (h : InLockdown s.regs) : Stays (execEchoTimeout n s) := by
  dsimp only [Machine.execEchoTimeout]
  refine .ite trivial ?_
  split
  · exact h
  · split
    · exact .next (.advanceTo h)
    · exact .next (.takeLost (.advanceTo h))
    · exact .next (.takeLost (.advanceTo h))

theorem timedOut {l : Nat} (h : InLockdown s.regs) : InLockdown (s.timedOut l).regs := h.when (·.linkReport)

theorem execRemoteTimeout {id : Nat} (h : InLockdown s.regs) : Stays (execRemoteTimeout id s) := by
  dsimp only [Machine.execRemoteTimeout]
  refine .ite trivial (.ite ?_ ?_)
  · split
    · exact .next h.advanceTo.migGiveUp
    · exact h
  · split
    · exact .next h.advanceTo.timedOut.failReq.answered
    · exact .next h.advanceTo.timedOut.endWait.fail
    · split
      · exact .next h.advanceTo.claimEnd
      · exact .next h.advanceTo.migFail
      · exact .next (.advanceTo h)
      · exact h

theorem execPlotCacheExpiry {plot : Nat} (h : InLockdown s.regs) : Stays (execPlotCacheExpiry plot s) := by
  dsimp only [Machine.execPlotCacheExpiry]
  refine .ite trivial ?_
  split
  · exact h
  · exact .next h.advanceTo.plotForget

theorem execForwardingExpiry {plot : Nat} (h : InLockdown s.regs) : Stays (execForwardingExpiry plot s) := by
  dsimp only [Machine.execForwardingExpiry]
  refine .ite trivial ?_
  split
  · exact h
  · exact .next (.advanceTo h)

/-! ### Events -/

theorem execInterruptReport {n : Nat} (h : InLockdown s.regs) : Stays (execInterruptReport n s) := .ite trivial (.next h.report)

theorem execHoldEnd {n : Nat} (h : InLockdown s.regs) : Stays (execHoldEnd n s) :=
  .ite trivial (.ite h (.next h.advanceTo.holdEnd))

theorem execInterruptAccept {n k : Nat} (h : InLockdown s.regs) : Stays (execInterruptAccept n k s) := by
  unfold Machine.execInterruptAccept
  rw [h.acceptableSource]
  exact .ite trivial h

theorem execTimerCompare {k : Nat} (h : InLockdown s.regs) : Stays (execTimerCompare k s) :=
  .ite trivial (.ite h (.next h.advanceTo.timerFire))

theorem execMasklimitExpiry {n : Nat} (h : InLockdown s.regs) : Stays (execMasklimitExpiry n s) := by
  unfold Machine.execMasklimitExpiry
  refine .ite trivial ?_
  split
  · exact h
  · exact .neg (by simp [h.coreRuns]) h

theorem execBuserrAsync {n k : Nat} (h : InLockdown s.regs) : Stays (execBuserrAsync n k s) := by
  unfold Machine.execBuserrAsync
  rw [h.maReady]
  exact .ite trivial h

theorem execFarDataArrival {n : Nat} (h : InLockdown s.regs) : Stays (execFarDataArrival n s) :=
  .ite trivial (.ite (.next h.sendFar.setCore) h)

theorem execPrefetchRead {n : Nat} (h : InLockdown s.regs) : Stays (execPrefetchRead n s) :=
  .ite trivial (.pos (.inr (.inl h.coreRuns)) h)

theorem execStoreBufferWrite {n : Nat} (h : InLockdown s.regs) : Stays (execStoreBufferWrite n s) := by
  dsimp only [Machine.execStoreBufferWrite]
  refine .ite trivial (.ite h ?_)
  split
  · exact h
  · exact .next (h.drainOne.whenNot (·.portUsed))

theorem execTcmWriteFromOutside {n pa data mask : Nat} (h : InLockdown s.regs) :
    Stays (execTcmWriteFromOutside n pa data mask s) :=
  .ite trivial (.ite h (.next (h.when (·.setMemOf.lineWritten))))

theorem execCsParityCorrection {core micro nano : Nat} {isNano both : Bool} {routine : Nat} (h : InLockdown s.regs) :
    Stays (execCsParityCorrection core micro nano isNano both routine s) :=
  .ite trivial (.ite h (.ite (.next (h.setCore.foldl (·.waitFault))) (.next h.satRf.raise)))

theorem execMcsLoadComplete {readback : Bool} (h : InLockdown s.regs) : Stays (execMcsLoadComplete readback s) :=
  .ite h (.next h.csLoad.setRf.setRf)

theorem execPairSelfTest {p : Nat} {pass : Bool} (h : InLockdown s.regs) : Stays (execPairSelfTest p pass s) := by
  dsimp only [Machine.execPairSelfTest]
  refine .ite trivial ?_
  split
  · exact h
  · exact .ite h (.next (.ite (.ite (.csAgain h) h) (.raise h)))

theorem execPairTcmReload {p : Nat} (h : InLockdown s.regs) : Stays (execPairTcmReload p s) := by
  dsimp only [Machine.execPairTcmReload]
  refine .ite trivial ?_
  split
  · exact h
  · exact .ite h (.next (.ite (.setCore (.tcmReload h)) (.setRf (.setCore (.tcmReload h)))))

theorem execNoEligiblePair (h : InLockdown s.regs) : Stays (execNoEligiblePair s) := .neg (by simp [h.serving]) h

/-! ### Register commands and the debug port -/

theorem masterReaches {m f : Nat} {write : Bool} {a : Nat} {diag : Bool} (h : InLockdown s.regs) :
    InLockdown (s.masterReaches m f write a diag).2.regs := by
  dsimp only [State.masterReaches]
  refine .ite_snd ?_ ?_
  · refine .ite_snd h (.ite_snd (.ite_snd h h.dbgDeny) ?_)
    split
    · next e => exact h.ridge.snd e
    · next e => exact (h.ridge.snd e).dbgDeny
  · refine .ite_snd h (.ite_snd h ?_)
    split
    · next e => exact h.ridge.snd e
    · next e => exact h.ridge.snd e

theorem regRow {ok : Bool} {q : Requester} {r : Reg} {v : Word} (h : InLockdown s.regs) : Stays (regRow ok q r v s) := by
  unfold Machine.regRow
  refine .ite trivial ?_
  cases q with
  | core n k => exact .pos (by simp [h.canIssue]) h
  | master m f =>
    dsimp only
    split
    · next e => exact .next (h.masterReaches.snd e)
    · next e =>
      have reached := h.masterReaches.snd e
      rw [reached.regWrite_eq]
      exact reached

theorem answerRead {w : Word} {err : Bool} (h : InLockdown s.regs) : InLockdown (s.answerRead w err).regs := h

theorem denyRead {m : Nat} (h : InLockdown s.regs) : InLockdown (s.denyRead m).regs := h.whenNot (·.answerRead)

theorem readRow {ok : Bool} {q : Requester} {r : Reg} (h : InLockdown s.regs) : Stays (readRow ok q r s) := by
  unfold Machine.readRow
  refine .ite trivial ?_
  cases q with
  | core n k => exact .pos (by simp [h.canIssue]) h
  | master m f =>
    dsimp only
    split
    · next e => exact .next (h.masterReaches.snd e).denyRead
    · next e => exact .next (h.masterReaches.snd e).regRead.answerRead

theorem execCheck {q : Requester} {v : Word} {image : List (Nat × Byte)} (h : InLockdown s.regs) : Stays (execCheck q v image s) :=
  .ite trivial (regRow (.ite h h))

theorem execRegisterWrite {q : Requester} {pa : Nat} {v : Word} (h : InLockdown s.regs) : Stays (execRegisterWrite q pa v s) := by
  unfold Machine.execRegisterWrite
  generalize s.regAtPa q pa = o
  generalize s.spareDenied q pa = denied
  refine .ite ?_ (.ite trivial ?_)
  · cases q with
    | core n k => trivial
    | master m f => exact .ite trivial (.pos (.inr h.sealedShut) h)
  · cases o with
    | some r => exact h.regRow
    | none =>
      refine .ite trivial ?_
      cases q with
      | core n k => exact .pos (by simp [h.canIssue]) h
      | master m f => exact .next h.masterReaches

theorem execReadReg {pa : Nat} (h : InLockdown s.regs) : Stays (execReadReg pa s) := by
  dsimp only [Machine.execReadReg]
  refine .ite h ?_
  split
  · exact .next h
  · exact .ite (.next h) (.next h)

theorem dbgRead {a : Nat} (h : InLockdown s.regs) : InLockdown (s.dbgRead a).2.2.regs := by
  have read : InLockdown (Machine.readPa s (.master mDBG 0) a).2.regs := h.readPa
  have flash {off : Nat} : InLockdown (s.serveFlash (.master mDBG 0) off a).2.regs := h.serveFlash
  generalize ev : s.dbgRead a = v
  unfold State.dbgRead at ev
  generalize s.windowOffset a = o at ev
  generalize s.serveFlash (.master mDBG 0) = serve at *
  generalize Machine.readPa s (.master mDBG 0) a = r at *
  subst ev
  refine .ite_trd ?_ (.ite_trd h h)
  rcases o with _ | off
  · rcases r with ⟨w, u⟩
    exact read
  · dsimp only
    split
    · next e => exact .snd e flash
    · next e => exact .snd e flash

theorem dbgWrite {a : Nat} {v : Word} {mask : Nat} (h : InLockdown s.regs) : InLockdown (s.dbgWrite a v mask).regs :=
  .ite (.ite (h.getD fun _ => h.writePa) h) (.ite (.ite h h) h)

theorem execDbgAccess {write : Bool} {a : Nat} {v : Word} {mask : Nat} (h : InLockdown s.regs) :
    Stays (execDbgAccess write a v mask s) := by
  dsimp only [Machine.execDbgAccess]
  refine .ite trivial ?_
  split
  · next e => exact .next ((h.masterReaches.snd e).whenNot (·.denyRead))
  · next e => exact .ite (.next (h.masterReaches.snd e).dbgWrite) (.next (h.masterReaches.snd e).dbgRead.answerRead)

/-! ### The commands -/

/-- Every command but POR_N going low leaves the device in LOCKDOWN. An instruction does not start, a register keeps what it holds, a key
command waits; the other commands have a lemma each. -/
theorem exec {c : Instr} (h : InLockdown s.regs) (other : c ≠ .porN true) : Stays (exec c s) := by
  cases c with
  | porN low =>
    cases low
    · exact h.execPorN
    · exact absurd rfl other
  | eoi | cntsub | pendWithdraw | doorbell | mcsLoadreq | give | calnow | retire | adv | halt | step | fload | release | relseq
  | go | claim | plotRelease | retireNow | readmit | recordFree | recordAcknowledge | snap | clear | rctlGo | lock | svncommit
  | domainSwitchOn | domainSwitchOff | dvfsRequest | warmDeviceReset | domainReset | pairReset | coreReset | linkBlockReset
  | slotBlockReset | keyUnitReset | monitorReset | laneReset | erase | program | flashRead | txgo | rxfull | uartTransmit =>
    exact h.regRow
  | take | ovfRead | uartRead => exact h.readRow
  | rng | hash | pkverify | enc | dec | macgen | macver | pinxlate | arqc | cvv | sign | verify | rsadec | kinfo | kgen | kimport
  | kexport | kdelete | kagree | reseed => exact h.kStep
  | dividerResult => exact h.execDividerResult
  | cpyt => exact h.execCpyt
  | repElement => exact h.execRepElement
  | kcmdStatus => exact h.execKcmdStatus
  | mvReread => exact h.execMvReread
  | mvWaitTimeout => exact h.execMvWaitTimeout
  | interruptReport => exact h.execInterruptReport
  | holdEnd => exact h.execHoldEnd
  | interruptAccept n k => exact h.execInterruptAccept (n := n) (k := k)
  | timerCompare => exact h.execTimerCompare
  | masklimitExpiry => exact h.execMasklimitExpiry
  | buserrAsync => exact h.execBuserrAsync
  | handlerWatchdog => exact h.execHandlerWatchdog
  | farDataArrival => exact h.execFarDataArrival
  | prefetchRead => exact h.execPrefetchRead
  | storeBufferWrite => exact h.execStoreBufferWrite
  | tcmWriteFromOutside => exact h.execTcmWriteFromOutside
  | pairSelfTest => exact h.execPairSelfTest
  | pairTcmReload => exact h.execPairTcmReload
  | csParityCorrection => exact h.execCsParityCorrection
  | mcsLoadComplete => exact h.execMcsLoadComplete
  | heatDecay => exact h.execHeatDecay
  | placementMove => exact h.execPlacementMove
  | ceWriteback => exact h.execCeWriteback
  | scrubRead => exact h.execScrubRead
  | rowSparing => exact h.execRowSparing
  | retraining => exact h.execRetraining
  | drainingCopy => exact h.execDrainingCopy
  | retdone => exact h.execRetdone
  | epochAdvanceComplete => exact h.execEpochAdvanceComplete
  | dbgAccess => exact h.execDbgAccess
  | coreHalted => exact h.execCoreHalted
  | laneDoorbell => exact h.execLaneDoorbell
  | ringDescriptorRead => exact h.execRingDescriptorRead
  | frameLanding => exact h.execFrameLanding
  | laneStall => exact h.execLaneStall
  | formatFetch => exact h.execFormatFetch
  | parse => exact h.execParse
  | handlerStart => exact h.execHandlerStart
  | deadline => exact h.execDeadline
  | abortRedispatch => exact h.execAbortRedispatch
  | abortEnd => exact h.execAbortEnd
  | abortRelease => exact h.execAbortRelease
  | recordSealing => exact h.execRecordSealing
  | append => exact h.execAppend
  | cartridgeAck => exact h.execCartridgeAck
  | journalStall => exact h.execJournalStall
  | slotUnanswered => exact h.execSlotUnanswered
  | mediaError => exact h.execMediaError
  | responseRelease => exact h.execResponseRelease
  | postBuffer => exact h.execPostBuffer
  | responseBufferWait => exact h.execResponseBufferWait
  | cartridgeInsert => exact h.execCartridgeInsert
  | cartridgeRemove => exact h.execCartridgeRemove
  | attestation => exact h.execAttestation
  | attestationTimeout => exact h.execAttestationTimeout
  | wearRead => exact h.execWearRead
  | resilver => exact h.execResilver
  | resilverComplete => exact h.execResilverComplete
  | labelRewrite => exact h.execLabelRewrite
  | readOutComplete => exact h.execReadOutComplete
  | linkTraining => exact h.execLinkTraining
  | admission => exact h.execAdmission
  | rekey => exact h.execRekey
  | heartbeat => exact h.execHeartbeat
  | linkSilent => exact h.execLinkSilent
  | flitReceive => exact h.execFlitReceive
  | packetForward => exact h.execPacketForward
  | loadPacket => exact h.execLoadPacket
  | storePacket => exact h.execStorePacket
  | passPacket => exact h.execPassPacket
  | lookup => exact h.execLookup
  | reg => exact h.execReg
  | offer => exact h.execOffer
  | physrd => exact h.execPhysrd
  | physwr => exact h.execPhyswr
  | dataPacket => exact h.execDataPacket
  | ackPacket => exact h.execAckPacket
  | nack => exact h.execNack
  | passreply => exact h.execPassreply
  | lookreply => exact h.execLookreply
  | mdata => exact h.execMdata
  | frame => exact h.execFrame
  | fresp => exact h.execFresp
  | lost => exact h.execLost
  | join => exact h.execJoin
  | echo => exact h.execEcho
  | echoTimeout => exact h.execEchoTimeout
  | remoteTimeout => exact h.execRemoteTimeout
  | plotCacheExpiry => exact h.execPlotCacheExpiry
  | forwardingExpiry => exact h.execForwardingExpiry
  | plotMigration => exact h.execPlotMigration
  | remotePassServiceStart => exact h.execRemotePassServiceStart
  | crossServiceStart => exact h.execCrossServiceStart
  | crossTimeout => exact h.execCrossTimeout
  | eventReport => exact h.execEventReport
  | depHoldEnd => exact h.execDepHoldEnd
  | ageMeasurement => exact h.execAgeMeasurement
  | monitorSample => exact h.execMonitorSample
  | selftest => exact h.execSelftest
  | configure => exact h.execConfigure
  | check => exact h.execCheck
  | checkComplete => exact h.execCheckComplete
  | sliceQuiesced => exact h.execSliceQuiesced
  | quiesceTimeout => exact h.execQuiesceTimeout
  | fuseRoot => exact h.execFuseRoot
  | warmReset => exact h.execWarmReset
  | readReg => exact h.execReadReg
  | getId => exact h.execGetId
  | tamperCause => exact h.execTamperCause
  | lockdownClear => exact h.execLockdownClear
  | ldcountProgram => exact h.execLdcountProgram
  | switchOnComplete => exact h.execSwitchOnComplete
  | powerControl => exact h.execPowerControl
  | thermalLimit => exact h.execThermalLimit
  | pllUnlock => exact h.execPllUnlock
  | wrstN => exact h.execWrstN
  | pePerstN => exact h.execPePerstN
  | thermtrip => exact h.execThermtrip
  | avsAckTimeout => exact h.execAvsAckTimeout
  | flashOperationDone => exact h.execFlashOperationDone
  | mctpTransmissionDone => exact h.execMctpTransmissionDone
  | mctpMessageReceived => exact h.execMctpMessageReceived
  | uartReceive => exact h.execUartReceive
  | drbgReseed => exact h.execDrbgReseed
  | entropyHealthFail => exact h.execEntropyHealthFail
  | registerWrite => exact h.execRegisterWrite
  | pllLockRegained => exact h.execPllLockRegained
  | referenceClockLost => exact h.execReferenceClockLost
  | referenceClockRestored => exact h.execReferenceClockRestored
  | avsAcknowledgement => exact h.execAvsAcknowledgement
  | wrstNRise => exact h.execWrstNRise
  | uartTransmitterEmpty => exact h.execUartTransmitterEmpty
  | flashOperationTimeout => exact h.execFlashOperationTimeout
  | noEligiblePair => exact h.execNoEligiblePair
  | oldKeyExpiry => exact h.execOldKeyExpiry
  | _ => exact h.issue

theorem step (h : InLockdown s.regs) (other : s.pending.head? ≠ some (.porN true)) : Stays (step s) := by
  unfold Machine.step
  cases e : s.pending with
  | nil => exact h
  | cons c rest =>
    refine exec ?_ ?_
    · exact h
    · rintro rfl
      exact other (by rw [e]; rfl)

end InLockdown

/-- Settles O58: in LOCKDOWN a reset other than at power-on is the identity, and every command but POR_N going low keeps SYS.MODE. -/
theorem lockdownEndsOnlyAtPowerOn : Obligations.LockdownEndsOnlyAtPowerOn := by
  unfold Obligations.LockdownEndsOnlyAtPowerOn
  constructor
  · intro s v cause mode
    have h : InLockdown s.regs := inLockdown_iff.mpr mode
    exact ⟨h.resetWritten_eq, h.warmReset_eq⟩
  · intro s t mode stepped other
    have stays : Stays (step s) := InLockdown.step (inLockdown_iff.mpr mode) other
    rw [stepped] at stays
    exact inLockdown_iff.mp stays

end Sys2Proof.Machine
end
